-- ==== Sys2Proof/Word.lean ====
section
/-! DEFINITION. The word types, the names of the module's blocks and pages, and the data that travels between them.

Everything here is plain data: bit vectors only where the spec treats a value as bits. -/

namespace Sys2Proof

abbrev Byte := BitVec 8
abbrev Half := BitVec 16
/-- A register, a Joiner word, an engine-instruction word. -/
abbrev Word := BitVec 32
/-- A scratchpad, tier or Joiner-memory word without its check bits. -/
abbrev DWord := BitVec 64
/-- A Joiner register number (R97). -/
abbrev Reg := BitVec 5
/-- A destination or source on the Mortar: X in [16:8], Y in [7:0] (R307). -/
abbrev Dest := BitVec 17

/-- A physical ashlar: die, local column 0..127, physical row 0..97 (R22, R23). -/
structure Ash where
  die : Nat
  col : Nat
  row : Nat
  deriving DecidableEq, Repr

/-- The four engines of an ashlar, in the order of ENGINE in word 0 (R58). -/
inductive Engine where
  | matrix | vector | stream | send
  deriving DecidableEq, Repr

/-- A die edge, in the order of LIN.EDGE.SIDE (R364). -/
inductive Side where
  | north | east | south | west
  deriving DecidableEq, Repr

/-- A memory controller of a die, in the order of the PLN instances (R680): two stacks, the LPDDR block, the DIMM
controller. -/
inductive Ctl where
  | stack0 | stack1 | lpddr | dimm
  deriving DecidableEq, Repr

/-- The register pages of the module (R683). -/
inductive Page where
  | ash (a : Ash)
  | mor (die : Nat) | key (die : Nat) | plb (die : Nat) | cfgDie (die : Nat)
  | lin (die : Nat) (side : Side)
  | hbc (die k : Nat) | lpc (die : Nat) | dmc (die : Nat) | hod (die : Nat)
  | pln (die : Nat) (k : Ctl)
  | eth (die : Nat) | ing (die : Nat) | egr (die : Nat)
  | jhl (die k : Nat)
  | mas | cfg | tim | pwr | clk | thm | pin | fus
  | pci (k : Nat)
  deriving DecidableEq, Repr

/-- Who accesses a register, in the order in which same-cycle writes are applied (R678). -/
inductive Writer where
  | pci0 | pci1 | smbus | mason
  deriving DecidableEq, Repr

/-- The request side of a tier packet: byte offset, words minus 1, frame descriptor (R405). -/
structure TierReq where
  tag : BitVec 15
  off : BitVec 21
  nw  : BitVec 6
  fd  : Word
  deriving DecidableEq, Repr

/-- The destination fields that every partial of a Keystone reduction carries (R173, R349). -/
structure KeyDest where
  dest : Dest
  dwin : BitVec 4
  dacc : Bool
  doff : BitVec 13
  dpeg : BitVec 6
  dinc : Byte
  deriving DecidableEq, Repr

/-- The fields of a Keystone request (R349). -/
structure KeyReq where
  tag   : BitVec 12
  rank  : BitVec 5
  nmemb : BitVec 6
  nelem : BitVec 9
  kd    : KeyDest
  borg  : Dest
  job   : Half
  deriving DecidableEq, Repr

/-- The fields of one remote write (R346). -/
structure RemoteWrite where
  win   : BitVec 4
  epoch : Byte
  acc   : Bool
  recEnd : Bool
  pad   : Bool
  off   : BitVec 13
  words : List DWord
  peg   : BitVec 6
  inc   : Byte
  /-- the sender's outbound entry, which a refusal names to the sender (R347): the model's own field -/
  chan : BitVec 4
  deriving DecidableEq, Repr

/-- What a refused packet was, as the sender of a NAK's target knows it (R347): a send instruction of a channel, a
PSIG, a PFADD's fetch-and-add, or any other packet. -/
inductive Refused where
  | chan (entry : BitVec 4) | psig | fadd (peg : BitVec 6) | other
  deriving DecidableEq, Repr

/-- A scaffold packet's contents by SCMD (R603). -/
inductive Scaf where
  | regWrite (off : BitVec 12) (val : Word)
  | regRead (off : BitVec 12)
  | readReply (err : Bool) (val : Word)
  | bcast (rect : Word) (off : BitVec 12) (val : Word)
  | bcastDone (count : Nat)
  | loadOrder (fd : Word) (off : BitVec 21) (len : BitVec 17) (crc : Word) (context : Bool)
  | loadDone (status : BitVec 4)
  | saveOrder (fd : Word) (off : BitVec 21) (len : BitVec 17) (crc : Word) (context : Bool)
  | saveDone (status : BitVec 4)
  | report (word : Word) (job : Half) (event : Bool)
  | mason (body : List DWord)
  deriving DecidableEq, Repr

/-- What a packet carries, by packet type (R311); a channel flit is a whole packet (R310). -/
inductive Body where
  | chan (ep : BitVec 3) (payload : BitVec 128) (yx : Bool)
  | connect (disc : Bool) (kind : BitVec 2) (ep : BitVec 3) (win : BitVec 4) (tlen : BitVec 2) (entry : BitVec 4)
      (job : Half)
  | connReply (status : BitVec 3) (entry : BitVec 4) (win : BitVec 4) (epoch : Byte) (size wr : BitVec 13)
      (credit : Half)
  | rwrite (w : RemoteWrite)
  | nak (code : BitVec 4) (of : Refused)
  | cret (entry : BitVec 4) (count : Half)
  | psig (peg : BitVec 6) (inc : Byte) (job : Half)
  | fadd (peg : BitVec 6) (delta job : Half)
  | faddReply (peg : BitVec 6) (old : Half)
  | mread (r : TierReq)
  | mlookup (tag : BitVec 15) (handle : BitVec 20) (seg : BitVec 19) (job : Half)
  /-- a Plane's work item: FD, OFF, and in NW the descriptor (R449) -/
  | plane (r : TierReq)
  | mresp (tag : BitVec 15) (status : BitVec 2) (nw : BitVec 6) (off : BitVec 21) (fd : Word) (data : List DWord)
  /-- `unit` is UNIT: 1 names the Plane (R445); `keep` lists, word by word, the bits that a store leaves as the tier holds
  them, and nothing where it covers whole words (R283, R410; DESIGN CHOICE, log 205) -/
  | mwrite (r : TierReq) (unit : Bool) (data keep : List DWord)
  | mack (tag : BitVec 15) (status : BitVec 2)
  | kreq (r : KeyReq)
  | kgrant (status : BitVec 2) (ctx : BitVec 6)
  | scaf (tag : BitVec 7) (c : Scaf)
  deriving DecidableEq, Repr

/-- One packet on the Mortar: its virtual channel, destination and source, and whether a link found it uncorrectable
on the way (R310, R312, R353). -/
structure Packet where
  vc : BitVec 2
  dest : Dest
  src : Dest
  poisoned : Bool
  body : Body
  deriving DecidableEq, Repr

/-- A DIMM as its SPD describes it (R397, R432): CAP 0 stands for a capacity or organisation R397 does not admit. -/
structure Dimm where
  cap : BitVec 2
  ranks : Bool
  stacked : Bool
  rate : Half
  /-- an ECC RDIMM, 80 bits wide -/
  ecc : Bool
  deriving DecidableEq, Repr

/-! ### Jeham links (R548 to R550, R562) -/

/-- What crosses a Jeham link whole: a packet, or a segment of a reduction. -/
inductive JUnit where
  | pkt (p : Packet)
  | seg (bcast : Bool) (ctx : BitVec 4) (k : BitVec 24) (vals : List Word) (poisoned : Bool)
  deriving DecidableEq, Repr

/-- A Jeham frame: its control slot and the units whose last flits it carries (R549). `credit` holds the six credit returns,
VC1, VC2 and VC3, each for the request lane and then the reply lane. -/
structure JFrame where
  seq : BitVec 12
  ack : BitVec 12
  nak : Bool
  credit : List Nat
  lm : BitVec 4
  units : List JUnit
  deriving DecidableEq, Repr

/-! ### What the host places in its memory (R496, R571) -/

/-- A command entry of the Mason's queue (R496); `spare` says that an unused byte is not 0. -/
structure HostCmd where
  opcode : Half
  tag : Word
  job : Half
  args : List Byte
  spare : Bool
  deriving DecidableEq, Repr

/-- A DMA descriptor (R571); `spare` says that an unused byte is not 0. -/
structure DmaDesc where
  opcode : Half
  flags : Byte
  length : Word
  hostAddr : DWord
  job : Half
  handle : Word
  offset : DWord
  spare : Bool
  deriving DecidableEq, Repr

/-! ### Images (R583 to R601): their fields, and what each cryptographic check of R586 finds -/

/-- What checks 6 and 7 find of a section. -/
structure Section where
  crcOk : Bool
  digestOk : Bool
  decryptOk : Bool
  deriving DecidableEq, Repr

/-- A header and its key block (R583, R585): whether check 1 holds, whether the signature is valid, and the SHA-384 of the
public key. -/
structure ImgHeader where
  formatOk : Bool
  kind : Nat
  target : Nat
  svn : Nat
  keyIdx : BitVec 2
  keyHash : BitVec 384
  sigOk : Bool
  enc : Bool
  td1 : Bool
  advance : Bool
  buildId : DWord
  deriving DecidableEq, Repr

/-- A die section: its die index, its contents, among them the firmware of the die's configuration block and the SerDes tables, and
its register writes, each a page offset in the die window, a register offset and a value (R591, R592). -/
structure DieSection where
  die : Nat
  sec : Section
  content : List Byte
  writes : List (Nat × Nat × Word)
  deriving DecidableEq, Repr

structure FabricImage where
  hdr : ImgHeader
  secs : List DieSection
  deriving DecidableEq, Repr

structure FirmwareImage where
  hdr : ImgHeader
  sec : Section
  deriving DecidableEq, Repr

/-- A route-table entry (R598). -/
structure Route where
  timed : Bool
  sxr : Nat
  syr : Nat
  entry : Nat
  sym : Nat
  tx : Nat
  ty : Nat
  d : Nat
  dmax : Nat
  deriving DecidableEq, Repr

/-- A run-table entry with its run (R599, R600). -/
structure AshRun where
  xr : Nat
  yr : Nat
  words : List DWord
  rcrc : Word
  deriving DecidableEq, Repr

/-- A bay image (R597); relocation records are the words of R470. `formatOk`: every count, offset and length lies inside
the section and every reserved field is 0 (R601). -/
structure BayImage where
  sec : Section
  formatOk : Bool
  w : Nat
  h : Nat
  members : Nat
  port : Nat
  group : Nat
  ii : Nat
  longest : Nat
  nslot : Nat
  routes : List Route
  relocs : List DWord
  runs : List AshRun
  template : List Byte
  deriving DecidableEq, Repr

/-- A tensor entry of the job header (R596): handle and the first word of its table entry. -/
structure TensorEntry where
  handle : BitVec 20
  word : DWord
  deriving DecidableEq, Repr

/-- A row of a serving tile as the derive program of a publish makes it (R457): the ashlar of the bay, the first scratchpad word,
the elements and how many lie within the extent, format and block code as a conversion has them, and for each element its byte in
a training tensor. -/
structure DeriveRow where
  xr : Nat
  yr : Nat
  word : Nat
  n : Nat
  valid : Nat
  fmt : Nat
  blk : Nat
  handle : BitVec 20
  src : List Nat
  deriving DecidableEq, Repr

/-- A serving tensor of a publish (R457, R461): its index, the format of its training copy, the ashlar that derives it, and the
word of the report tensor at which its record stands. -/
structure DeriveTensor where
  tensor : Nat
  fp32 : Bool
  ash : Ash
  rows : List DeriveRow
  report : BitVec 20
  record : Nat
  deriving DecidableEq, Repr

/-- Initial contents of a tensor (R592). -/
structure TensorInit where
  sec : Section
  handle : Half
  words : List DWord
  deriving DecidableEq, Repr

/-- A job image set (R596): `planes` the Plane descriptors as DESC0 to DESC9, `reds` reduction contexts as their die,
index and RED_W0 to RED_W5; `headerOk` the job header's own part of check 8. -/
structure JobImage where
  hdr : ImgHeader
  sec : Section
  headerOk : Bool
  clsT : Bool
  priority : Nat
  tensors : List TensorEntry
  planes : List (Nat × List Word)
  reds : List (Nat × Nat × List Word)
  bays : List BayImage
  inits : List TensorInit
  /-- the serial numbers of the modules in the order of their ranks, as the host gives them with LOAD_JOB (R562); empty where it
  gives none -/
  modules : List DWord
  deriving DecidableEq, Repr

/-- What a LOAD_JOB finds outside the module (R496, R562): the bytes of host memory that it names, none where they cannot be read, and
the serial numbers of the modules of the job in the order of their ranks, empty where the host gives none. -/
structure LoadSource where
  bytes : Option (List Byte)
  modules : List DWord
  deriving DecidableEq, Repr

/-- What a flash write places in its range (R607): the bytes of an image, or autostart entries. -/
inductive FlashData where
  | image (b : List Byte)
  /-- autostart entries: enabled, and the image-store slot -/
  | autostart (l : List (Bool × Nat))
  deriving DecidableEq, Repr

end Sys2Proof
end

