-- ==== Sys2Proof/Config.lean ====
section
/-! DEFINITION. What a part fixes (R1, R3, R22), and the values the spec leaves open.

A free value has no body: no proof can see which value it is. -/

namespace Sys2Proof

/-- The ordering codes of R1. -/
inductive Part where
  | td8At110 | td8At125 | td4At110 | td2At110
  deriving DecidableEq, Repr

/-- Dies of the part (R1). -/
def Part.dies : Part → Nat
  | .td8At110 => 8
  | .td8At125 => 8
  | .td4At110 => 4
  | .td2At110 => 2

/-- Dies in one die-row, W of R22. -/
def Part.dieCols : Part → Nat
  | .td8At110 => 4
  | .td8At125 => 4
  | .td4At110 => 2
  | .td2At110 => 2

/-- Die-rows, H of R22. -/
def Part.dieRows : Part → Nat
  | .td8At110 => 2
  | .td8At125 => 2
  | .td4At110 => 2
  | .td2At110 => 1

/-- The grade's nominal fclk in MHz (R1, R687). -/
def Part.nominalMHz : Part → Nat
  | .td8At110 => 1100
  | .td8At125 => 1250
  | .td4At110 => 1100
  | .td2At110 => 1100

/-- The configuration and grade code that CAPS.CONFIG and TARGET of an image carry (R583, R673). -/
def Part.target : Part → Nat
  | .td8At110 => 0
  | .td8At125 => 1
  | .td4At110 => 2
  | .td2At110 => 3

/-- The die that carries the second PCIe endpoint (R21, R681). -/
def Part.lastDie (p : Part) : Nat := p.dies - 1

namespace Config

/-- A value the spec leaves open, fresh for each index: the step that needs one takes the index from State.freeIdx and
advances it. It has no body. -/
opaque freeValue : Nat → BitVec 64

/-- Where the state slice of a stream slot stands in a bay: x and y relative to its origin and the first scratchpad word. The
spec gives a bay image the bytes of the template and no place for them (R489, R597). -/
opaque slicePlace : BayImage → Nat → Nat × Nat × Nat

/-- RESULT of QUERY_JOB for a job's state, the origins of the members of each bay, and the cause of its fault: the spec names what it
holds and gives it no layout (R496). -/
opaque queryResult : Nat → List (List (Option (Nat × Nat × Nat))) → BitVec 16 → BitVec 56

/-- SHA-384, by name only: the spec does not define it (R584 to R586). -/
opaque sha384 : List (BitVec 8) → BitVec 384

/-- Whether an ECDSA signature over P-384 with SHA-384 is valid: of a key, r and s over bytes (R585). The spec does not define it. -/
opaque signatureOk : List (BitVec 8) → List (BitVec 8) → List (BitVec 8) → List (BitVec 8) → Bool

/-- AES-256-GCM under the fused image key, which nothing can read: the plaintext of a section's stored bytes by NONCE and section
index, none where the tag does not verify (R587). The spec does not define it. -/
opaque decrypt : BitVec 64 → Nat → List (BitVec 8) → Option (List (BitVec 8))

/-- The register writes that a die section lists, each a page offset in the die window, a register offset and a value: the spec
gives the section no layout (R591). -/
opaque dieWrites : List (BitVec 8) → List (Nat × Nat × BitVec 32)

/-- The doubleword of configuration space at which a PCI capability stands, by its identifier, and the AER capability among the
extended ones: the spec names them and gives them no place (R568). -/
opaque pciCapability : Nat → Nat

opaque aerCapability : Nat

/-- The payload size and the read request size that software has set, within the maximums of R568. -/
opaque payloadSize : Nat

opaque readRequest : Nat

/-- The version in the test port's identification word, which the spec does not give (R697). -/
opaque jtagVersion : BitVec 4

/-- The manufacturer code in the test port's identification word, which the spec does not give (R697). -/
opaque manufacturer : BitVec 11

end Config

end Sys2Proof
end

