-- ==== Sys2Proof/Syntax.lean ====
section
/-! DEFINITION. The commands: one constructor for each row of the table of operations and events, with the operands
that say where it happens and what arrives. A command names its ashlar, die, port or page; what else it needs it finds
in the state. Each docstring gives the row's mnemonic, the rule it follows and what the row says of it. -/

namespace Sys2Proof

/-- A command of the table. -/
inductive Instr where
  /-- ADD (R102): Joiner ALU FUNC 0x00 writes rs1 + rs2 to rd. -/
  | add (a : Ash) (rd rs1 rs2 : Reg)
  /-- SUB (R102): Joiner ALU FUNC 0x01 writes rs1 − rs2 to rd. -/
  | sub (a : Ash) (rd rs1 rs2 : Reg)
  /-- AND (R102): Joiner ALU FUNC 0x02 writes the bitwise AND to rd. -/
  | and (a : Ash) (rd rs1 rs2 : Reg)
  /-- OR (R102): Joiner ALU FUNC 0x03 writes the bitwise OR to rd. -/
  | or (a : Ash) (rd rs1 rs2 : Reg)
  /-- XOR (R102): Joiner ALU FUNC 0x04 writes the bitwise XOR to rd. -/
  | xor (a : Ash) (rd rs1 rs2 : Reg)
  /-- SLL (R102): Joiner ALU FUNC 0x05 shifts rs1 left by rs2[4:0]. -/
  | sll (a : Ash) (rd rs1 rs2 : Reg)
  /-- SRL (R102): Joiner ALU FUNC 0x06 shifts rs1 right logically by rs2[4:0]. -/
  | srl (a : Ash) (rd rs1 rs2 : Reg)
  /-- SRA (R102): Joiner ALU FUNC 0x07 shifts rs1 right arithmetically by rs2[4:0]. -/
  | sra (a : Ash) (rd rs1 rs2 : Reg)
  /-- SLT (R102): Joiner ALU FUNC 0x08 writes 1 if rs1 < rs2 signed. -/
  | slt (a : Ash) (rd rs1 rs2 : Reg)
  /-- SLTU (R102): Joiner ALU FUNC 0x09 writes 1 if rs1 < rs2 unsigned. -/
  | sltu (a : Ash) (rd rs1 rs2 : Reg)
  /-- MIN (R102): Joiner ALU FUNC 0x0A writes the signed minimum. -/
  | min (a : Ash) (rd rs1 rs2 : Reg)
  /-- MAX (R102): Joiner ALU FUNC 0x0B writes the signed maximum. -/
  | max (a : Ash) (rd rs1 rs2 : Reg)
  /-- MINU (R102): Joiner ALU FUNC 0x0C writes the unsigned minimum. -/
  | minu (a : Ash) (rd rs1 rs2 : Reg)
  /-- MAXU (R102): Joiner ALU FUNC 0x0D writes the unsigned maximum. -/
  | maxu (a : Ash) (rd rs1 rs2 : Reg)
  /-- MUL (R102): Joiner ALU FUNC 0x10 writes the low 32 bits of the product. -/
  | mul (a : Ash) (rd rs1 rs2 : Reg)
  /-- MULHU (R102): Joiner ALU FUNC 0x11 writes the high 32 bits of the unsigned product. -/
  | mulhu (a : Ash) (rd rs1 rs2 : Reg)
  /-- MULH (R102): Joiner ALU FUNC 0x12 writes the high 32 bits of the signed product. -/
  | mulh (a : Ash) (rd rs1 rs2 : Reg)
  /-- FLT (R104): Joiner FP32 less-than comparison into rd. -/
  | flt (a : Ash) (rd rs1 rs2 : Reg)
  /-- FLE (R104): Joiner FP32 less-or-equal comparison into rd. -/
  | fle (a : Ash) (rd rs1 rs2 : Reg)
  /-- FEQ (R104): Joiner FP32 equality comparison into rd. -/
  | feq (a : Ash) (rd rs1 rs2 : Reg)
  /-- FCVTI (R104): Joiner converts FP32 to a signed integer toward zero, saturating. -/
  | fcvti (a : Ash) (rd rs1 : Reg)
  /-- FCVTF (R102): Joiner converts a signed integer to FP32 with RNE. -/
  | fcvtf (a : Ash) (rd rs1 : Reg)
  /-- ADDI (R101): Joiner adds a sign-extended immediate. -/
  | addi (a : Ash) (rd rs1 : Reg) (imm : Half)
  /-- ANDI (R101): Joiner ANDs a zero-extended immediate. -/
  | andi (a : Ash) (rd rs1 : Reg) (imm : Half)
  /-- ORI (R101): Joiner ORs a zero-extended immediate. -/
  | ori (a : Ash) (rd rs1 : Reg) (imm : Half)
  /-- XORI (R101): Joiner XORs a zero-extended immediate. -/
  | xori (a : Ash) (rd rs1 : Reg) (imm : Half)
  /-- SLLI (R101): Joiner shifts left by an immediate. -/
  | slli (a : Ash) (rd rs1 : Reg) (sh : BitVec 5)
  /-- SRLI (R101): Joiner shifts right logically by an immediate. -/
  | srli (a : Ash) (rd rs1 : Reg) (sh : BitVec 5)
  /-- SRAI (R101): Joiner shifts right arithmetically by an immediate. -/
  | srai (a : Ash) (rd rs1 : Reg) (sh : BitVec 5)
  /-- SLTI (R101): Joiner signed compare with an immediate. -/
  | slti (a : Ash) (rd rs1 : Reg) (imm : Half)
  /-- SLTIU (R101): Joiner unsigned compare with an immediate. -/
  | sltiu (a : Ash) (rd rs1 : Reg) (imm : Half)
  /-- LUI (R101): Joiner loads imm16 into the upper half of rd. -/
  | lui (a : Ash) (rd : Reg) (imm : Half)
  /-- LW (R105): Joiner loads a 32-bit word from data memory, trapping on range, alignment or ECC. -/
  | lw (a : Ash) (rd rs1 : Reg) (imm : Half)
  /-- LH (R105): Joiner loads a sign-extended halfword. -/
  | lh (a : Ash) (rd rs1 : Reg) (imm : Half)
  /-- LHU (R105): Joiner loads a zero-extended halfword. -/
  | lhu (a : Ash) (rd rs1 : Reg) (imm : Half)
  /-- LB (R105): Joiner loads a sign-extended byte. -/
  | lb (a : Ash) (rd rs1 : Reg) (imm : Half)
  /-- LBU (R105): Joiner loads a zero-extended byte. -/
  | lbu (a : Ash) (rd rs1 : Reg) (imm : Half)
  /-- SW (R105): Joiner stores a 32-bit word to data memory. -/
  | sw (a : Ash) (rs2 rs1 : Reg) (imm : Half)
  /-- SH (R105): Joiner stores a halfword by read-modify-write of its checked half. -/
  | sh (a : Ash) (rs2 rs1 : Reg) (imm : Half)
  /-- SB (R105): Joiner stores a byte by read-modify-write of its checked half. -/
  | sb (a : Ash) (rs2 rs1 : Reg) (imm : Half)
  /-- BEQ (R106): Joiner branches if rs1 equals rs2. -/
  | beq (a : Ash) (rs1 rs2 : Reg) (off : Half)
  /-- BNE (R106): Joiner branches if rs1 differs from rs2. -/
  | bne (a : Ash) (rs1 rs2 : Reg) (off : Half)
  /-- BLT (R106): Joiner branches if rs1 < rs2 signed. -/
  | blt (a : Ash) (rs1 rs2 : Reg) (off : Half)
  /-- BGE (R106): Joiner branches if rs1 ≥ rs2 signed. -/
  | bge (a : Ash) (rs1 rs2 : Reg) (off : Half)
  /-- BLTU (R106): Joiner branches if rs1 < rs2 unsigned. -/
  | bltu (a : Ash) (rs1 rs2 : Reg) (off : Half)
  /-- BGEU (R106): Joiner branches if rs1 ≥ rs2 unsigned. -/
  | bgeu (a : Ash) (rs1 rs2 : Reg) (off : Half)
  /-- JAL (R106): Joiner writes PC + 1 and jumps PC-relative. -/
  | jal (a : Ash) (rd : Reg) (imm : Half)
  /-- JALR (R106): Joiner writes PC + 1 and jumps to rs1 + imm16. -/
  | jalr (a : Ash) (rd rs1 : Reg) (imm : Half)
  /-- LOOP (R115): Joiner starts a hardware loop with a count from a register. -/
  | loop (a : Ash) (rs1 : Reg) (body : Byte)
  /-- LOOPI (R115): Joiner starts a hardware loop with an immediate count. -/
  | loopi (a : Ash) (count : BitVec 12) (body : Byte)
  /-- LOOPT (R115): Joiner starts a tile loop bounded by an actual-length register. -/
  | loopt (a : Ash) (rs2 rs1 : Reg) (alsel : BitVec 2) (tlog2 : BitVec 5) (body : Byte)
  /-- ISSUE (R111): Joiner transfers an engine instruction from data memory into its engine queue. -/
  | issue (a : Ash) (rsA rs1 : Reg) (widxA : BitVec 4) (rsB : Reg) (widxB : BitVec 4)
  /-- ENGINE_DECODE (R59): The cycle after an ISSUE transfer ends, the instruction is decoded, checked and given a
      scoreboard entry. -/
  | engineDecode (a : Ash)
  /-- PSIG (R119): Joiner adds INC to a local peg. -/
  | psig (a : Ash) (inc : Byte) (peg : BitVec 6)
  /-- PWAIT (R120): Joiner stalls until a take-wait or watch-wait on a local peg holds. -/
  | pwait (a : Ash) (rs1 : Reg) (mode : BitVec 2) (peg : BitVec 6)
  /-- PTEST (R121): Joiner tests whether a peg wait would hold, taking nothing. -/
  | ptest (a : Ash) (rd rs1 : Reg) (peg : BitVec 6)
  /-- PRD (R121): Joiner reads a local peg value into rd. -/
  | prd (a : Ash) (rd : Reg) (peg : BitVec 6)
  /-- PFADD (R122): Joiner sends a fetch-and-add request to a peg and sets rd pending. -/
  | pfadd (a : Ash) (rd rs1 rs2 : Reg)
  /-- EPRD (R124): Joiner reads one word of an endpoint's head flit. -/
  | eprd (a : Ash) (rd : Reg) (word : BitVec 2) (ep : BitVec 3)
  /-- EPPOP (R124): Joiner releases an endpoint's head flit or record and returns credit. -/
  | eppop (a : Ash) (ep : BitVec 3)
  /-- BEPE (R123): Joiner branches if an endpoint holds no flit. -/
  | bepe (a : Ash) (ep : BitVec 3) (off : Half)
  /-- BEPNE (R123): Joiner branches if an endpoint holds a flit. -/
  | bepne (a : Ash) (ep : BitVec 3) (off : Half)
  /-- CSRR (R127): Joiner reads a control and status register. -/
  | csrr (a : Ash) (rd : Reg) (csr : Byte)
  /-- CSRW (R127): Joiner writes a control and status register. -/
  | csrw (a : Ash) (rs1 : Reg) (csr : Byte)
  /-- MSG (R125): Joiner posts a message word to the Mason, stalling while the last is unaccepted. -/
  | msg (a : Ash) (rs1 : Reg)
  /-- TEND (R128): Joiner ends the task once no register is pending. -/
  | tend (a : Ash)
  /-- TRAP (R133): Joiner takes a software trap with CODE. -/
  | trap (a : Ash) (code : Half)
  /-- RETH (R137): Joiner returns from the fault handler to EPC. -/
  | reth (a : Ash)
  /-- FENCE (R126): Joiner stalls until named engines are empty and no register is pending. -/
  | fence (a : Ash) (mask : BitVec 4)
  /-- HALT (R138): Joiner retires HALT, halts and raises JNR_HALT. -/
  | halt (a : Ash)
  /-- BREAKPOINT (R138): Fetch of an armed breakpoint index halts the Joiner and raises JNR_BREAK. -/
  | breakpoint (a : Ash)
  /-- TASK_BOUNDARY (R129): When the boundary condition first holds after TEND, armed banks swap, PC resets and AUTORUN
      restarts. -/
  | taskBoundary (a : Ash)
  /-- REDUCTION_WRITE (R247): A vector scalar result is written to its Joiner register and clears its pending bit. -/
  | reductionWrite (a : Ash) (rd : Reg)
  /-- INSTR_COMPLETE (R62): An engine instruction completes, applies its completion signals and releases its write range. -/
  | instrComplete (a : Ash) (seq : BitVec 5)
  /-- READS_RETIRED (R66): An instruction's last read retires its read ranges and applies reads-retired signals. -/
  | readsRetired (a : Ash) (seq : BitVec 5)
  /-- MMA (R162): Matrix engine runs its batch, N and K passes with accumulate-write into class G. -/
  | mma (a : Ash)
  /-- MWLOAD (R159): Matrix engine loads a whole weight tile and tags it. -/
  | mwload (a : Ash)
  /-- MWDROP (R160): Matrix engine invalidates the active and shadow tiles. -/
  | mwdrop (a : Ash)
  /-- WEIGHT_PRELOAD (R161): During an MMA's last pass the next instruction's first tile starts loading into the shadow
      buffer. -/
  | weightPreload (a : Ash)
  /-- PLUMB_SAMPLE_ARRIVE (R219): A finished sample reaches the PLB over VC3 and updates the slot histogram and alarm
      count. -/
  | plumbSampleArrive (a : Ash)
  /-- SAT_COUNT_ARRIVE (R216): A saturation, NaN or clamp count reaches the PLB slot over VC3. -/
  | satCountArrive (a : Ash)
  /-- SLOT_SNAP (R222): PLB SNAP copies live bins and counters to the snapshot and zeroes them. -/
  | slotSnap (die slot : Nat)
  /-- SLOT_CLEAR (R222): PLB CLEAR zeroes live values, alarm count and saturation sum. -/
  | slotClear (die slot : Nat)
  /-- SLOT_CONFIG_WRITE (R225): A write to SLOT_BAY or SLOT_CFG is checked and distributed to the ashlars of the old and
      new rectangles. -/
  | slotConfigWrite (w : Writer) (die off : Nat) (v : Word)
  /-- SLOT_CONFIG_DONE (R225): Every ashlar has acknowledged the slot configuration and BUSY clears. -/
  | slotConfigDone (die slot : Nat)
  /-- VEC_ADD (R233): Vector engine computes a + b element-wise. -/
  | vecAdd (a : Ash)
  /-- VEC_SUB (R233): Vector engine computes a − b element-wise. -/
  | vecSub (a : Ash)
  /-- VEC_MUL (R233): Vector engine computes a · b element-wise. -/
  | vecMul (a : Ash)
  /-- VEC_FMA (R233): Vector engine computes a · b + c with one rounding. -/
  | vecFma (a : Ash)
  /-- VEC_MIN (R212): Vector engine computes the element-wise minimum. -/
  | vecMin (a : Ash)
  /-- VEC_MAX (R212): Vector engine computes the element-wise maximum. -/
  | vecMax (a : Ash)
  /-- VEC_ABS (R237): Vector engine computes |a|. -/
  | vecAbs (a : Ash)
  /-- VEC_NEG (R237): Vector engine computes −a. -/
  | vecNeg (a : Ash)
  /-- CPSGN (R237): Vector engine copies the sign of b onto a. -/
  | cpsgn (a : Ash)
  /-- CVT (R237): Vector engine copies a through the store conversion. -/
  | cvt (a : Ash)
  /-- SEL (R233): Vector engine selects a or b by a mask bit. -/
  | sel (a : Ash)
  /-- CMP_LT (R240): Vector CMP writes a < b into a mask buffer. -/
  | cmpLt (a : Ash)
  /-- CMP_LE (R240): Vector CMP writes a ≤ b into a mask buffer. -/
  | cmpLe (a : Ash)
  /-- CMP_EQ (R240): Vector CMP writes a = b into a mask buffer. -/
  | cmpEq (a : Ash)
  /-- CMP_NE (R240): Vector CMP writes a ≠ b into a mask buffer. -/
  | cmpNe (a : Ash)
  /-- CMP_GT (R240): Vector CMP writes a > b into a mask buffer. -/
  | cmpGt (a : Ash)
  /-- CMP_GE (R240): Vector CMP writes a ≥ b into a mask buffer. -/
  | cmpGe (a : Ash)
  /-- FN_EXP (R243): Vector FN computes e^x of a·S1 + S2, correctly rounded. -/
  | fnExp (a : Ash)
  /-- FN_EXP2 (R243): Vector FN computes 2^x. -/
  | fnExp2 (a : Ash)
  /-- FN_LN (R243): Vector FN computes ln x. -/
  | fnLn (a : Ash)
  /-- FN_LOG2 (R243): Vector FN computes log2 x. -/
  | fnLog2 (a : Ash)
  /-- FN_RECIP (R243): Vector FN computes 1/x. -/
  | fnRecip (a : Ash)
  /-- FN_SQRT (R243): Vector FN computes √x with exact midpoint handling. -/
  | fnSqrt (a : Ash)
  /-- FN_RSQRT (R243): Vector FN computes 1/√x. -/
  | fnRsqrt (a : Ash)
  /-- FN_TANH (R243): Vector FN computes tanh x. -/
  | fnTanh (a : Ash)
  /-- FN_SIGMOID (R243): Vector FN computes the sigmoid. -/
  | fnSigmoid (a : Ash)
  /-- FN_SILU (R243): Vector FN computes SiLU. -/
  | fnSilu (a : Ash)
  /-- FN_GELU (R243): Vector FN computes GELU. -/
  | fnGelu (a : Ash)
  /-- FN_SOFTPLUS (R243): Vector FN computes softplus. -/
  | fnSoftplus (a : Ash)
  /-- VEC_AND (R233): Vector engine integer bitwise AND. -/
  | vecAnd (a : Ash)
  /-- VEC_OR (R233): Vector engine integer bitwise OR. -/
  | vecOr (a : Ash)
  /-- VEC_XOR (R233): Vector engine integer bitwise XOR. -/
  | vecXor (a : Ash)
  /-- SHL (R233): Vector engine integer shift left. -/
  | shl (a : Ash)
  /-- SHR (R233): Vector engine integer logical shift right. -/
  | shr (a : Ash)
  /-- VEC_SRA (R233): Vector engine integer arithmetic shift right. -/
  | vecSra (a : Ash)
  /-- RSUM (R244): Vector engine sums each row in fixed lane order. -/
  | rsum (a : Ash)
  /-- RSSQ (R244): Vector engine sums squares of each row. -/
  | rssq (a : Ash)
  /-- RMAX (R244): Vector engine takes each row's maximum. -/
  | rmax (a : Ash)
  /-- RMIN (R244): Vector engine takes each row's minimum. -/
  | rmin (a : Ash)
  /-- RAMAX (R246): Vector engine returns the index of the maximum. -/
  | ramax (a : Ash)
  /-- COMPRESS (R248): Vector engine packs active elements and returns their count. -/
  | compress (a : Ash)
  /-- EXPAND (R249): Vector engine unpacks elements into active positions and returns the count. -/
  | expand (a : Ash)
  /-- MLOAD (R240): Vector engine loads a mask buffer from a bit stream. -/
  | mload (a : Ash)
  /-- MSTORE (R240): Vector engine stores a mask buffer as a bit stream. -/
  | mstore (a : Ash)
  /-- MLOGIC_AND (R240): Mask buffer AND of two buffers. -/
  | mlogicAnd (a : Ash)
  /-- MLOGIC_OR (R240): Mask buffer OR of two buffers. -/
  | mlogicOr (a : Ash)
  /-- MLOGIC_XOR (R240): Mask buffer XOR of two buffers. -/
  | mlogicXor (a : Ash)
  /-- MLOGIC_ANDN (R240): Mask buffer AND NOT of two buffers. -/
  | mlogicAndn (a : Ash)
  /-- MLOGIC_NOT (R240): Mask buffer NOT. -/
  | mlogicNot (a : Ash)
  /-- MLOGIC_SET (R240): Mask buffer set to all ones. -/
  | mlogicSet (a : Ash)
  /-- MLOGIC_CLEAR (R240): Mask buffer cleared to zero. -/
  | mlogicClear (a : Ash)
  /-- OPTUPD_SGD (R443): OPTUPD applies the SGD rule to scratchpad records. -/
  | optupdSgd (a : Ash)
  /-- OPTUPD_MOMENTUM (R443): OPTUPD applies momentum SGD. -/
  | optupdMomentum (a : Ash)
  /-- OPTUPD_NESTEROV (R443): OPTUPD applies Nesterov momentum. -/
  | optupdNesterov (a : Ash)
  /-- OPTUPD_ADAMW (R443): OPTUPD applies AdamW. -/
  | optupdAdamw (a : Ash)
  /-- OPTUPD_LION (R443): OPTUPD applies Lion. -/
  | optupdLion (a : Ash)
  /-- OPTUPD_ADAGRAD (R443): OPTUPD applies Adagrad. -/
  | optupdAdagrad (a : Ash)
  /-- SLOAD (R286): Stream program fills a load ring with tensor rows, converting formats. -/
  | sload (a : Ash)
  /-- SSTORE (R287): Stream program drains a store ring into tensor rows. -/
  | sstore (a : Ash)
  /-- FILL (R291): Stream engine writes a 64-bit constant to every word of RANGE_W. -/
  | fill (a : Ash)
  /-- COPY (R292): Stream engine copies RANGE_A to RANGE_W with check bits of the destination class. -/
  | copy (a : Ash)
  /-- RPOP (R293): Stream engine pops COUNT slots of a load ring. -/
  | rpop (a : Ash)
  /-- WCTL_OPEN (R277): WCTL opens a remote window. -/
  | wctlOpen (a : Ash)
  /-- WCTL_CLOSE (R277): WCTL closes a remote window and advances its epoch. -/
  | wctlClose (a : Ash)
  /-- WCTL_CLOSE_OPEN (R277): WCTL closes then reopens a remote window at a new epoch. -/
  | wctlCloseOpen (a : Ash)
  /-- SLOAD_REQUEST (R286): A load program reserves a free slot and launches a tier request for the next chunk. -/
  | sloadRequest (a : Ash) (prog : Nat)
  /-- SSTORE_DRAIN (R287): A store program reads a newly full slot and sends its row as write packets. -/
  | sstoreDrain (a : Ash) (prog : Nat)
  /-- SPAD_WRITEBACK (R262): A corrected scratchpad word is written back when its bank's write port is free. -/
  | spadWriteback (a : Ash)
  /-- SCRUB_VISIT (R264): Every INTERVAL cycles the scrubber reads the next class W word and corrects or reports it. -/
  | scrubVisit (a : Ash)
  /-- SENDT (R338): Send engine sends COUNT tuples on a tuple channel. -/
  | sendt (a : Ash)
  /-- SENDI (R336): Send engine sends one tuple held in the body. -/
  | sendi (a : Ash)
  /-- MSEND (R342): Send engine writes a record, with a pad if needed, into a message ring. -/
  | msend (a : Ash)
  /-- WSEND (R346): Send engine writes RANGE_A into a remote window with an optional signal. -/
  | wsend (a : Ash)
  /-- PSIGR (R336): Send engine signals a peg in any ashlar or block. -/
  | psigr (a : Ash)
  /-- CONN_CONNECT (R329): Send engine sends a CONNECT for a dynamic channel and waits for the reply. -/
  | connConnect (a : Ash)
  /-- CONN_DISCONNECT (R331): Send engine disconnects a dynamic channel at once. -/
  | connDisconnect (a : Ash)
  /-- KSEND (R349): Send engine requests Keystone admission and sends its split-K partial once granted. -/
  | ksend (a : Ash)
  /-- SEND_RESUME (R340): A send blocked for credit emits its next flit when credit returns. -/
  | sendResume (a : Ash)
  /-- CONNECT_RETRY (R330): After FENCED or BUSY the sender repeats the CONNECT 256 cycles later. -/
  | connectRetry (a : Ash)
  /-- CHANNEL_FLIT (R332): A channel flit reaches an inbound endpoint and is queued or dropped. -/
  | channelFlit (p : Packet)
  /-- CONNECT (R329): A CONNECT is judged at the receiver and answered with a status. -/
  | connect (p : Packet)
  /-- CONN_REPLY (R330): A CONN_REPLY sets the sender's entry or schedules a retry or fault. -/
  | connReply (p : Packet)
  /-- RWRITE (R346): A remote write is accepted or refused and its words and signal applied. -/
  | rwrite (p : Packet)
  /-- NAK (R347): A NAK reaches the sender, which acts by its code. -/
  | nak (p : Packet)
  /-- CRET (R333): A CRET adds credits to the named outbound entry. -/
  | cret (p : Packet)
  /-- PSIG_PACKET (R382): A PSIG packet is taken at the home ashlar and applied or refused. -/
  | psigPacket (p : Packet)
  /-- FADD (R378): A fetch-and-add is applied at the home peg and answered. -/
  | fadd (p : Packet)
  /-- FADD_REPLY (R381): A FADD_REPLY writes the old value into the pending register. -/
  | faddReply (p : Packet)
  /-- STALL (R356): A blocked send engine's cycle count exceeds its class limit. -/
  | stall (a : Ash)
  /-- DEADLOCK_PROBE (R357): The Mason follows the wait-for chain and, on a repeated cycle, declares DEADLOCK. -/
  | deadlockProbe (a : Ash)
  /-- FENCE_WRITE (R354): A MOR.FENCEn write is distributed to every router of the die. -/
  | fenceWrite (die n : Nat) (v : Word)
  /-- FENCE_APPLY (R354): Every router has applied a fence and APPLIED sets. -/
  | fenceApply (die n : Nat)
  /-- RACC_READ (R360): A router register read is carried over VC3. -/
  | raccRead (die : Nat)
  /-- RACC_WRITE (R360): A router register write is carried over VC3. -/
  | raccWrite (die : Nat)
  /-- LINTEL_UP (R352): Both dies of a lintel run and leave reset, so the lintel passes flits. -/
  | lintelUp (die : Nat) (side : Side)
  /-- LINTEL_DOWN (R352): A lintel leaves UP and holds flits and credits. -/
  | lintelDown (die : Nat) (side : Side)
  /-- KREQ (R349): The Keystone grants, queues or retries a partial's admission request. -/
  | kreq (p : Packet)
  /-- KGRANT (R349): A grant lets a KSEND send its data, or asks it to retry or abort. -/
  | kgrant (p : Packet)
  /-- KREQ_RETRY (R349): A KSEND repeats its KREQ 64 cycles after a RETRY. -/
  | kreqRetry (a : Ash)
  /-- KEYSTONE_ADMIT (R176): A freed context admits the oldest queued rank-0 partial. -/
  | keystoneAdmit (die : Nat)
  /-- KEYSTONE_PARTIAL (R174): A partial's data flit is combined in rank order into its context. -/
  | keystonePartial (p : Packet)
  /-- CTX_RELEASE (R187): KEY.CTX_CMD.RELEASE frees one Keystone context, aborting its requests. -/
  | ctxRelease (die ctx : Nat)
  /-- CTX_RELEASE_RECT (R187): KEY.CTX_CMD.RELEASE_RECT frees every context whose rank 0 lies in a fence rectangle. -/
  | ctxReleaseRect (die fence : Nat)
  /-- RELEASE_DRAIN_END (R187): Released contexts' granted flits have arrived or 4,096 quiet cycles pass, clearing BUSY. -/
  | releaseDrainEnd (die : Nat)
  /-- MREQ_READ (R407): A tier controller accepts and serves a read request for one line. -/
  | mreqRead (p : Packet)
  /-- MWRITE (R407): A tier controller accepts a write, orders it and answers MACK. -/
  | mwrite (p : Packet)
  /-- MREQ_LOOKUP (R404): The Hod translates job, handle and segment to a frame, from cache or tables. -/
  | mreqLookup (p : Packet)
  /-- MRESP (R406): A read response or status reaches its requester. -/
  | mresp (p : Packet)
  /-- MACK (R406): A write acknowledgement reaches its requester. -/
  | mack (p : Packet)
  /-- PATROL_SCRUB (R412): The tier scrubber reads the next word and corrects or reports it. -/
  | patrolScrub (die : Nat) (ctl : Ctl)
  /-- DECAY_SWEEP (R416): Every INTERVAL the controllers halve access counters and the Hod picks candidates. -/
  | decaySweep (die : Nat)
  /-- MIGRATION_START (R418): With room under MAX_MIG the Hod starts the next migration and copies lines. -/
  | migrationStart (die : Nat)
  /-- MIGRATION_SWITCH (R419): Once no request is in progress the frame switches, dirty lines copy and the map is
      rewritten. -/
  | migrationSwitch (die idx : Nat)
  /-- MIGRATION_ABORT (R422): A migration not yet switching is aborted and the map left unchanged. -/
  | migrationAbort (die idx : Nat)
  /-- FRAME_REUSE (R424): A released frame becomes reusable after the reuse delay. -/
  | frameReuse (die tier frame : Nat)
  /-- HOD_CMD_GO (R434): HOD.CMD.GO starts an ordered move of one segment. -/
  | hodCmdGo (die : Nat) (v : Word)
  /-- DIMM_EVACUATE (R432): SVC_CTRL.EVACUATE moves an ONLINE socket to EVACUATING. -/
  | dimmEvacuate (die : Nat)
  /-- DIMM_CANCEL (R432): SVC_CTRL.CANCEL returns an evacuating socket to ONLINE. -/
  | dimmCancel (die : Nat)
  /-- DIMM_READMIT (R432): SVC_CTRL.READMIT powers and trains a PRESENT socket. -/
  | dimmReadmit (die : Nat)
  /-- DIMM_SAFE (R426): An EMPTY socket's rails go off and its indicator on. -/
  | dimmSafe (die : Nat)
  /-- DIMM_PRESENT (R426): Presence holds for 500 ms and an ABSENT socket becomes PRESENT. -/
  | dimmPresent (die : Nat) (d : Dimm)
  /-- DIMM_REMOVED (R426): Presence drops in SAFE or REJECTED and the socket becomes ABSENT. -/
  | dimmRemoved (die : Nat)
  /-- DIMM_TRAINING_DONE (R428): Training ends and the socket enters INIT or REJECTED. -/
  | dimmTrainingDone (die : Nat) (ok : Bool)
  /-- DIMM_INIT_DONE (R428): INIT write and read-back end and the socket goes ONLINE or REJECTED. -/
  | dimmInitDone (die : Nat) (ok : Bool)
  /-- DIMM_LOST (R429): A DIMM loses presence or power with frames in use; rails off and frames poisoned. -/
  | dimmLost (die : Nat)
  /-- PLANE_TRIGGER (R447): A PSIG to a Plane adds to a descriptor's trigger count and may queue it. -/
  | planeTrigger (p : Packet)
  /-- PLANE_DISPATCH (R448): The Plane dispatches a queued descriptor, handing segments out T3 first. -/
  | planeDispatch (die : Nat) (ctl : Ctl)
  /-- PLANE_WORK_ITEM (R450): A Plane sweeps a segment's line groups with the optimiser rule. -/
  | planeWorkItem (die : Nat) (ctl : Ctl)
  /-- PLANE_ITEM_ANSWER (R448): The dispatcher handles an item's answer, reissuing after MOVED or stopping on error. -/
  | planeItemAnswer (p : Packet)
  /-- PLN_DESC_WRITE (R463): A write to a Plane descriptor is checked and applied or refused. -/
  | plnDescWrite (die : Nat) (ctl : Ctl) (off : Nat) (v : Word)
  /-- LOAD_JOB (R601): Mason stages, verifies and places a job image set, `img` where the command names host memory. -/
  | loadJob (c : HostCmd) (img : LoadSource)
  /-- START_JOB (R496): Mason starts a loaded job. -/
  | startJob (c : HostCmd)
  /-- STOP_JOB (R496): Mason pre-empts a class T job or fences and silences a class S job. -/
  | stopJob (c : HostCmd)
  /-- RESUME_JOB (R487): Mason restores and restarts a stopped job. -/
  | resumeJob (c : HostCmd)
  /-- UNLOAD_JOB (R496): Mason frees a job's frames and ashlars. -/
  | unloadJob (c : HostCmd)
  /-- SET_PRIORITY (R467): Mason changes a class T job's priority. -/
  | setPriority (c : HostCmd)
  /-- SLOT_ADD (R490): Mason initialises a free stream slot and then inserts its ingress entry. -/
  | slotAdd (c : HostCmd)
  /-- SLOT_REMOVE (R489): Mason deletes a key's ingress entry and drains its slot. -/
  | slotRemove (c : HostCmd)
  /-- SLOT_DRAIN_DONE (R489): Egress has released every event before the removal and the slot becomes FREE. -/
  | slotDrainDone (job : Half) (bay slot : Nat)
  /-- PUBLISH (R459): Mason derives a serving copy and installs it twin by twin. -/
  | publish (c : HostCmd) (tensors : List DeriveTensor)
  /-- DIMM_SERVICE_BEGIN (R427): Host asks the Mason to begin service of a socket. -/
  | dimmServiceBegin (c : HostCmd)
  /-- DIMM_SERVICE_CANCEL (R425): Host asks the Mason to cancel socket service. -/
  | dimmServiceCancel (c : HostCmd)
  /-- DIMM_SERVICE_READMIT (R425): Host asks the Mason to readmit a socket. -/
  | dimmServiceReadmit (c : HostCmd)
  /-- SIGNAL (R395): Mason writes ASH.PEG_SIG of a bay ashlar for the host. -/
  | signal (c : HostCmd)
  /-- QUERY_JOB (R496): Mason returns a job's state, bay origins and fault cause. -/
  | queryJob (c : HostCmd)
  /-- MASON_RESTART (R47): Mason restarts onto new firmware while fabrics run. -/
  | masonRestart (c : HostCmd)
  /-- MASON_READY (R499): A restarted Mason resumes fetching and handles held faults in time order. -/
  | masonReady
  /-- MAS_WDOG (R636): Firmware unserviced for 100 ms restarts the Mason. -/
  | masWdog
  /-- HCQ_ENABLE (R494): Setting a ring's ENABLE resets its indices and phase. -/
  | hcqEnable (ring : Nat) (v : Word)
  /-- MAILBOX_ENTRY (R493): The Mason takes the summary bitmap, then inbox entries, and posts their events. -/
  | mailboxEntry (die : Nat)
  /-- PREEMPT (R482): Mason drains, revokes credits and saves a class T job at task boundaries. -/
  | preempt (job : Half)
  /-- PREEMPT_TIMEOUT (R484): Pre-emption exceeds PREEMPT_LIMIT and the job is frozen and faulted. -/
  | preemptTimeout (job : Half)
  /-- QUANTUM_EXPIRY (R478): A waiting job exceeds QUANTUM and lower-priority jobs are pre-empted. -/
  | quantumExpiry
  /-- RUN_QUEUE_PLACE (R478): When ashlars free, the Mason places the first queued job that fits. -/
  | runQueuePlace
  /-- BAY_MOVE (R488): Mason moves a class S bay member by member, or a pre-empted class T bay. -/
  | bayMove (job : Half) (bay member : Nat)
  /-- FRAME_RECEIVE (R507): A frame enters ingress at end of frame, is parsed, checked, looked up and sequenced. -/
  | frameReceive (die lport : Nat) (frame : List Byte) (age : DWord)
  /-- ROUTE_INJECT (R519): A member route with credit takes its next event and injects its flits. -/
  | routeInject (die route : Nat)
  /-- STALE_DROP (R520): An untaken event waits beyond ING.TIMEOUT and is dropped. -/
  | staleDrop (die group : Nat)
  /-- CAPTURE_WRITE (R521): An event record is written to the capture ring in T2. -/
  | captureWrite (die : Nat)
  /-- CAPTURE_CREDIT_RETURN (R522): A PSIG to the Ethernet block adds capture credits. -/
  | captureCreditReturn (p : Packet)
  /-- LK_INSERT (R514): ING.LK_CMD.INSERT adds a key to the lookup table. -/
  | lkInsert (die : Nat)
  /-- LK_DELETE (R514): ING.LK_CMD.DELETE removes a key. -/
  | lkDelete (die : Nat)
  /-- LK_READ (R543): ING.LK_CMD.READ loads LK_DATA for a key. -/
  | lkRead (die : Nat)
  /-- PUNT_POP (R542): ETH.PUNT_STATUS.POP releases the head punt entry. -/
  | puntPop (die : Nat)
  /-- MTX_GO (R529): ETH.MTX_CMD.GO queues a management frame for transmission. -/
  | mtxGo (die : Nat)
  /-- MGMT_TX_START (R529): A management frame starts once its port's transmit queue is empty. -/
  | mgmtTxStart (die : Nat)
  /-- LINK_CHANGE (R506): A logical port's PCS lock changes and LINK_CHANGE is raised. -/
  | linkChange (die lport : Nat) (up : Bool)
  /-- RX_IDLE (R506): An up port receives no frame for TIMEOUT microseconds. -/
  | rxIdle (die lport : Nat)
  /-- EGRESS_RESULT (R530): Egress takes a whole result and releases, compares or votes by group mode. -/
  | egressResult (die input : Nat)
  /-- TWIN_WAIT_EXPIRY (R532): TWIN_WAIT passes without the other result; timeout, vote release or dissent follows. -/
  | twinWaitExpiry (die group : Nat) (seq : Word)
  /-- UNAVAIL_PERIOD (R534): A SILENT group emits its unavailable frame every UNAVAIL_PERIOD. -/
  | unavailPeriod (die group : Nat)
  /-- GRP_MODE_WRITE (R531): A written release mode applies from the next event's first result. -/
  | grpModeWrite (die group : Nat) (v : Word)
  /-- TIM_SET (R536): Writing TIM.SET HI steps the time base. -/
  | timSet (v : Word)
  /-- TIM_ADJ (R536): Writing TIM.ADJ starts a slew of up to ±1,000 ns. -/
  | timAdj (v : Word)
  /-- PPS_PULSE (R539): A filtered PPS edge is validated and latches the time base. -/
  | ppsPulse (width since : Nat)
  /-- PPS_HOLDOVER (R539): No valid pulse for TIM.TIMEOUT sets HOLDOVER. -/
  | ppsHoldover
  /-- JHL_FRAME_RECEIVE (R550): A Jeham frame is accepted or discarded and its flits, credits, ACK and LM acted on. -/
  | jhlFrameReceive (die port : Nat) (good : Bool) (corrected : List Nat) (f : JFrame)
  /-- REPLAY_TIMEOUT (R551): ACK stalls for REPLAY_US and the sender replays. -/
  | replayTimeout (die port : Nat)
  /-- JHL_LINK_DOWN (R555): REPLAY_MAX replays or lost block lock take the port down to retrain. -/
  | jhlLinkDown (die port : Nat)
  /-- JHL_TRAINED (R554): Both sides finish training and the link is UP, resuming replay. -/
  | jhlTrained (die port : Nat) (serial : DWord) (peer : BitVec 4) (expected : BitVec 12)
  /-- JHL_FAIL (R555): A port not UP within JHL.TIMEOUT enters FAILED. -/
  | jhlFail (die port : Nat)
  /-- JHL_RETRAIN (R555): LINKCFG.RETRAIN retrains a FAILED port. -/
  | jhlRetrain (die port : Nat)
  /-- HEARTBEAT_SEND (R556): Every HB_PERIOD a port sends LM 1. -/
  | heartbeatSend (die port : Nat)
  /-- JHL_PEER_LOST (R556): No heartbeat for HB_LOSS periods. -/
  | jhlPeerLost (die port : Nat)
  /-- TUNNEL_RWRITE (R558): A port forwards or refuses an RWRITE through a window tunnel. -/
  | tunnelRwrite (p : Packet)
  /-- TUNNEL_PSIG (R558): A port forwards or refuses a PSIG through a peg tunnel. -/
  | tunnelPsig (p : Packet)
  /-- TUNNEL_CONNECT (R558): A port answers a CONNECT to a tunnel. -/
  | tunnelConnect (p : Packet)
  /-- TUNNEL_CHANNEL_FLIT (R559): A channel tunnel forwards a flit when RCREDIT allows. -/
  | tunnelChannelFlit (p : Packet)
  /-- TUNNEL_CRET (R559): A CRET from the peer adds to a tunnel's RCREDIT. -/
  | tunnelCret (die port : Nat)
  /-- JHL_REMOTE_NAK (R560): A refusal on the peer module is counted at the peer port. -/
  | jhlRemoteNak (p : Packet)
  /-- REDUCE_TRIGGER (R561): A PSIG to a Jeham port adds to a reduction context's trigger count. -/
  | reduceTrigger (p : Packet)
  /-- REDUCE_START (R562): A triggered rank-0 context sends its partial segments. -/
  | reduceStart (die ctx : Nat)
  /-- REDUCE_SEGMENT (R562): A reduce segment arrives, is added to the local partial and forwarded or finished. -/
  | reduceSegment (die : Nat)
  /-- BCAST_SEGMENT (R562): A broadcast segment arrives and is written and passed down. -/
  | bcastSegment (die : Nat)
  /-- BAR_READ_TIMEOUT (R569): A BAR read unanswered for 50 µs completes with 0 and ERR_ACCESS. -/
  | barReadTimeout (k : Nat)
  /-- APERTURE_READ (R570): A BAR4 read becomes class T tier reads through an aperture entry. -/
  | apertureRead (k : Nat) (addr len : Nat)
  /-- APERTURE_WRITE (R570): A BAR4 write of whole words becomes tier writes, or is discarded. -/
  | apertureWrite (k : Nat) (addr : Nat) (data : List Byte)
  /-- DMA_NOP (R571): A NOP descriptor completes. -/
  | dmaNop (k q : Nat) (d : DmaDesc)
  /-- DMA_HOST_TO_TIER (R572): A descriptor moves host data into a tensor. -/
  | dmaHostToTier (k q : Nat) (d : DmaDesc) (data : List DWord) (err : Bool)
  /-- DMA_TIER_TO_HOST (R572): A descriptor moves tensor data to the host. -/
  | dmaTierToHost (k q : Nat) (d : DmaDesc) (err : Bool)
  /-- DQ_ENABLE (R572): Writing DQ_CFG.ENABLE sets up or restarts a DMA queue. -/
  | dqEnable (k q : Nat) (v : Word)
  /-- AP_ENTRY_WRITE (R579): Writing AP_W2 changes an aperture entry. -/
  | apEntryWrite (k : Nat) (v : Word)
  /-- MAKE_HOME (R575): PCI.HOST.MAKE_HOME moves the Mason's home endpoint. -/
  | makeHome (k : Nat)
  /-- PCIE_LINK_DOWN (R576): An endpoint's link or Bus Master Enable drops; its DMA halts and failover may follow. -/
  | pcieLinkDown (k : Nat) (link : Bool)
  /-- FLR (R568): Function Level Reset or hot reset clears the endpoint's DMA and MSI-X. -/
  | flr (k : Nat)
  /-- POWER_ON (R668): Power-good starts the boot loader and rail sequencing. -/
  | powerOn
  /-- CONFIG_START (R591): When the Mason is ready, die 0 reads and verifies slot A and streams sections down the chain. -/
  | configStart
  /-- SECTION_TIMEOUT (R591): A die holds no section 2 ms after the last and reports failure. -/
  | sectionTimeout (die : Nat)
  /-- FABRIC_START (R591): DONE_OD high for 10 µs starts each die's fabric. -/
  | fabricStart
  /-- DONE_WAIT (R594): All dies released but DONE_OD stays low for DONE_TIMEOUT. -/
  | doneWait
  /-- RCV_GO (R595): In Recovery, CFG.RCV_CMD.GO configures from host memory. -/
  | rcvGo (img : List Byte) (readOk : Bool)
  /-- RELEASE_DONE (R595): In Recovery, BOOT_CTRL.RELEASE_DONE releases the module's done outputs. -/
  | releaseDone
  /-- FLASH_WRITE (R607): CFG.FL_CMD.WRITE verifies an image, erases, programs and reads back a slot. -/
  | flashWrite (data : FlashData) (readOk deviceOk same : Bool)
  /-- AUTOSTART_LOAD (R607): After sockets leave INIT the Mason loads enabled autostart entries. -/
  | autostartLoad
  /-- REG_WRITE (R603): A scaffold REG_WRITE writes a page register. -/
  | regWrite (p : Packet)
  /-- REG_READ (R603): A scaffold REG_READ reads a page register and replies. -/
  | regRead (p : Packet)
  /-- READ_REPLY (R603): A READ_REPLY returns a register value to the requester. -/
  | readReply (p : Packet)
  /-- BCAST (R603): The configuration block writes one ASH register in every ashlar of a rectangle. -/
  | bcast (p : Packet)
  /-- BCAST_DONE (R603): A broadcast completes with the count written. -/
  | bcastDone (p : Packet)
  /-- LOAD_ORDER (R605): A frozen ashlar's configuration port pulls and applies its run or context record. -/
  | loadOrder (p : Packet)
  /-- LOAD_DONE (R605): A load answer reaches the configuration block; a failure raises CFG_LOAD. -/
  | loadDone (p : Packet)
  /-- SAVE_ORDER (R603): An ashlar's port writes its context record into T1. -/
  | saveOrder (p : Packet)
  /-- SAVE_DONE (R603): A save answer reaches the configuration block. -/
  | saveDone (p : Packet)
  /-- REPORT (R492): A MSG or event report enters the die's Mason inbox or summary bitmap. -/
  | report (die : Nat)
  /-- MASON_MESSAGE (R603): A message between two modules' Masons over a Jeham port. -/
  | masonMessage (p : Packet)
  /-- BAY_LOAD_START (R606): A queued bay load starts when fewer than two loads run on the die. -/
  | bayLoadStart (die : Nat)
  /-- MEMBER_RECOVERY (R629): A faulted member is rebuilt from its staged image. -/
  | memberRecovery (job : Half) (bay member : Nat)
  /-- SURVIVOR_HELD (R629): Peg 46 advances, credits balance and LONGEST passes; the survivor is frozen and state copied. -/
  | survivorHeld (job : Half) (bay member : Nat)
  /-- BAY_REBUILD (R630): A bay with no serving member is rebuilt with fresh slot state. -/
  | bayRebuild (job : Half) (bay : Nat)
  /-- COURSE_SHIFT (R634): A failed row is retired, holding the die and copying state to new physical rows. -/
  | courseShift (die row : Nat)
  /-- COURSE_CMD_RETIRE (R635): CFG.COURSE_CMD.RETIRE retires a physical row. -/
  | courseCmdRetire (die : Nat) (v : Word)
  /-- FREEZE_SET (R75): Setting ASH.CTRL.FREEZE holds the ashlar within 4 cycles. -/
  | freezeSet (a : Ash)
  /-- FREEZE_CLEAR (R383): Clearing FREEZE resumes the ashlar, applies deferred sums and queued FADDs. -/
  | freezeClear (a : Ash)
  /-- SOFT_RESET (R76): ASH.CTRL.SOFT_RESET clears queues, pegs, windows and endpoints and halts the Joiner. -/
  | softReset (a : Ash)
  /-- PAGE_SOFT_RESET (R674): SOFT_RESET on an ETH, ING, EGR or JHL page with ENABLE 0 resets the block. -/
  | pageSoftReset (p : Page)
  /-- RESUME (R79): ASH.ENGINE_CTRL.RESUME retires a faulted instruction and restarts its engine. -/
  | resume (a : Ash) (mask : BitVec 4)
  /-- FLUSH (R77): ASH.ENGINE_CTRL.FLUSH discards a frozen engine's instructions. -/
  | flush (a : Ash) (mask : BitVec 4)
  /-- PERF_CLEAR (R92): A PERF_CTRL.CLEAR zeroes a page's performance counters. -/
  | perfClear (p : Page)
  /-- DBG_READ (R94): ASH.DBG_CMD.READ decodes a memory word into DBG_DATA. -/
  | dbgRead (a : Ash)
  /-- DBG_WRITE (R95): ASH.DBG_CMD.WRITE writes a word with check bits of the named class. -/
  | dbgWrite (a : Ash)
  /-- JCTRL_RUN (R141): ASH.JCTRL.RUN starts a halted or ended Joiner. -/
  | jctrlRun (a : Ash)
  /-- JCTRL_HALT (R141): ASH.JCTRL.HALT halts the Joiner at the next boundary. -/
  | jctrlHalt (a : Ash)
  /-- JCTRL_STEP (R141): ASH.JCTRL.STEP executes one instruction and halts. -/
  | jctrlStep (a : Ash)
  /-- JBANK_ARM (R131): ASH.JBANK.ARM swaps banks now or at the next boundary. -/
  | jbankArm (a : Ash)
  /-- JBANK_DISARM (R131): ASH.JBANK.DISARM clears an armed swap. -/
  | jbankDisarm (a : Ash)
  /-- JREG_DATA_WRITE (R144): A write through ASH.JREG_DATA restores a Joiner register or CSR. -/
  | jregDataWrite (a : Ash) (v : Word)
  /-- PEG_SIG_WRITE (R395): ASH.PEG_SIG applies a Mason signal, deferred if frozen. -/
  | pegSigWrite (a : Ash) (v : Word)
  /-- PEG_VALUE_WRITE (R392): A write to ASH.PEGn_VALUE sets a peg, overriding same-cycle changes. -/
  | pegValueWrite (a : Ash) (peg : Nat) (v : Word)
  /-- PEG_WATCHDOG (R386): A waiter's watchdog count passes LIMIT. -/
  | pegWatchdog (a : Ash) (waiter : Nat)
  /-- WIN_CFG_WRITE (R267): A write to ASH.WINn_CFG is checked and may reset ring pointers or close a remote window. -/
  | winCfgWrite (a : Ash) (win : Nat) (v : Word)
  /-- WIN_RING_WRITE (R298): A write to ASH.WINn_RING is checked and resets ring state. -/
  | winRingWrite (a : Ash) (win : Nat) (v : Word)
  /-- DO_OPEN (R277): ASH.WINn_REMOTE.DO_OPEN opens a remote window. -/
  | doOpen (a : Ash) (win : Nat)
  /-- DO_CLOSE (R277): ASH.WINn_REMOTE.DO_CLOSE closes a window and advances its epoch. -/
  | doClose (a : Ash) (win : Nat)
  /-- EP_CFG_WRITE (R358): A write to EPn_CFG is checked and applied or refused. -/
  | epCfgWrite (a : Ash) (ep : Nat) (v : Word)
  /-- INT_FORCE (R673): INT_FORCE sets INT_STATUS bits without an event code. -/
  | intForce (p : Page) (v : Word)
  /-- REGISTER_WRITE (R15): A write to any register without its own row, by its field access codes. -/
  | registerWrite (w : Writer) (bar2 : Bool) (addr size : Nat) (v : Word)
  /-- SMB_SET_OFFSET (R690): SMBus command 0x01 sets the BAR2 offset. -/
  | smbSetOffset (off : Word)
  /-- SMB_READ (R690): SMBus command 0x02 reads a BAR2 register and advances the offset. -/
  | smbRead
  /-- SMB_WRITE (R690): SMBus command 0x03 writes a BAR2 register and advances the offset. -/
  | smbWrite (v : Word)
  /-- BYPASS (R697): JTAG BYPASS instruction. -/
  | bypass
  /-- IDCODE (R697): JTAG IDCODE returns the identification word. -/
  | idcode
  /-- SAMPLE_PRELOAD (R697): JTAG SAMPLE/PRELOAD, acting only in reset. -/
  | samplePreload (v : Nat)
  /-- EXTEST (R697): JTAG EXTEST, acting only while RESET_N is low. -/
  | extest (v : Nat)
  /-- TRST (R697): TRST_N low holds the TAP in Test-Logic-Reset. -/
  | trst
  /-- PIN_GLITCH (R689): An input pulse shorter than GLITCH is discarded and counted. -/
  | pinGlitch (pin : Nat)
  /-- PIN_CHATTER (R689): CHAT_N edges within CHAT_WIN hold the pin's last stable level. -/
  | pinChatter (pin : Nat)
  /-- CHATTER_CLEAR (R689): A full window without edges clears CHATTER. -/
  | chatterClear (pin : Nat) (level : Bool)
  /-- PIN_STUCK (R689): A pin asserted beyond its stuck timeout sets STUCK. -/
  | pinStuck (pin : Nat)
  /-- CAGE_INSERT (R699): Cage presence holds for the filter time and cage power turns on. -/
  | cageInsert (cage : Nat)
  /-- CAGE_REMOVE (R699): Cage presence drops and power turns off within 1 ms. -/
  | cageRemove (cage : Nat)
  /-- RESET_N_ASSERT (R667): RESET_N low puts the module into module reset. -/
  | resetNAssert
  /-- RESET_N_RELEASE (R667): RESET_N release starts the start-up order from time 0. -/
  | resetNRelease
  /-- MODULE_RESET (R666): PWR.RESET.MODULE resets the whole module. -/
  | moduleReset
  /-- FABRIC_RESET (R666): PWR.RESET.FABRIC resets dies, tiers and ports and unloads jobs. -/
  | fabricReset
  /-- PERST_RELEASE (R669): PERST# release starts endpoint readiness within 100 ms. -/
  | perstRelease (k : Nat)
  /-- FEED_LOSS (R643): One feed falls and the OR-ing hands load to the other. -/
  | feedLoss (feed dv : Nat)
  /-- SUPPLY_COLLAPSE (R644): Both feeds fall below 300 V and the logic fails without warning. -/
  | supplyCollapse
  /-- CONVERTER_RESTART (R644): A feed rises above 295 V and the module starts cold. -/
  | converterRestart
  /-- CAP_TICK (R651): Each millisecond the Mason raises or lowers one die's trim level against the cap. -/
  | capTick (w : Nat)
  /-- TRIM_CHANGE (R649): A die's clock divider and CORE voltage follow a new trim level. -/
  | trimChange (die : Nat)
  /-- THERMAL_SAMPLE (R659): Every 100 µs die sensors are sampled against warning and critical points. -/
  | thermalSample (die temp sensor : Nat)
  /-- THERMAL_TRIM_TICK (R659): Every 10 ms above warning, or 100 ms below, the thermal level moves by one. -/
  | thermalTrimTick (die : Nat)
  /-- THERM_TRIP (R661): A die reaches 115 °C; hardware switches off rails and holds dies in reset. -/
  | thermTrip (die : Nat)
  /-- CURE_REQUEST (R654): PWR.STATE_CTRL.CURE enters Curing or is refused. -/
  | cureRequest
  /-- WAKE_N_EDGE (R656): A filtered WAKE_N falling edge wakes the module from Curing. -/
  | wakeNEdge
  /-- WAKE_FRAME (R656): A matching wake frame on a kept-up port wakes the module. -/
  | wakeFrame (die lport : Nat) (frame : List Byte)
  /-- HOST_WAKE (R656): PWR.STATE_CTRL.WAKE wakes the module. -/
  | hostWake
  /-- TIMER_WAKE (R656): The time base reaches WAKE_TIME and wakes the module. -/
  | timerWake
  /-- FCLK_PLL_UNLOCK (R665): A die's fclk PLL loses lock; the die is held and degraded. -/
  | fclkPllUnlock (die : Nat)
  /-- MEMCLK_PLL_UNLOCK (R665): A memory controller PLL loses lock; its frames answer POISON. -/
  | memclkPllUnlock (die : Nat) (ctl : Ctl)
  /-- MCLK_PLL_UNLOCK (R665): The mclk PLL loses lock; the Mason restarts on relock. -/
  | mclkPllUnlock
  /-- TCLK_PLL_UNLOCK (R665): The tclk PLL loses lock; the time base runs on the reference in holdover. -/
  | tclkPllUnlock
  /-- TCLK_RELOCK (R665): tclk relocks and the time base returns without a step. -/
  | tclkRelock
  /-- PCLK_PLL_UNLOCK (R665): A pclk PLL loses lock and that endpoint's link goes down. -/
  | pclkPllUnlock (k : Nat)
  /-- FUSE_ADVANCE (R692): FUS.CMD.ADVANCE blows anti-rollback fuses up to TO. -/
  | fuseAdvance (w : Writer) (target : Nat)
  /-- FUSE_STEP (R692): Every 2 ms one fuse step is blown until the advance completes. -/
  | fuseStep
  /-- FUSE_REVOKE (R692): FUS.CMD.REVOKE revokes a key slot. -/
  | fuseRevoke (w : Writer) (slot : Nat)
  /-- REGISTER_READ (R15): A register read returns its field values, clears RC fields, latches the HI half of a LO/HI
      pair, and records ERR_ACCESS for a bad size or address. -/
  | registerRead (w : Writer) (bar2 : Bool) (addr size : Nat)
  /-- FRAME_TRANSMIT (R528): The frame at the head of a logical port's transmit queue is serialised and leaves the queue,
      freeing a place. -/
  | frameTransmit (die lport : Nat)
  /-- TIER_TRAINING_DONE (R668): T1 and T2 of every die finish training and the Mason sets MAS.STATE.MODE to 1. -/
  | tierTrainingDone
  /-- PCIE_LINK_UP (R575): An endpoint's data link comes up, or its Bus Master Enable is set, setting PCI.LINK.CHG and
      making it eligible as the Mason's home. -/
  | pcieLinkUp (k : Nat) (bme : Bool) (speed width : Nat)
  /-- PCIE_CONFIG_REQUEST (R669): A PCIe configuration request is answered with Retry Status until the endpoint is ready,
      and is completed after that. -/
  | pcieConfigRequest (k dw : Nat)
  /-- MCLK_RELOCK (R665): The mclk PLL regains lock and the Mason restarts under R47. -/
  | mclkRelock
  /-- FEED_RETURN (R643): A feed that was removed or low returns within range and the OR-ing again shares the load,
      clearing ALERT_SRC.FEED. -/
  | feedReturn (feed dv : Nat)
  /-- WAKE_N_RELEASE (R656): WAKE_N returns high after its filter and the wake input re-arms. -/
  | wakeNRelease
  /-- SLEW_COMPLETE (R536): An ADJ slew has been fully applied and STATUS.SLEWING clears. -/
  | slewComplete
  /-- TRIP_HOLD_EXPIRY (R661): Ten seconds after a thermal trip, THM.STATUS.HOLD clears and a module reset may act again. -/
  | tripHoldExpiry
  /-- SMB_CLOCK_LOW_TIMEOUT (R696): SMB_CLK held low beyond the 25 to 35 ms timeout makes the SMBus target abandon the
      transaction and release the bus. -/
  | smbClockLowTimeout
  deriving DecidableEq, Repr

end Sys2Proof
end

