-- ==== Sys2Proof/Decode.lean ====
section
/-! DEFINITION. What a word of the command table spells. The table gives its rows no bits, so no word spells a command:
the module takes events and register accesses, not instruction words (the Joiner's own encodings are in
Machine/Encoding.lean). -/

namespace Sys2Proof

/-- The command a table word spells: none, since no row of the table gives bits. -/
def decodeTableWord (_nbits _w : Nat) : Option Instr := none

end Sys2Proof
end

