-- ==== Sys2Proof/Machine/State.lean ====
section
/-! DEFINITION. The machine's state: every piece of state the spec names, as plain data, and the state after reset.

Registers of a page that are plain words live in `State.regs`, by page and offset, and an unlisted one holds its reset
value (Machine/Registers.lean gives it); registers that show structured state (pegs, windows, endpoints, the Joiner,
queues, engines) are computed from the structures below, so each fact has one home. -/

namespace Sys2Proof.Machine

/-- A sparse table: one entry a key, an unlisted key standing for the owner's default. -/
abbrev Table (κ α : Type) := List (κ × α)

/-- A byte-addressed memory in canonical form: addresses strictly rising, no entry equal to the 0 that an unlisted
address reads as. -/
abbrev Mem := List Host.Cell

/-- The words of one register page that differ from their reset value, by offset. -/
abbrev RegFile := Table Nat Word

/-! ### The ashlar -/

/-- A range of physical scratchpad words. -/
structure PRange where
  start : Nat
  len : Nat
  deriving DecidableEq, Repr

/-- What a started send instruction waits for (R329, R340, R349). -/
inductive SendWait where
  | none
  | connReply
  | connRetry
  | grant
  | granted (ctx : BitVec 6)
  | grantRetry
  deriving DecidableEq, Repr

/-- Where an instruction stands between its transfer and its completion (R56, R60, R62, R66). -/
inductive Phase where
  | transferred
  | ready
  | running
  | executed
  | readsRetired
  deriving DecidableEq, Repr

/-- One engine instruction in flight: its queue entry and its scoreboard entry (R54, R57, R64). -/
structure EngInstr where
  engine : Engine
  seq : BitVec 5
  /-- its place in issue order (R54) -/
  order : Nat
  /-- the words as transferred, replaced words included (R112) -/
  words : List Word
  /-- index of the ISSUE (R114) -/
  pc : BitVec 11
  phase : Phase
  faulted : Bool
  /-- the read ranges on the scoreboard -/
  reads : List PRange
  /-- the write range on the scoreboard -/
  write : Option PRange
  /-- ring tail or head sampled at the start, for RANGE_A, RANGE_B and RANGE_W (R270) -/
  slotA : Nat
  slotB : Nat
  slotW : Nat
  /-- its slots have been popped (R271) -/
  popped : Bool
  /-- flits, tuples or packets already sent -/
  sent : Nat
  wait : SendWait
  /-- its 0b10 signals have been applied in its first execution cycle (R62) -/
  early : Bool
  deriving DecidableEq, Repr

/-- One engine: its queue, oldest first, and its FAULTED bit (R53, R78). -/
structure EngineState where
  queue : List EngInstr
  faulted : Bool
  deriving DecidableEq, Repr

/-- One level of the loop stack (R115). -/
structure LoopLevel where
  lstart : BitVec 11
  lend : BitVec 11
  lcnt : Word
  lidx : Word
  tile : Bool
  ltlog2 : BitVec 5
  lrem : Word
  deriving DecidableEq, Repr

/-- STATE of ASH.JSTATUS, frozen apart: a Joiner held by FREEZE keeps its own state here (R142). -/
inductive JState where
  | halted | running | stalled | ended | faulted
  deriving DecidableEq, Repr

/-- The Joiner (R97, R99, R140 to R145). -/
structure Joiner where
  regs : Vector Word 32
  pc : BitVec 11
  dmem : Mem
  bank0 : Mem
  bank1 : Mem
  active : Bool
  armed : Bool
  loops : Vector LoopLevel 4
  depth : Nat
  al : Vector Word 4
  pending : Word
  epc : BitVec 11
  tcause : Byte
  tval : Word
  handler : Bool
  hscratch : Word
  /-- JTRAP_CAUSE.CAUSE, .DOUBLE and JTRAP_VAL: the most recent trap (R136, R143) -/
  lastCause : Byte
  double : Bool
  lastVal : Word
  bayX : BitVec 9
  bayY : Byte
  state : JState
  /-- JSTATUS.STALL (R142) -/
  stall : BitVec 4
  /-- one instruction is to be executed, then halt (JCTRL.STEP, R141) -/
  step : Bool
  /-- JCTRL.HALT is to be taken at the next boundary (R141) -/
  haltReq : Bool
  autorun : Bool
  handlerEn : Bool
  entry : BitVec 11
  hentry : BitVec 11
  bkpt0 : BitVec 11
  bkpt0En : Bool
  bkpt1 : BitVec 11
  bkpt1En : Bool
  /-- TEND has retired and the task boundary has not been taken yet (R128, R129) -/
  taskEnd : Bool
  /-- a breakpoint has halted here and the next fetch of this index is not to halt again -/
  bkptPass : Bool
  /-- the posted message word not yet accepted (R125) -/
  msg : Option Word
  /-- traps held for the next instruction boundaries, oldest first: ISSUE_DECODE and FADD_NAK (R114, R134) -/
  held : List (Byte × Word)
  /-- fetch-and-adds awaiting a reply: register, peg, rs1 (R122) -/
  fadds : List (Reg × BitVec 6 × Dest × Word)
  /-- reduction results awaiting REDUCTION_WRITE (R247) -/
  results : List (Reg × Word)
  /-- instructions issued so far; modulo 32 it is the next issue sequence number (R54) -/
  issued : Nat
  deriving DecidableEq, Repr

/-- One peg with its dump entry (R365, R391, R392). -/
structure Peg where
  value : Half
  take : BitVec 5
  watch : BitVec 5
  src : Dest
  kind : BitVec 3
  sub : BitVec 3
  multi : Bool
  inc : Byte
  signalled : Bool
  wdog : Bool
  deferred : Half
  deriving DecidableEq, Repr

/-- One window: WINn_CFG, WINn_RING, WINn_REMOTE and the ring state of WINn_STATUS (R296 to R300, R359). -/
structure Window where
  base : BitVec 13
  size : BitVec 13
  cls : BitVec 2
  kind : BitVec 2
  remote : Bool
  valid : Bool
  /-- WINn_RING as stored: NSLOTS, SLOT_WORDS, POP, or EP and USED of a message ring -/
  ring : Word
  epoch : Byte
  isOpen : Bool
  stale : Half
  tail : BitVec 4
  occ : BitVec 5
  rsv : BitVec 5
  held : Bool
  rd : BitVec 13
  wr : BitVec 13
  used : BitVec 13
  recs : BitVec 5
  /-- the virtual channel each waiting record of a message ring came on (R314) -/
  vcs : List (BitVec 2)
  deriving DecidableEq, Repr

/-- One inbound endpoint: EPn_CFG, EPn_STATUS, EPn_PEER, EPn_STATS and its flits (R358). -/
structure Endpoint where
  valid : Bool
  ring : Bool
  dyn : Bool
  tlen : BitVec 2
  rwin : BitVec 4
  apeg : BitVec 6
  apegEn : Bool
  flits : List (BitVec 128)
  /-- the virtual channel each of its flits came on (R314) -/
  vcs : List (BitVec 2)
  overrun : Bool
  poison : Bool
  arrivals : Half
  peer : Dest
  pchan : BitVec 4
  peerValid : Bool
  /-- a disconnect has arrived; PEER_VALID clears once the endpoint is empty (R331) -/
  closing : Bool
  drops : Half
  poisoned : Half
  deriving DecidableEq, Repr

/-- One outbound channel entry of the ashlar's router (R327). -/
structure OutEntry where
  valid : Bool
  conn : Bool
  kind : BitVec 2
  vc : BitVec 2
  yx : Bool
  dyn : Bool
  stale : Bool
  tlen : BitVec 2
  ep : BitVec 3
  dest : Dest
  credit : Half
  win : BitVec 4
  epoch : Byte
  size : BitVec 13
  wr : BitVec 13
  deriving DecidableEq, Repr

/-- One request of a chunk: a run of consecutive words of its row within one line (R286, R401). -/
structure Piece where
  tag : BitVec 15
  /-- segment and byte offset in it (R399) -/
  seg : Nat
  off : Nat
  words : Nat
  /-- first word, counted from the row's first word -/
  first : Nat
  sent : Bool
  /-- what a store sends: the bits to write and the rest of each word left alone (R283) -/
  masks : List (Nat × Nat)
  deriving DecidableEq, Repr

/-- A chunk a load program has launched and not finished, or a store program has drained and not had acknowledged (R286,
R287): its number, its ring slot, its outstanding requests, the tensor words that have come back, whether its complete row has,
and whether a request of it has gone out. -/
structure Chunk where
  num : Nat
  slot : Nat
  pieces : List Piece
  got : List (Nat × Nat)
  full : Bool
  asked : Bool
  deriving DecidableEq, Repr

/-- One stream program slot (R279, R302). -/
structure Prog where
  running : Bool
  op : BitVec 3
  rwin : BitVec 4
  seq : BitVec 5
  faulted : Bool
  /-- chunks completed -/
  chunks : Nat
  /-- chunks launched, or drained -/
  launched : Nat
  inflight : List Chunk
  /-- the translation kept: segment and frame descriptor (R403) -/
  xlat : Option (Nat × Word)
  /-- a lookup is outstanding: its segment and tag -/
  looking : Option (Nat × BitVec 15)
  nextTag : Nat
  /-- its unscaled conversions have counted a saturation, or a NaN, already (R215) -/
  sat : Bool
  nan : Bool
  deriving DecidableEq, Repr

/-- A stationary-weight tile: whether it is valid, its W_FMT, W_BLK and pair mode, its tag, its words, and the bytes
whose stored parity is wrong (R157 to R160, R617). -/
structure Tile where
  valid : Bool
  wfmt : BitVec 4
  wblk : BitVec 2
  pair : Bool
  tag : Half
  /-- element codes by column then position, and scale bytes -/
  codes : List Nat
  scales : List Nat
  badParity : List Nat
  deriving DecidableEq, Repr

/-- One waiter's peg watchdog (R386). -/
structure Watchdog where
  count : Word
  raised : Bool
  deriving DecidableEq, Repr

/-- One finished Plumb sample: the bins of the written columns (R218, R219). -/
abbrev PlumbSample := List Nat

/-- The six counters of R215, in its order. -/
inductive SatCounter where
  | mx | ld | st | vx | nan | sclamp
  deriving DecidableEq, Repr

/-- The ashlar's copy of its Plumb slot configuration (R217, R225). -/
structure SlotCopy where
  slot : Nat
  plumbEn : Bool
  rateLog2 : Nat
  deriving DecidableEq, Repr

/-- A scratchpad word corrected on a read and waiting to be written back (R262). -/
structure WriteBack where
  word : Nat
  data : BitVec 72
  deriving DecidableEq, Repr

/-- A run that a configuration port is reading (R605): its order's requester and tag, its place in T1, its CRC-32 and kind. -/
structure PortLoad where
  order : Packet
  tag : BitVec 7
  fd : Word
  off : Nat
  words : Nat
  crc : Word
  context : Bool
  /-- lines asked for so far, the requests not answered with their lines, and the lines that have come -/
  asked : Nat
  out : List (BitVec 15 × Nat)
  got : List (Nat × List DWord)
  /-- payload words of the run's frames that have been applied -/
  applied : Nat
  deriving DecidableEq, Repr

/-- One ashlar (R49) with its router (R327, R361). -/
structure Ashlar where
  joiner : Joiner
  engines : Vector EngineState 4
  /-- an instruction transferred and not yet decoded (R56) -/
  transfer : Option EngInstr
  pegs : Vector Peg 48
  watchdogs : Vector Watchdog 5
  /-- waiters that a cycle has started, their takes made, and whose own command is still to come: 0 to 3 an engine, 4 the
  Joiner (R376) -/
  won : List Nat
  /-- fetch-and-adds taken while frozen (R383) -/
  faddQueue : List Packet
  windows : Vector Window 16
  endpoints : Vector Endpoint 8
  /-- 6,144 words of nine bytes each, byte 8 the check bits (R255) -/
  spad : Mem
  progs : Vector Prog 4
  srSeed : DWord
  scrubNext : BitVec 13
  scrubPasses : Half
  writeBacks : List WriteBack
  active : Tile
  shadow : Tile
  /-- the instruction the shadow tile was preloaded for (R161) -/
  shadowFor : Option (BitVec 5)
  masks : Vector (BitVec 4096) 4
  /-- ASH.CONTEXT (R89) -/
  job : Half
  clsT : Bool
  ctxValid : Bool
  /-- ASH.CTRL.FREEZE (R75) -/
  frozen : Bool
  slot : SlotCopy
  plumbCount : Nat
  plumbDone : List PlumbSample
  plumbSkipped : Nat
  /-- counts on their way to the PLB (R216) -/
  satOut : List SatCounter
  /-- the router's outbound table (R327) -/
  out : Vector OutEntry 16
  sdBlock : Word
  sdCycles : Word
  sdRaised : Bool
  slips : Half
  /-- what its configuration port is loading, and the tag of the port's next request (R605) -/
  port : Option PortLoad
  portTag : BitVec 15
  deriving DecidableEq, Repr

/-! ### The ashlar after power-up (R76, R99, R365 and the reset columns of the ASH tables) -/

def LoopLevel.reset : LoopLevel := ⟨0, 0, 0, 0, false, 0, 0⟩

def Joiner.reset : Joiner where
  regs := Vector.replicate 32 0
  pc := 0
  dmem := []
  bank0 := []
  bank1 := []
  active := false
  armed := false
  loops := Vector.replicate 4 LoopLevel.reset
  depth := 0
  al := Vector.replicate 4 0
  pending := 0
  epc := 0
  tcause := 0
  tval := 0
  handler := false
  hscratch := 0
  lastCause := 0
  double := false
  lastVal := 0
  bayX := 0
  bayY := 0
  state := .halted
  stall := 0
  step := false
  haltReq := false
  autorun := false
  handlerEn := false
  entry := 0
  hentry := 0
  bkpt0 := 0
  bkpt0En := false
  bkpt1 := 0
  bkpt1En := false
  taskEnd := false
  bkptPass := false
  msg := none
  held := []
  fadds := []
  results := []
  issued := 0

def Peg.reset : Peg := ⟨0, 0, 0, 0, 0, 0, false, 0, false, false, 0⟩

def Window.reset : Window where
  base := 0
  size := 0
  cls := 0
  kind := 0
  remote := false
  valid := false
  ring := 0
  epoch := 0
  isOpen := false
  stale := 0
  tail := 0
  occ := 0
  rsv := 0
  held := false
  rd := 0
  wr := 0
  used := 0
  recs := 0
  vcs := []

def Endpoint.reset : Endpoint where
  valid := false
  ring := false
  dyn := false
  tlen := 0
  rwin := 0
  apeg := 0
  apegEn := false
  flits := []
  vcs := []
  overrun := false
  poison := false
  arrivals := 0
  peer := 0
  pchan := 0
  peerValid := false
  closing := false
  drops := 0
  poisoned := 0

def OutEntry.reset : OutEntry := ⟨false, false, 0, 0, false, false, false, 0, 0, 0, 0, 0, 0, 0, 0⟩

def Prog.reset : Prog := ⟨false, 0, 0, 0, false, 0, 0, [], none, none, 0, false, false⟩

def Tile.reset : Tile := ⟨false, 0, 0, false, 0, [], [], []⟩

def Ashlar.reset : Ashlar where
  joiner := Joiner.reset
  engines := Vector.replicate 4 ⟨[], false⟩
  transfer := none
  pegs := Vector.replicate 48 Peg.reset
  watchdogs := Vector.replicate 5 ⟨0, false⟩
  won := []
  faddQueue := []
  windows := Vector.replicate 16 Window.reset
  endpoints := Vector.replicate 8 Endpoint.reset
  spad := []
  progs := Vector.replicate 4 Prog.reset
  srSeed := 0
  scrubNext := 0
  scrubPasses := 0
  writeBacks := []
  active := Tile.reset
  shadow := Tile.reset
  shadowFor := none
  masks := Vector.replicate 4 0
  job := 0
  clsT := false
  ctxValid := false
  frozen := false
  slot := ⟨32, false, 12⟩
  plumbCount := 0
  plumbDone := []
  plumbSkipped := 0
  satOut := []
  out := Vector.replicate 16 OutEntry.reset
  sdBlock := 0
  sdCycles := 0
  sdRaised := false
  slips := 0
  port := none
  portTag := 0

/-! ### The die's shared blocks -/

/-- One Keystone reduction context (R176): the request rank 0 carried, its sender and virtual channel, the next rank to
be accepted, whether that rank is granted and how many of its elements have come, and the running sums. -/
structure KeyCtx where
  used : Bool
  req : KeyReq
  src0 : Dest
  vc : BitVec 2
  next : Nat
  granted : Bool
  got : Nat
  sums : List Word
  /-- released, and not to be reused before CTX_CMD.BUSY clears (R187) -/
  releasing : Bool
  deriving DecidableEq, Repr

/-- The Keystone of a die (R175, R176): its contexts, the admission FIFO, and the requests of higher ranks that wait. -/
structure Keystone where
  ctxs : Vector KeyCtx 64
  fifo : List Packet
  waiting : List Packet
  deriving DecidableEq, Repr

/-- One sentinel slot of the PLB (R216 to R228). The live and snapshot values are the 24 of R223, in its order:
16 bins, SAT_MX, SAT_LD, SAT_ST, SAT_VX, NAN, SCLAMP, SAMPLES, SKIPPED. -/
structure PlumbSlot where
  bay : Word
  plumbEn : Bool
  rateLog2 : BitVec 5
  alarmBin : BitVec 4
  alarmCount : Half
  satLog2 : BitVec 5
  satEn : Bool
  alarm : Bool
  satFlag : Bool
  busy : Bool
  live : Vector Word 24
  snap : Vector Word 24
  alarmLive : Nat
  satSum : Nat
  /-- a rectangle being replaced, until every ashlar has acknowledged (R225) -/
  oldBay : Word
  deriving DecidableEq, Repr

/-! ### Memory tiers, the Hod and the Planes -/

/-- What a frame is used for: nothing, the Mason's own structures, a segment of a tensor, the destination of a running
migration, or released and waiting for the reuse delay (R402, R417, R419, R424). -/
inductive FrameUse where
  | free
  | reserved
  | seg (job : Half) (handle : BitVec 20) (seg : Nat)
  | dest
  | cooling
  deriving DecidableEq, Repr

/-- One frame of a tier: its generation, its access counters (one for each of two stacks; the first alone elsewhere), its
use, and while it migrates the lines written since they were last copied (R415, R419, R424). -/
structure Frame where
  gen : Byte
  heat0 : Byte
  heat1 : Byte
  use : FrameUse
  migrating : Bool
  dirty : List Nat
  deriving DecidableEq, Repr

/-- The states of a T3 socket (R426). -/
inductive Svc where
  | absent | present | training | init | online | evacuating | empty | safe | rejected | lost
  deriving DecidableEq, Repr

/-- A T3 socket (R426, R432); SPD_INFO is shown once the SPD has been read. -/
structure Socket where
  svc : Svc
  reason : BitVec 4
  presence : Bool
  power : Bool
  indicator : Bool
  dimm : Option Dimm
  spdRead : Bool
  /-- a DIMM was lost: requests to its frames are poisoned until another one is ready (R429) -/
  gone : Bool
  deriving DecidableEq, Repr

/-- A running migration (R419): frame descriptors of its ends, and whether HOD.CMD ordered it. -/
structure Migration where
  src : Word
  dst : Word
  cmd : Bool
  deriving DecidableEq, Repr

/-- A move that HOD.CMD.GO has ordered: the frame, the segment it holds, the tier, and the die unless any may be taken
(R434). -/
structure HodOrder where
  src : Word
  use : FrameUse
  tier : Nat
  die : Option Nat
  deriving DecidableEq, Repr

/-- The Hod of a die: its map cache, newest last, its candidates, the migrations it runs (R404, R417, R418). -/
structure Hod where
  cache : List ((Half × BitVec 20 × Nat) × Word)
  promo : List (Nat × Nat)
  demo : List (Nat × Nat)
  moves : List Migration
  /-- the move that HOD.CMD.GO has ordered and that has not started -/
  order : Option HodOrder
  deriving DecidableEq, Repr

/-- One sweep descriptor: DESC0 to DESC9 and its trigger count (R446, R463, R464). -/
structure PlaneDesc where
  regs : Vector Word 10
  tcount : Half
  deriving DecidableEq, Repr

/-- A work item handed out and not answered: its tag, the Plane it is at, its segment (R448). -/
structure PlaneOut where
  tag : BitVec 15
  target : Dest
  fd : Word
  seg : Nat
  deriving DecidableEq, Repr

/-- The dispatch a Plane runs (R448): the descriptor, the pass, the next segment to consider, the segments sent in the
first pass, the items outstanding, and whether an item has stopped it (R451). -/
structure Dispatch where
  desc : Nat
  second : Bool
  next : Nat
  sent : List Nat
  outstanding : List PlaneOut
  /-- items answered MOVED and waiting for room at their new Plane: segment and offset -/
  again : List (Nat × Nat)
  nextTag : Nat
  stopped : Bool
  deriving DecidableEq, Repr

/-- One Plane (R446 to R450). -/
structure Plane where
  descs : Vector PlaneDesc 64
  queue : List Nat
  disp : Option Dispatch
  items : List Packet
  deriving DecidableEq, Repr

/-! ### Event ports -/

/-- An event in a group's queue: its slot, sequence number, arrival stamp, fields F0 to F15, and the route entries that
have taken it (R515 to R519). -/
structure Event where
  slot : Half
  seq : Word
  stamp : DWord
  fields : List Word
  taken : List Nat
  deriving DecidableEq, Repr

/-- One entry of the lookup table (R513): the 16 key bytes, byte 0 in [7:0]. -/
structure LkEntry where
  key : BitVec 128
  slot : Half
  group : BitVec 3
  deriving DecidableEq, Repr

/-- One route entry of ingress (R518). -/
structure IngRoute where
  entry : OutEntry
  attach : BitVec 3
  group : BitVec 3
  member : BitVec 2
  live : Bool
  deriving DecidableEq, Repr

/-- One event group of ingress (R519, R543). -/
structure IngGroup where
  en : Bool
  nflit : BitVec 2
  queue : List Event
  ovf : Bool
  /-- SEQ of the last event that a member took: the Mason waits for it (R489, R654) -/
  delivered : Option Word
  deriving DecidableEq, Repr

/-- A capture record: its 16 words, and once it has left, its number and the tag of its write (R521). -/
structure Capture where
  num : Nat
  tag : BitVec 15
  words : List DWord
  deriving DecidableEq, Repr

/-- The ingress of a die (R507 to R522, R543). Counters hold LO and HI as R91 lays them out. -/
structure Ing where
  prog : Table Nat Word
  fmin : Table Nat Word
  fmax : Table Nat Word
  table : List LkEntry
  routes : Vector IngRoute 16
  groups : Vector IngGroup 8
  seq : Word
  counts : Table Nat Nat
  capFree : Nat
  capDrops : Nat
  capNext : Nat
  /-- records waiting for the Mortar, at most 64 -/
  capWait : List (List DWord)
  /-- records sent and not acknowledged -/
  capOut : List Capture
  deriving DecidableEq, Repr

/-- A management frame that waits to be sent (R529). -/
structure MgmtFrame where
  lport : Nat
  bytes : List Byte
  tsreq : Bool
  deriving DecidableEq, Repr

/-- The Ethernet port of a die: its punt buffer, management buffer, transmit queues and counters (R523, R528, R529,
R542). -/
structure Eth where
  punts : List (List Byte)
  mtx : Table Nat Word
  mgmt : Option MgmtFrame
  tx : Vector (List (List Byte)) 4
  counts : Table (Nat × Nat) Nat
  /-- RX_IDLE has been raised and no frame has come since (R506) -/
  idle : Vector Bool 4
  deriving DecidableEq, Repr

/-- One input of egress (R524). -/
structure EgrIn where
  valid : Bool
  group : BitVec 3
  member : BitVec 2
  version : Half
  peer : Dest
  pchan : BitVec 4
  peerValid : Bool
  /-- flits not yet taken, with their virtual channels -/
  flits : List (BitVec 128 × BitVec 2)
  deriving DecidableEq, Repr

/-- A result taken by egress: its member, its input, its words (R525). -/
structure EgrResult where
  member : BitVec 2
  input : Nat
  words : List Word
  deriving DecidableEq, Repr

/-- Where an event of a group stands at egress: waiting for results, released by a vote with a member still to come, or
ended (R530 to R533). -/
inductive EgrPhase where
  | waiting | voted | ended
  deriving DecidableEq, Repr

/-- An event of a group at egress: the mode it is judged under and the results that have come (R531). -/
structure EgrEvent where
  seq : Word
  mode : BitVec 2
  solo : BitVec 2
  phase : EgrPhase
  got : List EgrResult
  deriving DecidableEq, Repr

/-- One group of egress (R530 to R534, R544): GRP_MODE as written, the mode in force, and the events judged, oldest
first. -/
structure EgrGroup where
  written : Word
  mode : BitVec 2
  solo : BitVec 2
  pending : Bool
  swseq : Word
  /-- the mode in force has met no event yet, whose SEQ will be GRP_SWSEQ (R531) -/
  latch : Bool
  last : Word
  events : List EgrEvent
  deriving DecidableEq, Repr

/-- The egress of a die (R524 to R535, R544). -/
structure Egr where
  ins : Vector EgrIn 8
  groups : Vector EgrGroup 8
  d0 : Table Nat Word
  d1 : Table Nat Word
  patches : Table (Nat × Nat) Word
  /-- the template store, 16 KiB (R526) -/
  store : Mem
  counts : Table Nat Nat
  deriving DecidableEq, Repr

/-! ### Jeham ports and PCIe endpoints -/

/-- A tunnel of a Jeham port (R557 to R559, R578): a channel tunnel also has its flits and its local peer. -/
structure Tunnel where
  valid : Bool
  lepoch : Byte
  rcredit : Nat
  job : Half
  rdest : Dest
  ridx : BitVec 6
  repoch : Byte
  size : BitVec 13
  rjob : Half
  flits : List (BitVec 128 × BitVec 2)
  peer : Dest
  pchan : BitVec 4
  peerValid : Bool
  deriving DecidableEq, Repr

/-- A Jeham port (R550 to R560). Its link state is JHL.STATE. -/
structure Jhl where
  tunnels : Table (Nat × Nat) Tunnel
  /-- next SEQ to send, and the SEQ expected -/
  txSeq : BitVec 12
  rxSeq : BitVec 12
  /-- frames not acknowledged, oldest first -/
  replay : List JFrame
  /-- NAK is to be set in the next frame; it has been set since a frame was accepted -/
  nakDue : Bool
  nakSent : Bool
  /-- consecutive replays without ACK advancing -/
  barren : Nat
  /-- credits held, by VC and lane as in CREDIT; credits owed to the peer -/
  credits : List Nat
  owed : List Nat
  /-- units waiting to be sent -/
  held : List JUnit
  /-- LM values waiting to be sent -/
  lms : List (BitVec 4)
  /-- CRETs and segments received and not yet acted on -/
  rx : List JUnit
  /-- JHL_PEER_LOST has been raised and no heartbeat has come since -/
  lost : Bool
  /-- the port has been UP since it last left FAILED or reset -/
  wasUp : Bool
  /-- it has left keep-alive and retrains at full rate, staying UP (R566) -/
  retrains : Bool
  /-- what started a replay since the last frame came: a NAK (true) or the replay timeout (R567) -/
  replayed : Option Bool
  /-- when the last retrain ended (R567) -/
  trainedAt : Option DWord
  deriving DecidableEq, Repr

/-- A reduction context (R561 to R563): RED_W0 to RED_W5 as written, its trigger count and its round. -/
structure RedCtx where
  regs : Vector Word 6
  tcount : Half
  running : Bool
  faulted : Bool
  done : Nat
  /-- next segment expected on its way up, and on its way down -/
  nextUp : Nat
  nextDown : Nat
  deriving DecidableEq, Repr

/-- A DMA queue (R571, R572, R579). -/
structure DmaQueue where
  base : DWord
  cpl : DWord
  cfg : Word
  head : Half
  tail : Half
  cplIdx : Nat
  phase : Bool
  halted : Bool
  status : Byte
  deriving DecidableEq, Repr

/-- An access to the tier aperture (R570). -/
inductive ApAccess where
  | read (addr len : Nat)
  | write (addr : Nat) (data : List Byte)
  deriving DecidableEq, Repr

/-- A PCIe endpoint (R568 to R579). -/
structure Pci where
  /-- PERST# has been released, and the endpoint answers configuration requests (R669) -/
  ready : Bool
  queues : Vector DmaQueue 16
  /-- the MSI-X table's words that differ from reset, by offset from 0x800, and the pending bits (R573) -/
  msix : Table Nat Word
  pba : DWord
  /-- aperture accesses that wait inside the endpoint, oldest first (R570) -/
  waiting : List ApAccess
  deriving DecidableEq, Repr

/-- An aperture entry (R570, R579). -/
structure ApEntry where
  handle : BitVec 20
  valid : Bool
  writeEn : Bool
  job : Half
  seg : BitVec 19
  deriving DecidableEq, Repr

/-- Whether a die's fabric has not been started yet, runs, or is held: by a lost fabric clock, a trip or a reset (R591,
R661, R665). -/
inductive DieRun where
  | idle | running | held
  deriving DecidableEq, Repr

/-- What a tier controller holds of its scheduling (R413): the requests of both classes accepted and not yet served, in the
order of acceptance, each with the slots it has still to be given; the place in the window of 16 slots, the slots class S
has used in it, and the source served last. -/
structure TierQueue where
  reqs : List (Packet × Nat)
  slot : Nat
  sUsed : Nat
  turn : Dest
  deriving DecidableEq, Repr

/-- One edge of a die: flits its lintel has received since LATENCY, and since ERRS, was last read (R364). -/
structure Edge where
  crossed : Nat
  checked : Nat
  deriving DecidableEq, Repr

/-- The blocks of one die. -/
structure Die where
  run : DieRun
  /-- flits its links have carried since LINK_ERRS was last read (R353) -/
  linkFlits : Nat
  /-- its four edges: N, E, S, W (R364) -/
  edges : Vector Edge 4
  key : Keystone
  plb : Vector PlumbSlot 33
  /-- the fences in force at every router, in the layout of PLB.SLOT_BAY (R354, R363) -/
  fences : Vector Word 16
  /-- the words of T1, T2 and T3, nine bytes each, byte 8 the check bits, by frame · 2^18 + word (R400, R409) -/
  tiers : Vector Mem 3
  /-- the frames that differ from reset, by tier and index -/
  frames : Table (Nat × Nat) Frame
  hod : Hod
  socket : Socket
  planes : Vector Plane 4
  /-- the input queues of its tier controllers (R413) -/
  queues : Vector TierQueue 4
  /-- the patrol scrubber's next word of each controller, in device order (R412) -/
  patrol : Vector Nat 4
  eth : Eth
  ing : Ing
  egr : Egr
  jhl : Vector Jhl 2
  red : Vector RedCtx 16
  /-- controllers stopped by a lost clock (R665) -/
  stopped : List Ctl
  /-- the die has released its done output (R591) -/
  doneOut : Bool
  /-- the time base when the router access under way was started (R363, R633) -/
  raccAt : Option DWord
  /-- what its die section held beside register writes: the firmware of its configuration block, the SerDes tables (R591) -/
  conf : List Byte
  deriving DecidableEq, Repr

/-! ### What leaves the module -/

/-- What the module has sent outside: host memory writes, answers to accesses, frames, Jeham frames, pin levels. -/
inductive Output where
  | readData (v : Word)
  /-- a frame sent on a logical port, its FCS included (R528, R529) -/
  | frame (die lport : Nat) (bytes : List Byte)
  /-- a frame sent on a Jeham link (R550) -/
  | jeham (die port : Nat) (f : JFrame)
  /-- what a port sends in training: its module's serial number, its port number and its expected SEQ (R554) -/
  | jehamTraining (die port : Nat) (serial : DWord) (number : Nat) (expected : BitVec 12)
  /-- an entry of the Mason's completion queue (R497), written through an endpoint -/
  | completion (k : Nat) (tag : Word) (status reason event result : Nat) (phase : Bool)
  /-- an entry of the Mason's event queue (R498) -/
  | event (k : Nat) (code job : Half) (src : Nat) (coalesced phase : Bool) (time : DWord)
  /-- an MSI-X vector signalled (R573) -/
  | msix (k vector : Nat)
  /-- a DMA completion entry (R572) -/
  | dmaCompletion (k q index status : Nat) (phase : Bool) (bytes : Nat)
  /-- data a DMA queue writes to host memory (R571) -/
  | hostWrite (k : Nat) (addr : DWord) (data : List DWord)
  /-- the answer to an aperture read: its bytes and whether the completion carries the EP bit (R570) -/
  | aperture (k : Nat) (data : List Byte) (poison : Bool)
  /-- a completion with Unsupported Request (R570) -/
  | unsupported (k : Nat)
  /-- Configuration Request Retry Status, or a configuration completion (R669) -/
  | configRetry (k : Nat)
  | configData (k : Nat) (v : Word)
  /-- the four bytes of an SMBus block read (R690) -/
  | smbus (v : Word)
  /-- what the test port shifts out (R697) -/
  | jtag (v : Nat)
  /-- cage power switched on or off (R699) -/
  | cagePower (cage : Nat) (on : Bool)
  deriving DecidableEq, Repr

/-! ### The Mason -/

/-- An event or message on its way to the Mason (R492, R621). -/
structure Report where
  page : Page
  coord : Dest
  word : Word
  job : Half
  event : Bool
  /-- the time base when it was raised -/
  time : DWord
  /-- the word of the ashlar's stores that it concerns, where it concerns one (R633) -/
  addr : Nat
  deriving DecidableEq, Repr

/-- A run staged in T1 (R604): the die whose frames hold it, its place and its CRC. -/
structure Staged where
  die : Nat
  xr : Nat
  yr : Nat
  fd : Word
  off : Nat
  len : Nat
  crc : Word
  deriving DecidableEq, Repr

/-- A context record in T1 (R486): the member's ashlar it was saved from, relative to the origin, and its place. -/
structure Saved where
  bay : Nat
  member : Nat
  xr : Nat
  yr : Nat
  fd : Word
  off : Nat
  deriving DecidableEq, Repr

/-- Where a member of a bay stands. -/
inductive MemberState where
  /-- it holds no rectangle -/
  | unplaced
  /-- its load waits or runs (R606, R610) -/
  | loading
  /-- loaded, its Joiners not started -/
  | loaded
  | serving
  /-- fenced by STOP_JOB (R496) -/
  | stopped
  /-- faulted, its recovery not begun (R623) -/
  | faulted
  /-- rebuilt, its resynchronisation not done (R629) -/
  | rebuilt
  /-- a load of it ended under R611 -/
  | failed
  deriving DecidableEq, Repr

/-- The rectangle that a member being moved still holds: die, origin and fence (R488). -/
structure OldPlace where
  die : Nat
  x : Nat
  y : Nat
  fence : Nat
  deriving DecidableEq, Repr

/-- A member of a placed bay: die, origin (local column and logical row), state, fence, and while its survivor is held
the value peg 46 is to pass (R629). -/
structure Member where
  die : Nat
  x : Nat
  y : Nat
  state : MemberState
  fence : Nat
  hold : Option Half
  fails : Nat
  /-- code of the event that faulted it -/
  cause : Half
  /-- it has had a place, whose Plumb slot it may hold (R225) -/
  had : Bool
  /-- when the fault it is to recover from was raised (R46, R606) -/
  faultAt : DWord
  /-- the serving member that has been asked to hold for it (R629) -/
  asked : Option Nat
  /-- the place it is moved from, with its fence, until its routes are rewritten (R488) -/
  old : Option OldPlace
  deriving DecidableEq, Repr

/-- A stream slot's state with its key (R489); INIT lasts no longer than the command that ends it. -/
inductive SlotState where
  | free
  | live (lport : Nat) (key : BitVec 128)
  /-- removed when the next SEQ was this -/
  | drain (seq : Word)
  deriving DecidableEq, Repr

/-- A bay of a job. -/
structure Bay where
  img : BayImage
  members : List Member
  version : Half
  slots : List SlotState
  staged : List Staged
  deriving DecidableEq, Repr

/-- The states of a job. -/
inductive JobState where
  | waiting | loading | loaded | running | preempting | preempted | stopped | faulted
  deriving DecidableEq, Repr

/-- A job (R466, R467, R478, R482). -/
structure Job where
  id : Half
  clsT : Bool
  prio : Nat
  state : JobState
  bays : List Bay
  /-- code of the event that faulted it, or 0 -/
  cause : Half
  /-- the command that waits for it: its tag and opcode -/
  wait : Option (Word × Half)
  /-- time at which it became ready, or last began to run -/
  since : DWord
  /-- it has been started, so that it runs again when it is placed -/
  started : Bool
  /-- the host asked for it to be kept off the ashlars -/
  kept : Bool
  /-- steps of R482 done, and ashlars whose save is not yet answered -/
  step : Nat
  saves : List Ash
  records : List Saved
  /-- the outbound entries of its ashlars as step 5 of R482 recorded them -/
  recorded : List (Ash × Vector OutEntry 16)
  /-- frames the Mason reserves for it -/
  frames : List Word
  planes : List Nat
  reds : List (Nat × Nat)
  hdr : ImgHeader
  /-- its rounding seed, fixed when it is created (R209, R285) -/
  seed : DWord
  deriving DecidableEq, Repr

/-- A bay load, waiting or running (R606, R610, R611). -/
structure LoadReq where
  die : Nat
  job : Half
  bay : Nat
  member : Nat
  recovery : Bool
  /-- a context restore under R487 -/
  restore : Bool
  active : Bool
  second : Bool
  /-- ashlars whose answer is awaited, and whether one has failed -/
  left : List Ash
  failed : Bool
  /-- the Keystone still releases contexts of the rectangle, so that no LOAD_ORDER has gone out (step 3 of R610) -/
  draining : Bool
  /-- the tag of its orders -/
  tag : BitVec 7
  /-- for a recovery, when its fault was raised -/
  faultAt : DWord
  deriving DecidableEq, Repr

/-- A Keystone context to be released when the bay concerned is frozen: its die and index, and the member (R187). -/
structure KeyHeld where
  die : Nat
  ctx : Nat
  job : Half
  bay : Nat
  member : Nat
  /-- its bay is frozen, and RELEASE is written as soon as KEY.CTX_CMD.BUSY reads 0 -/
  due : Bool
  deriving DecidableEq, Repr

/-- A publish in progress (R459, R460): its command where that is still open, the training job, the serving bay, and the
members still to be installed, in order. -/
structure Publish where
  tag : Option Word
  train : Half
  job : Half
  bay : Nat
  left : List Nat
  deriving DecidableEq, Repr

/-- A word in which an ashlar has found an error that it could not correct, and whether it has been rewritten since (R633). -/
structure BadWord where
  ash : Ash
  code : Nat
  place : Nat
  rewritten : Bool
  deriving DecidableEq, Repr

/-- The Mason (R466 to R501, R623 to R641). Its mode is MAS.STATE.MODE. -/
structure Mason where
  ready : Bool
  /-- the time base when it last became ready (R684) -/
  readyAt : DWord
  jobs : List Job
  /-- the inbox of each die (R492) -/
  inboxes : Vector (List Report) 8
  /-- ashlars whose bit is set in their die's summary bitmap (R493) -/
  summary : List Ash
  /-- indices and phases of the completion and event queues (R494) -/
  cplIdx : Nat
  cplPhase : Bool
  evIdx : Nat
  evPhase : Bool
  /-- events have been dropped since the event queue last had room (R498) -/
  dropped : Bool
  /-- the last entries written to the completion and event queues, and completions without room (R495, R575) -/
  cplKept : List Output
  evKept : List Output
  cplWait : List Output
  loads : List LoadReq
  /-- the tag of the last load's orders (R603) -/
  orderTag : BitVec 7
  publish : Option Publish
  /-- a LOAD_JOB held until the sockets have left INIT (R670) -/
  heldLoads : List (Word × JobImage)
  /-- for each ashlar probed, when its last probe found a cycle, and the cycle with the ARRIVALS of each member's endpoints (R357) -/
  probe : List (Ash × DWord × List (Ash × List Half))
  /-- when the event being handled was raised (R47) -/
  raisedAt : DWord
  /-- the autostart entries have been loaded since the fabrics started (R607) -/
  autostarted : Bool
  dumpSet : Nat
  dumpOff : Nat
  /-- targets of anti-rollback advances that wait for the fuses (R590) -/
  advances : List Nat
  /-- Keystone contexts named after a KEY_FAULT whose bay is not frozen yet (R187) -/
  keyHeld : List KeyHeld
  /-- words with uncorrectable errors, and the times of LINK_UE events at routers, by which rows are declared failed (R633) -/
  badWords : List BadWord
  linkUes : List (Ash × DWord)
  deriving DecidableEq, Repr

/-! ### The module's stores, supply and pins -/

/-- A copy of a table in flash: its sequence number, whether its CRC-32 matches, what it holds (R582). -/
structure FlashCopy (α : Type) where
  seq : Word
  crcOk : Bool
  data : α
  deriving DecidableEq, Repr

/-- What the persistent store holds (R580). -/
structure Persist where
  /-- the course map of each die, laid out as CFG.COURSE -/
  courses : Vector Word 8
  /-- the firmware slot the boot loader tries first (the boot record) -/
  bootSlot : Nat
  /-- the error log, whose entries the spec does not describe -/
  errorLog : List DWord
  deriving DecidableEq, Repr

/-- The flash devices and what they hold (R580 to R582, R613). -/
structure Flash where
  slotA : Option FabricImage
  cornerstone : FabricImage
  store : Vector (Option JobImage) 5
  /-- the copies of the autostart table: entries, enabled or not, each naming a slot of the image store -/
  autostart : Vector (FlashCopy (List (Bool × Nat))) 2
  firmware : Vector (Option FirmwareImage) 2
  /-- the copies of the persistent store -/
  persist : Vector (FlashCopy Persist) 2
  deriving DecidableEq, Repr

/-- The fuses (R589 to R592, R691): counter, key hashes, revoked slots, whether an image key is fused. -/
structure Fuses where
  rollback : Nat
  keys : Vector (Option (BitVec 384)) 4
  revoked : BitVec 4
  imgKey : Bool
  deriving DecidableEq, Repr

/-- What the Mason keeps through Curing (R654, R657): the modes of the groups it silenced, the class S ashlars it froze, the
jobs it pre-empted, the cages whose power it switched off; and WAKE_PORTS, WAKE_TYPE and WAKE_MAC as they stood at the
entry (R686). -/
structure Cured where
  modes : List (Nat × Nat × Word)
  frozen : List Ash
  jobs : List Half
  cages : List Nat
  ports : Word
  etherType : Half
  mac : DWord
  deriving DecidableEq, Repr

/-- The supply and the power logic (R643, R644, R651, R656, R667). -/
structure Supply where
  /-- both feeds are below the converters' limit: the module is Off -/
  off : Bool
  /-- RESET_N is low at its filtered level -/
  resetLow : Bool
  /-- the last ten samples of input power, newest last -/
  watts : List Nat
  /-- milliseconds for which the average has stayed below 95% of the cap -/
  below : Nat
  cured : Cured
  /-- the thermal readout's last reading of each die, in units of 0.25 °C (R659, R661) -/
  temps : Vector Nat 8
  /-- dies whose THERM_CRIT has been raised and that have not cooled 5 °C below it (R660) -/
  critRaised : BitVec 8
  /-- dies that crossed the critical point while the Mason was not ready: it acts once it is (R47, R659) -/
  critDue : BitVec 8
  /-- ten seconds have not passed since a trip (R661) -/
  tripTimer : Bool
  deriving DecidableEq, Repr

/-- The instruction in the IEEE 1149.1 port and its boundary register (R697). -/
inductive JtagInstr where
  | bypass | idcode | sample | extest
  deriving DecidableEq, Repr

structure Jtag where
  instr : JtagInstr
  boundary : Nat
  deriving DecidableEq, Repr

/-! ### The module -/

/-- The power states of R648. -/
inductive PowerState where
  | active | trim | curing
  deriving DecidableEq, Repr

/-- The whole machine. -/
structure State where
  /-- the ordering code of the part; never written (R1) -/
  part : Part
  /-- the plain registers that differ from reset, by page and offset -/
  regs : Table Page RegFile
  /-- the HI half latched by a read of LO, by page and offset of HI (R18) -/
  latch : Table (Page × Nat) Word
  /-- a LO half written and waiting for its HI half (R18) -/
  loHeld : Table (Page × Nat) Word
  ashlars : Table Ash Ashlar
  dies : Vector Die 8
  /-- the power state in force (R648) -/
  pstate : PowerState
  /-- the time base, TIM.TIME (R536) -/
  time : DWord
  /-- the fraction of a nanosecond that it carries (R536) -/
  timeFrac : BitVec 30
  /-- nanoseconds of an ADJ not yet applied (R536) -/
  slew : Int
  /-- nanoseconds since the last of it was applied (R536) -/
  slewAcc : Nat
  /-- PPS pulses since holdover began: whether a first one has come, and how many have met the period rule (R539) -/
  ppsFirst : Bool
  ppsGood : Nat
  mas : Mason
  pcis : Vector Pci 2
  /-- the aperture entries that differ from reset (R682) -/
  aperture : Table Nat ApEntry
  flash : Flash
  /-- header of the fabric image that configures, or has configured, the dies (R590, R591) -/
  image : Option ImgHeader
  /-- DONE_WAIT has been raised for this start (R594) -/
  doneWaited : Bool
  fuses : Fuses
  supply : Supply
  /-- the module's serial number (R684) -/
  serial : DWord
  /-- the SMBus target's BAR2 offset (R690) -/
  smbOffset : Word
  jtag : Jtag
  /-- cages whose power is on: 0 to 7 the Ethernet cages, 8 to 23 the Jeham cages (R699) -/
  cages : List Nat
  /-- packets in flight on the Mortar, oldest first -/
  net : List Packet
  /-- packets of ashlars inside a fence in force, waiting at their local ports (R355) -/
  portWait : List Packet
  /-- packets in flight that had passed the border of a fence when it applied (R355): the model's own field -/
  past : List Packet
  /-- reports raised and not yet in an inbox -/
  reports : List Report
  /-- events that ashlars raised while a report of theirs was outstanding, held in their pages (R493) -/
  heldEvents : List Report
  /-- what the module has answered or sent outside, oldest first: the model's own field -/
  out : List Output
  /-- index of the next free value: the model's own field -/
  freeIdx : Nat
  /-- the commands waiting, first in, first out -/
  pending : List Instr
  deriving DecidableEq, Repr

/-- Why the machine stops. -/
inductive Fault where
  /-- Raised by any command that names an ashlar, die, port, page or instance the part does not have: the spec says the
  block does not exist (R1, R22, R307), so no such event can occur on it. Safe: no hardware behaviour is left out. -/
  | noSuchBlock
  deriving DecidableEq, Repr

/-- Why a command has no meaning. -/
inductive Refusal where
  /-- Raised only by Machine/Dispatch.lean, for a command whose meaning is not written yet. Safe: the run stops. -/
  | notModelled (mnemonic : String)
  deriving DecidableEq, Repr

def KeyCtx.reset : KeyCtx where
  used := false
  req := ⟨0, 0, 0, 0, ⟨0, 0, false, 0, 0, 0⟩, 0, 0⟩
  src0 := 0
  vc := 0
  next := 0
  granted := false
  got := 0
  sums := []
  releasing := false

def Keystone.reset : Keystone := ⟨Vector.replicate 64 KeyCtx.reset, [], []⟩

def PlumbSlot.reset : PlumbSlot where
  bay := 0
  plumbEn := false
  rateLog2 := 12
  alarmBin := 10
  alarmCount := 0
  satLog2 := 16
  satEn := false
  alarm := false
  satFlag := false
  busy := false
  live := Vector.replicate 24 0
  snap := Vector.replicate 24 0
  alarmLive := 0
  satSum := 0
  oldBay := 0

def Frame.reset : Frame := ⟨0, 0, 0, .free, false, []⟩

def Socket.reset : Socket := ⟨.absent, 0, false, false, false, none, false, false⟩

def Hod.reset : Hod := ⟨[], [], [], [], none⟩

/-- THRESH and INC are 1 at reset (R463). -/
def PlaneDesc.reset : PlaneDesc := ⟨⟨#[0, 0, 0, 0, 0, 0x10000, 0x01000000, 0, 0, 0], rfl⟩, 0⟩

def Plane.reset : Plane := ⟨Vector.replicate 64 PlaneDesc.reset, [], none, []⟩

def Ing.reset : Ing where
  prog := []
  fmin := []
  fmax := []
  table := []
  routes := Vector.replicate 16 ⟨OutEntry.reset, 0, 0, 0, false⟩
  groups := Vector.replicate 8 ⟨false, 0, [], false, none⟩
  seq := 0
  counts := []
  capFree := 0
  capDrops := 0
  capNext := 0
  capWait := []
  capOut := []

def Eth.reset : Eth where
  punts := []
  mtx := []
  mgmt := none
  tx := Vector.replicate 4 []
  counts := []
  idle := Vector.replicate 4 false

def Egr.reset : Egr where
  ins := Vector.replicate 8 ⟨false, 0, 0, 0, 0, 0, false, []⟩
  groups := Vector.replicate 8 ⟨0, 0, 0, false, 0, false, 0, []⟩
  d0 := []
  d1 := []
  patches := []
  store := []
  counts := []

def Jhl.reset : Jhl where
  tunnels := []
  txSeq := 0
  rxSeq := 0
  replay := []
  nakDue := false
  nakSent := false
  barren := 0
  credits := [256, 256, 4096, 4096, 64, 64]
  owed := [0, 0, 0, 0, 0, 0]
  held := []
  lms := []
  rx := []
  lost := false
  wasUp := false
  retrains := false
  replayed := none
  trainedAt := none

/-- INC and THRESH are 1 at reset (R578). -/
def RedCtx.reset : RedCtx where
  regs := ⟨#[0, 0, 0, 0x01000000, 0, 1], rfl⟩
  tcount := 0
  running := false
  faulted := false
  done := 0
  nextUp := 0
  nextDown := 0

/-- LOG2 is 4 at reset (R579). -/
def DmaQueue.reset : DmaQueue := ⟨0, 0, 4, 0, 0, 0, true, false, 0⟩

def Pci.reset : Pci := ⟨false, Vector.replicate 16 DmaQueue.reset, [], 0, []⟩

def Mason.reset : Mason where
  ready := false
  readyAt := 0
  jobs := []
  inboxes := Vector.replicate 8 []
  summary := []
  cplIdx := 0
  cplPhase := true
  evIdx := 0
  evPhase := true
  dropped := false
  cplKept := []
  evKept := []
  cplWait := []
  loads := []
  orderTag := 0
  publish := none
  heldLoads := []
  probe := []
  raisedAt := 0
  autostarted := false
  dumpSet := 0
  dumpOff := 4096
  advances := []
  keyHeld := []
  badWords := []
  linkUes := []

def goodSection : Section := ⟨true, true, true⟩

/-- The cornerstone image of R580: a valid fabric image of one section a die without register writes. The spec gives no
contents; these are the least that configure the part. -/
def Flash.reset : Flash where
  slotA := none
  cornerstone :=
    ⟨⟨true, 1, 0, 0, 0, 0, true, false, false, false, 0⟩, (List.range 8).map fun d => ⟨d, goodSection, [], []⟩⟩
  store := Vector.replicate 5 none
  autostart := ⟨#[⟨0, true, []⟩, ⟨0, false, []⟩], rfl⟩
  firmware := Vector.replicate 2 (some ⟨⟨true, 3, 7, 0, 0, 0, true, false, false, false, 0⟩, goodSection⟩)
  persist := ⟨#[⟨0, true, ⟨Vector.replicate 8 0, 0, []⟩⟩, ⟨0, false, ⟨Vector.replicate 8 0, 0, []⟩⟩], rfl⟩

def Fuses.reset : Fuses := ⟨0, ⟨#[some 0, none, none, none], rfl⟩, 0, false⟩

def Supply.reset : Supply where
  off := false
  resetLow := false
  watts := []
  below := 0
  cured := ⟨[], [], [], [], 0, 0, 0⟩
  temps := Vector.replicate 8 0
  critRaised := 0
  critDue := 0
  tripTimer := false

def Die.reset : Die where
  run := .idle
  linkFlits := 0
  edges := Vector.replicate 4 ⟨0, 0⟩
  key := Keystone.reset
  plb := Vector.replicate 33 PlumbSlot.reset
  fences := Vector.replicate 16 0
  tiers := Vector.replicate 3 []
  frames := []
  hod := Hod.reset
  socket := Socket.reset
  planes := Vector.replicate 4 Plane.reset
  queues := Vector.replicate 4 ⟨[], 0, 0, 0⟩
  patrol := Vector.replicate 4 0
  eth := Eth.reset
  ing := Ing.reset
  egr := Egr.reset
  jhl := Vector.replicate 2 Jhl.reset
  red := Vector.replicate 16 RedCtx.reset
  stopped := []
  doneOut := false
  raccAt := none
  conf := []

/-- The module after power-up, before any configuration (R666): the part is the TD8-110L of R1. -/
def State.reset : State where
  part := .td8At110
  regs := []
  latch := []
  loHeld := []
  ashlars := []
  dies := Vector.replicate 8 Die.reset
  pstate := .active
  time := 0
  timeFrac := 0
  slew := 0
  slewAcc := 0
  ppsFirst := false
  ppsGood := 0
  mas := Mason.reset
  pcis := Vector.replicate 2 Pci.reset
  aperture := []
  flash := Flash.reset
  image := none
  doneWaited := false
  fuses := Fuses.reset
  supply := Supply.reset
  serial := 0
  smbOffset := 0
  jtag := ⟨.idcode, 0⟩
  cages := []
  net := []
  portWait := []
  past := []
  reports := []
  heldEvents := []
  out := []
  freeIdx := 0
  pending := []

end Sys2Proof.Machine
end

