-- ==== Sys2Proof/Machine/Registers.lean ====
section
/-! DEFINITION. The register pages: every plain field with its offset, place, access code and reset value (R15, R673 and
each page's own table), and what a page's header says of it. -/

namespace Sys2Proof.Machine

/-- The access codes of R15. -/
inductive Acc where
  | ro | rw | w1c | w1s | rc | wo
  deriving DecidableEq, Repr

/-- One register field: offset in the page, lowest bit, width, access, reset value, name. -/
structure Fld where
  off : Nat
  lo : Nat
  width : Nat
  acc : Acc
  reset : Nat
  name : String
  deriving DecidableEq, Repr

/-- The common header (R673). -/
def headerFields : List Fld :=
  [ ⟨0x010, 0, 1, .w1c, 0x0, "INT_STATUS.ERROR"⟩
  , ⟨0x010, 1, 1, .w1c, 0x0, "INT_STATUS.EVENT"⟩
  , ⟨0x010, 2, 1, .w1c, 0x0, "INT_STATUS.SATURATED"⟩
  , ⟨0x014, 0, 3, .rw, 0x2, "INT_ENABLE.EN"⟩
  , ⟨0x018, 0, 3, .w1s, 0x0, "INT_FORCE.FORCE"⟩
  , ⟨0x01c, 0, 16, .ro, 0x0, "ERR_CAPTURE.CODE"⟩
  , ⟨0x01c, 31, 1, .w1c, 0x0, "ERR_CAPTURE.VALID"⟩
  , ⟨0x020, 0, 32, .ro, 0x0, "ERR_ADDR_LO"⟩
  , ⟨0x024, 0, 32, .ro, 0x0, "ERR_ADDR_HI"⟩
  , ⟨0x028, 0, 16, .rc, 0x0, "ERR_COUNT.COUNT"⟩ ]

/-- ASH (R88 to R96, R143, R303, R394). -/
def ashFields0 : List Fld :=
  [ ⟨0x050, 0, 5, .rw, 0x10, "ARB_CTRL.STARVE_LIMIT"⟩
  , ⟨0x058, 0, 2, .ro, 0x0, "FAULT_INFO.ENGINE"⟩
  , ⟨0x058, 2, 4, .ro, 0x0, "FAULT_INFO.KIND"⟩
  , ⟨0x058, 6, 2, .ro, 0x0, "FAULT_INFO.RANGE"⟩
  , ⟨0x058, 8, 5, .ro, 0x0, "FAULT_INFO.SEQ"⟩
  , ⟨0x058, 31, 1, .w1c, 0x0, "FAULT_INFO.VALID"⟩
  , ⟨0x060, 0, 32, .ro, 0x0, "PERF_CYCLES_LO"⟩
  , ⟨0x064, 0, 16, .ro, 0x0, "PERF_CYCLES_HI"⟩
  , ⟨0x064, 31, 1, .ro, 0x0, "PERF_CYCLES_OVF"⟩
  , ⟨0x068, 0, 32, .ro, 0x0, "PERF_MX_BUSY_LO"⟩
  , ⟨0x06c, 0, 16, .ro, 0x0, "PERF_MX_BUSY_HI"⟩
  , ⟨0x06c, 31, 1, .ro, 0x0, "PERF_MX_BUSY_OVF"⟩
  , ⟨0x070, 0, 32, .ro, 0x0, "PERF_VX_BUSY_LO"⟩
  , ⟨0x074, 0, 16, .ro, 0x0, "PERF_VX_BUSY_HI"⟩
  , ⟨0x074, 31, 1, .ro, 0x0, "PERF_VX_BUSY_OVF"⟩
  , ⟨0x078, 0, 32, .ro, 0x0, "PERF_ST_BUSY_LO"⟩
  , ⟨0x07c, 0, 16, .ro, 0x0, "PERF_ST_BUSY_HI"⟩
  , ⟨0x07c, 31, 1, .ro, 0x0, "PERF_ST_BUSY_OVF"⟩
  , ⟨0x080, 0, 32, .ro, 0x0, "PERF_SD_BUSY_LO"⟩
  , ⟨0x084, 0, 16, .ro, 0x0, "PERF_SD_BUSY_HI"⟩
  , ⟨0x084, 31, 1, .ro, 0x0, "PERF_SD_BUSY_OVF"⟩
  , ⟨0x088, 0, 32, .ro, 0x0, "PERF_RANGE_STALL_LO"⟩
  , ⟨0x08c, 0, 16, .ro, 0x0, "PERF_RANGE_STALL_HI"⟩
  , ⟨0x08c, 31, 1, .ro, 0x0, "PERF_RANGE_STALL_OVF"⟩
  , ⟨0x090, 0, 32, .ro, 0x0, "PERF_PEG_STALL_LO"⟩
  , ⟨0x094, 0, 16, .ro, 0x0, "PERF_PEG_STALL_HI"⟩
  , ⟨0x094, 31, 1, .ro, 0x0, "PERF_PEG_STALL_OVF"⟩
  , ⟨0x098, 0, 32, .ro, 0x0, "PERF_BANK_STALL_LO"⟩
  , ⟨0x09c, 0, 16, .ro, 0x0, "PERF_BANK_STALL_HI"⟩
  , ⟨0x09c, 31, 1, .ro, 0x0, "PERF_BANK_STALL_OVF"⟩
  , ⟨0x0a0, 0, 1, .rw, 0x0, "PERF_CTRL.FREEZE"⟩
  , ⟨0x0a0, 1, 1, .w1s, 0x0, "PERF_CTRL.CLEAR"⟩
  , ⟨0x0b0, 0, 13, .rw, 0x0, "DBG_ADDR.WORD"⟩
  , ⟨0x0b0, 14, 2, .rw, 0x0, "DBG_ADDR.CLASS"⟩
  , ⟨0x0b0, 30, 2, .rw, 0x0, "DBG_ADDR.SPACE"⟩
  , ⟨0x0b4, 0, 32, .rw, 0x0, "DBG_DATA_LO"⟩
  , ⟨0x0b8, 0, 32, .rw, 0x0, "DBG_DATA_HI"⟩
  , ⟨0x0bc, 0, 8, .ro, 0x0, "DBG_CHECK.CHECK0"⟩
  , ⟨0x0bc, 8, 8, .ro, 0x0, "DBG_CHECK.CHECK1"⟩
  , ⟨0x0c0, 0, 1, .wo, 0x0, "DBG_CMD.READ"⟩ ]

/-- ASH (R88 to R96, R143, R303, R394). -/
def ashFields1 : List Fld :=
  [ ⟨0x0c0, 1, 1, .wo, 0x0, "DBG_CMD.WRITE"⟩
  , ⟨0x0c0, 2, 1, .ro, 0x0, "DBG_CMD.BUSY"⟩
  , ⟨0x0c0, 3, 1, .ro, 0x0, "DBG_CMD.ECC_ERR"⟩
  , ⟨0x134, 0, 9, .rw, 0x0, "JREG_SEL.INDEX"⟩
  , ⟨0x3a8, 0, 1, .rw, 0x1, "SCRUB_CTRL.ENABLE"⟩
  , ⟨0x3a8, 16, 16, .rw, 0x100, "SCRUB_CTRL.INTERVAL"⟩
  , ⟨0x3b0, 0, 16, .rc, 0x0, "SPAD_ERRS.CE"⟩
  , ⟨0x3b0, 16, 16, .rc, 0x0, "SPAD_ERRS.UE"⟩
  , ⟨0x700, 0, 24, .rw, 0x100000, "PEG_WDOG.LIMIT"⟩
  , ⟨0x700, 31, 1, .rw, 0x1, "PEG_WDOG.EN"⟩
  , ⟨0x704, 0, 6, .ro, 0x0, "PEG_WDOG_INFO.PEG"⟩
  , ⟨0x704, 6, 3, .ro, 0x0, "PEG_WDOG_INFO.WAITER"⟩
  , ⟨0x704, 9, 1, .ro, 0x0, "PEG_WDOG_INFO.TAKE"⟩
  , ⟨0x704, 10, 1, .ro, 0x0, "PEG_WDOG_INFO.WAITB"⟩
  , ⟨0x704, 11, 5, .ro, 0x0, "PEG_WDOG_INFO.SEQ"⟩
  , ⟨0x704, 31, 1, .w1c, 0x0, "PEG_WDOG_INFO.VALID"⟩
  , ⟨0x708, 0, 16, .ro, 0x0, "PEG_WDOG_VAL.THRESH"⟩
  , ⟨0x708, 16, 16, .ro, 0x0, "PEG_WDOG_VAL.VALUE"⟩
  , ⟨0x70c, 0, 32, .rw, 0x0, "PEG_EXEMPT_LO"⟩
  , ⟨0x710, 0, 16, .rw, 0x0, "PEG_EXEMPT_HI"⟩
  , ⟨0x718, 0, 16, .rc, 0x0, "PEG_STATS.REFUSED"⟩
  , ⟨0x718, 16, 16, .rc, 0x0, "PEG_STATS.WDOG"⟩ ]

/-- ASH (R88 to R96, R143, R303, R394). -/
def ashFields : List Fld := ashFields0 ++ ashFields1

/-- KEY (R183 to R187). -/
def keyFields : List Fld :=
  [ ⟨0x044, 0, 7, .rc, 0x0, "CTX_PEAK.PEAK_USED"⟩
  , ⟨0x044, 8, 9, .rc, 0x0, "CTX_PEAK.PEAK_QUEUED"⟩
  , ⟨0x048, 0, 12, .ro, 0x0, "FAULT_INFO.TAG"⟩
  , ⟨0x048, 12, 5, .ro, 0x0, "FAULT_INFO.RANK"⟩
  , ⟨0x048, 17, 3, .ro, 0x0, "FAULT_INFO.KIND"⟩
  , ⟨0x048, 20, 6, .ro, 0x0, "FAULT_INFO.CTX"⟩
  , ⟨0x048, 31, 1, .w1c, 0x0, "FAULT_INFO.VALID"⟩
  , ⟨0x050, 0, 32, .ro, 0x0, "PERF_DONE_LO"⟩
  , ⟨0x054, 0, 16, .ro, 0x0, "PERF_DONE_HI"⟩
  , ⟨0x054, 31, 1, .ro, 0x0, "PERF_DONE_OVF"⟩
  , ⟨0x058, 0, 32, .ro, 0x0, "PERF_ADMIT_WAIT_LO"⟩
  , ⟨0x05c, 0, 16, .ro, 0x0, "PERF_ADMIT_WAIT_HI"⟩
  , ⟨0x05c, 31, 1, .ro, 0x0, "PERF_ADMIT_WAIT_OVF"⟩
  , ⟨0x060, 0, 1, .rw, 0x0, "PERF_CTRL.FREEZE"⟩
  , ⟨0x060, 1, 1, .w1s, 0x0, "PERF_CTRL.CLEAR"⟩
  , ⟨0x064, 0, 6, .rw, 0x0, "CTX_CMD.CTX"⟩
  , ⟨0x064, 6, 1, .w1s, 0x0, "CTX_CMD.RELEASE"⟩
  , ⟨0x064, 7, 1, .w1s, 0x0, "CTX_CMD.RELEASE_RECT"⟩
  , ⟨0x064, 8, 4, .rw, 0x0, "CTX_CMD.FENCE"⟩
  , ⟨0x064, 12, 1, .ro, 0x0, "CTX_CMD.BUSY"⟩ ]

/-- PLB (R224). -/
def plbFields : List Fld :=
  [ ⟨0x040, 0, 6, .rw, 0x0, "SLOT_SEL.SLOT"⟩ ]

/-- MOR (R363). -/
def morFields0 : List Fld :=
  [ ⟨0x040, 0, 24, .rw, 0x1000, "STALL_S.LIMIT"⟩
  , ⟨0x044, 0, 32, .rw, 0x100000, "STALL_T.LIMIT"⟩
  , ⟨0x048, 0, 32, .rw, 0x100000, "STALL_M.LIMIT"⟩
  , ⟨0x04c, 0, 7, .ro, 0x0, "STALL_INFO.COL"⟩
  , ⟨0x04c, 7, 7, .ro, 0x0, "STALL_INFO.PROW"⟩
  , ⟨0x04c, 14, 2, .ro, 0x0, "STALL_INFO.CLASS"⟩
  , ⟨0x04c, 31, 1, .w1c, 0x0, "STALL_INFO.VALID"⟩
  , ⟨0x050, 0, 32, .ro, 0x0, "SLIP_LO"⟩
  , ⟨0x054, 0, 16, .ro, 0x0, "SLIP_HI"⟩
  , ⟨0x054, 31, 1, .ro, 0x0, "SLIP_OVF"⟩
  , ⟨0x058, 0, 7, .ro, 0x0, "SLIP_INFO.COL"⟩
  , ⟨0x058, 7, 7, .ro, 0x0, "SLIP_INFO.PROW"⟩
  , ⟨0x058, 14, 3, .ro, 0x0, "SLIP_INFO.PORT"⟩
  , ⟨0x058, 31, 1, .w1c, 0x0, "SLIP_INFO.VALID"⟩
  , ⟨0x05c, 0, 16, .rc, 0x0, "FENCE_DROP.COUNT"⟩
  , ⟨0x060, 0, 7, .rw, 0x0, "RACC_ADDR.COL"⟩
  , ⟨0x060, 7, 7, .rw, 0x0, "RACC_ADDR.PROW"⟩
  , ⟨0x060, 14, 8, .rw, 0x0, "RACC_ADDR.INDEX"⟩
  , ⟨0x064, 0, 32, .rw, 0x0, "RACC_DATA.DATA"⟩
  , ⟨0x068, 0, 1, .wo, 0x0, "RACC_CMD.READ"⟩
  , ⟨0x068, 1, 1, .wo, 0x0, "RACC_CMD.WRITE"⟩
  , ⟨0x068, 2, 1, .ro, 0x0, "RACC_CMD.BUSY"⟩
  , ⟨0x068, 3, 1, .ro, 0x0, "RACC_CMD.ERR"⟩
  , ⟨0x06c, 0, 16, .rc, 0x0, "LINK_ERRS.CE"⟩
  , ⟨0x06c, 16, 16, .rc, 0x0, "LINK_ERRS.UE"⟩
  , ⟨0x070, 0, 16, .ro, 0x0, "FENCE_STATUS.APPLIED"⟩
  , ⟨0x080, 0, 4, .rw, 0x0, "FENCE0.X8"⟩
  , ⟨0x080, 8, 4, .rw, 0x0, "FENCE0.Y8"⟩
  , ⟨0x080, 16, 5, .rw, 0x0, "FENCE0.W8"⟩
  , ⟨0x080, 24, 4, .rw, 0x0, "FENCE0.H8"⟩
  , ⟨0x080, 31, 1, .rw, 0x0, "FENCE0.EN"⟩
  , ⟨0x084, 0, 4, .rw, 0x0, "FENCE1.X8"⟩
  , ⟨0x084, 8, 4, .rw, 0x0, "FENCE1.Y8"⟩
  , ⟨0x084, 16, 5, .rw, 0x0, "FENCE1.W8"⟩
  , ⟨0x084, 24, 4, .rw, 0x0, "FENCE1.H8"⟩
  , ⟨0x084, 31, 1, .rw, 0x0, "FENCE1.EN"⟩
  , ⟨0x088, 0, 4, .rw, 0x0, "FENCE2.X8"⟩
  , ⟨0x088, 8, 4, .rw, 0x0, "FENCE2.Y8"⟩
  , ⟨0x088, 16, 5, .rw, 0x0, "FENCE2.W8"⟩
  , ⟨0x088, 24, 4, .rw, 0x0, "FENCE2.H8"⟩ ]

/-- MOR (R363). -/
def morFields1 : List Fld :=
  [ ⟨0x088, 31, 1, .rw, 0x0, "FENCE2.EN"⟩
  , ⟨0x08c, 0, 4, .rw, 0x0, "FENCE3.X8"⟩
  , ⟨0x08c, 8, 4, .rw, 0x0, "FENCE3.Y8"⟩
  , ⟨0x08c, 16, 5, .rw, 0x0, "FENCE3.W8"⟩
  , ⟨0x08c, 24, 4, .rw, 0x0, "FENCE3.H8"⟩
  , ⟨0x08c, 31, 1, .rw, 0x0, "FENCE3.EN"⟩
  , ⟨0x090, 0, 4, .rw, 0x0, "FENCE4.X8"⟩
  , ⟨0x090, 8, 4, .rw, 0x0, "FENCE4.Y8"⟩
  , ⟨0x090, 16, 5, .rw, 0x0, "FENCE4.W8"⟩
  , ⟨0x090, 24, 4, .rw, 0x0, "FENCE4.H8"⟩
  , ⟨0x090, 31, 1, .rw, 0x0, "FENCE4.EN"⟩
  , ⟨0x094, 0, 4, .rw, 0x0, "FENCE5.X8"⟩
  , ⟨0x094, 8, 4, .rw, 0x0, "FENCE5.Y8"⟩
  , ⟨0x094, 16, 5, .rw, 0x0, "FENCE5.W8"⟩
  , ⟨0x094, 24, 4, .rw, 0x0, "FENCE5.H8"⟩
  , ⟨0x094, 31, 1, .rw, 0x0, "FENCE5.EN"⟩
  , ⟨0x098, 0, 4, .rw, 0x0, "FENCE6.X8"⟩
  , ⟨0x098, 8, 4, .rw, 0x0, "FENCE6.Y8"⟩
  , ⟨0x098, 16, 5, .rw, 0x0, "FENCE6.W8"⟩
  , ⟨0x098, 24, 4, .rw, 0x0, "FENCE6.H8"⟩
  , ⟨0x098, 31, 1, .rw, 0x0, "FENCE6.EN"⟩
  , ⟨0x09c, 0, 4, .rw, 0x0, "FENCE7.X8"⟩
  , ⟨0x09c, 8, 4, .rw, 0x0, "FENCE7.Y8"⟩
  , ⟨0x09c, 16, 5, .rw, 0x0, "FENCE7.W8"⟩
  , ⟨0x09c, 24, 4, .rw, 0x0, "FENCE7.H8"⟩
  , ⟨0x09c, 31, 1, .rw, 0x0, "FENCE7.EN"⟩
  , ⟨0x0a0, 0, 4, .rw, 0x0, "FENCE8.X8"⟩
  , ⟨0x0a0, 8, 4, .rw, 0x0, "FENCE8.Y8"⟩
  , ⟨0x0a0, 16, 5, .rw, 0x0, "FENCE8.W8"⟩
  , ⟨0x0a0, 24, 4, .rw, 0x0, "FENCE8.H8"⟩
  , ⟨0x0a0, 31, 1, .rw, 0x0, "FENCE8.EN"⟩
  , ⟨0x0a4, 0, 4, .rw, 0x0, "FENCE9.X8"⟩
  , ⟨0x0a4, 8, 4, .rw, 0x0, "FENCE9.Y8"⟩
  , ⟨0x0a4, 16, 5, .rw, 0x0, "FENCE9.W8"⟩
  , ⟨0x0a4, 24, 4, .rw, 0x0, "FENCE9.H8"⟩
  , ⟨0x0a4, 31, 1, .rw, 0x0, "FENCE9.EN"⟩
  , ⟨0x0a8, 0, 4, .rw, 0x0, "FENCE10.X8"⟩
  , ⟨0x0a8, 8, 4, .rw, 0x0, "FENCE10.Y8"⟩
  , ⟨0x0a8, 16, 5, .rw, 0x0, "FENCE10.W8"⟩
  , ⟨0x0a8, 24, 4, .rw, 0x0, "FENCE10.H8"⟩ ]

/-- MOR (R363). -/
def morFields2 : List Fld :=
  [ ⟨0x0a8, 31, 1, .rw, 0x0, "FENCE10.EN"⟩
  , ⟨0x0ac, 0, 4, .rw, 0x0, "FENCE11.X8"⟩
  , ⟨0x0ac, 8, 4, .rw, 0x0, "FENCE11.Y8"⟩
  , ⟨0x0ac, 16, 5, .rw, 0x0, "FENCE11.W8"⟩
  , ⟨0x0ac, 24, 4, .rw, 0x0, "FENCE11.H8"⟩
  , ⟨0x0ac, 31, 1, .rw, 0x0, "FENCE11.EN"⟩
  , ⟨0x0b0, 0, 4, .rw, 0x0, "FENCE12.X8"⟩
  , ⟨0x0b0, 8, 4, .rw, 0x0, "FENCE12.Y8"⟩
  , ⟨0x0b0, 16, 5, .rw, 0x0, "FENCE12.W8"⟩
  , ⟨0x0b0, 24, 4, .rw, 0x0, "FENCE12.H8"⟩
  , ⟨0x0b0, 31, 1, .rw, 0x0, "FENCE12.EN"⟩
  , ⟨0x0b4, 0, 4, .rw, 0x0, "FENCE13.X8"⟩
  , ⟨0x0b4, 8, 4, .rw, 0x0, "FENCE13.Y8"⟩
  , ⟨0x0b4, 16, 5, .rw, 0x0, "FENCE13.W8"⟩
  , ⟨0x0b4, 24, 4, .rw, 0x0, "FENCE13.H8"⟩
  , ⟨0x0b4, 31, 1, .rw, 0x0, "FENCE13.EN"⟩
  , ⟨0x0b8, 0, 4, .rw, 0x0, "FENCE14.X8"⟩
  , ⟨0x0b8, 8, 4, .rw, 0x0, "FENCE14.Y8"⟩
  , ⟨0x0b8, 16, 5, .rw, 0x0, "FENCE14.W8"⟩
  , ⟨0x0b8, 24, 4, .rw, 0x0, "FENCE14.H8"⟩
  , ⟨0x0b8, 31, 1, .rw, 0x0, "FENCE14.EN"⟩
  , ⟨0x0bc, 0, 4, .rw, 0x0, "FENCE15.X8"⟩
  , ⟨0x0bc, 8, 4, .rw, 0x0, "FENCE15.Y8"⟩
  , ⟨0x0bc, 16, 5, .rw, 0x0, "FENCE15.W8"⟩
  , ⟨0x0bc, 24, 4, .rw, 0x0, "FENCE15.H8"⟩
  , ⟨0x0bc, 31, 1, .rw, 0x0, "FENCE15.EN"⟩ ]

/-- MOR (R363). -/
def morFields : List Fld := morFields0 ++ morFields1 ++ morFields2

/-- LIN (R364). -/
def linFields : List Fld :=
  [ ⟨0x044, 0, 1, .ro, 0x0, "STATUS.UP"⟩
  , ⟨0x044, 1, 1, .ro, 0x1, "STATUS.EMPTY"⟩
  , ⟨0x048, 0, 6, .ro, 0x10, "DEPTH.VC1"⟩
  , ⟨0x048, 8, 6, .ro, 0x20, "DEPTH.VC2"⟩
  , ⟨0x048, 16, 6, .ro, 0x8, "DEPTH.VC3"⟩
  , ⟨0x04c, 0, 5, .rc, 0x1f, "LATENCY.MIN"⟩
  , ⟨0x04c, 8, 5, .rc, 0x0, "LATENCY.MAX"⟩
  , ⟨0x050, 0, 32, .ro, 0x0, "FLITS_OUT_LO"⟩
  , ⟨0x054, 0, 16, .ro, 0x0, "FLITS_OUT_HI"⟩
  , ⟨0x054, 31, 1, .ro, 0x0, "FLITS_OUT_OVF"⟩
  , ⟨0x058, 0, 32, .ro, 0x0, "FLITS_IN_LO"⟩
  , ⟨0x05c, 0, 16, .ro, 0x0, "FLITS_IN_HI"⟩
  , ⟨0x05c, 31, 1, .ro, 0x0, "FLITS_IN_OVF"⟩
  , ⟨0x060, 0, 16, .rc, 0x0, "ERRS.CE"⟩
  , ⟨0x060, 16, 16, .rc, 0x0, "ERRS.UE"⟩ ]

/-- HBC, LPC and DMC controller registers (R431). -/
def tcFields : List Fld :=
  [ ⟨0x040, 0, 4, .rw, 0x4, "TC_SCHED.SHARE_S"⟩
  , ⟨0x040, 8, 4, .rw, 0x8, "TC_SCHED.REQ_MAX"⟩
  , ⟨0x044, 0, 1, .rw, 0x1, "TC_SCRUB.EN"⟩
  , ⟨0x044, 8, 8, .rw, 0x18, "TC_SCRUB.PERIOD"⟩
  , ⟨0x048, 0, 16, .rc, 0x0, "TC_ERRS.CE"⟩
  , ⟨0x048, 16, 16, .rc, 0x0, "TC_ERRS.UE"⟩
  , ⟨0x04c, 0, 17, .ro, 0x0, "TC_UE_INFO.FRAME"⟩
  , ⟨0x04c, 17, 12, .ro, 0x0, "TC_UE_INFO.LINE"⟩
  , ⟨0x04c, 29, 2, .ro, 0x0, "TC_UE_INFO.SRC"⟩
  , ⟨0x04c, 31, 1, .w1c, 0x0, "TC_UE_INFO.VALID"⟩
  , ⟨0x050, 0, 7, .ro, 0x0, "TC_QUEUE.S_Q"⟩
  , ⟨0x050, 8, 8, .ro, 0x0, "TC_QUEUE.T_Q"⟩
  , ⟨0x058, 0, 32, .ro, 0x0, "TC_PERF_S_LO"⟩
  , ⟨0x05c, 0, 16, .ro, 0x0, "TC_PERF_S_HI"⟩
  , ⟨0x05c, 31, 1, .ro, 0x0, "TC_PERF_S_OVF"⟩
  , ⟨0x060, 0, 32, .ro, 0x0, "TC_PERF_T_LO"⟩
  , ⟨0x064, 0, 16, .ro, 0x0, "TC_PERF_T_HI"⟩
  , ⟨0x064, 31, 1, .ro, 0x0, "TC_PERF_T_OVF"⟩
  , ⟨0x068, 0, 32, .ro, 0x0, "TC_PERF_HOD_LO"⟩
  , ⟨0x06c, 0, 16, .ro, 0x0, "TC_PERF_HOD_HI"⟩
  , ⟨0x06c, 31, 1, .ro, 0x0, "TC_PERF_HOD_OVF"⟩
  , ⟨0x070, 0, 1, .rw, 0x0, "TC_PERF_CTRL.FREEZE"⟩
  , ⟨0x070, 1, 1, .w1s, 0x0, "TC_PERF_CTRL.CLEAR"⟩ ]

/-- DMC service registers (R432). -/
def dmcFields : List Fld :=
  [ ⟨0x080, 0, 1, .w1s, 0x0, "SVC_CTRL.EVACUATE"⟩
  , ⟨0x080, 1, 1, .w1s, 0x0, "SVC_CTRL.CANCEL"⟩
  , ⟨0x080, 2, 1, .w1s, 0x0, "SVC_CTRL.READMIT"⟩ ]

/-- HOD (R434). -/
def hodFields : List Fld :=
  [ ⟨0x040, 0, 8, .rw, 0x40, "POLICY.PROMOTE"⟩
  , ⟨0x040, 8, 8, .rw, 0x1, "POLICY.DEMOTE"⟩
  , ⟨0x040, 16, 6, .rw, 0x2, "POLICY.RESERVE"⟩
  , ⟨0x040, 24, 5, .rw, 0x8, "POLICY.MAX_MIG"⟩
  , ⟨0x040, 31, 1, .rw, 0x0, "POLICY.AUTO"⟩
  , ⟨0x044, 0, 24, .rw, 0x3d090, "DECAY.INTERVAL"⟩
  , ⟨0x048, 0, 16, .rw, 0x3e8, "REUSE.DELAY"⟩
  , ⟨0x04c, 0, 32, .rw, 0x0, "DIR.FD"⟩
  , ⟨0x050, 0, 32, .rw, 0x0, "CMD_SRC.FD"⟩
  , ⟨0x054, 0, 2, .rw, 0x0, "CMD.TIER"⟩
  , ⟨0x054, 2, 3, .rw, 0x0, "CMD.DIE"⟩
  , ⟨0x054, 5, 1, .rw, 0x0, "CMD.ANY_DIE"⟩
  , ⟨0x054, 6, 1, .w1s, 0x0, "CMD.GO"⟩
  , ⟨0x054, 7, 1, .ro, 0x0, "CMD.BUSY"⟩
  , ⟨0x054, 8, 3, .ro, 0x0, "CMD.RESULT"⟩
  , ⟨0x068, 0, 32, .ro, 0x0, "PERF_MOVES_LO"⟩
  , ⟨0x06c, 0, 16, .ro, 0x0, "PERF_MOVES_HI"⟩
  , ⟨0x06c, 31, 1, .ro, 0x0, "PERF_MOVES_OVF"⟩
  , ⟨0x070, 0, 32, .ro, 0x0, "PERF_LOOKUPS_LO"⟩
  , ⟨0x074, 0, 16, .ro, 0x0, "PERF_LOOKUPS_HI"⟩
  , ⟨0x074, 31, 1, .ro, 0x0, "PERF_LOOKUPS_OVF"⟩
  , ⟨0x078, 0, 32, .ro, 0x0, "PERF_MISSES_LO"⟩
  , ⟨0x07c, 0, 16, .ro, 0x0, "PERF_MISSES_HI"⟩
  , ⟨0x07c, 31, 1, .ro, 0x0, "PERF_MISSES_OVF"⟩
  , ⟨0x080, 0, 1, .rw, 0x0, "PERF_CTRL.FREEZE"⟩
  , ⟨0x080, 1, 1, .w1s, 0x0, "PERF_CTRL.CLEAR"⟩ ]

/-- PLN (R463, R464). -/
def plnFields : List Fld :=
  [ ⟨0x040, 0, 6, .rw, 0x0, "DESC_SEL.DESC"⟩
  , ⟨0x074, 0, 6, .ro, 0x0, "FAULT_INFO.DESC"⟩
  , ⟨0x074, 6, 2, .ro, 0x0, "FAULT_INFO.STATUS"⟩
  , ⟨0x074, 8, 19, .ro, 0x0, "FAULT_INFO.SEG"⟩
  , ⟨0x074, 31, 1, .w1c, 0x0, "FAULT_INFO.VALID"⟩
  , ⟨0x078, 0, 16, .rc, 0x0, "NONFINITE.NAN"⟩
  , ⟨0x078, 16, 16, .rc, 0x0, "NONFINITE.INF"⟩
  , ⟨0x080, 0, 32, .ro, 0x0, "PERF_ELEMS_LO"⟩
  , ⟨0x084, 0, 16, .ro, 0x0, "PERF_ELEMS_HI"⟩
  , ⟨0x084, 31, 1, .ro, 0x0, "PERF_ELEMS_OVF"⟩
  , ⟨0x088, 0, 32, .ro, 0x0, "PERF_BUSY_LO"⟩
  , ⟨0x08c, 0, 16, .ro, 0x0, "PERF_BUSY_HI"⟩
  , ⟨0x08c, 31, 1, .ro, 0x0, "PERF_BUSY_OVF"⟩
  , ⟨0x090, 0, 1, .rw, 0x0, "PERF_CTRL.FREEZE"⟩
  , ⟨0x090, 1, 1, .w1s, 0x0, "PERF_CTRL.CLEAR"⟩ ]

/-- MAS (R501, R684). -/
def masFields : List Fld :=
  [ ⟨0x040, 0, 32, .rw, 0x0, "HCQ_BASE_LO"⟩
  , ⟨0x044, 0, 32, .rw, 0x0, "HCQ_BASE_HI"⟩
  , ⟨0x048, 0, 5, .rw, 0x4, "HCQ_CFG.LOG2"⟩
  , ⟨0x048, 31, 1, .rw, 0x0, "HCQ_CFG.ENABLE"⟩
  , ⟨0x04c, 0, 16, .rw, 0x0, "HCQ_TAIL.TAIL"⟩
  , ⟨0x050, 0, 16, .ro, 0x0, "HCQ_HEAD.HEAD"⟩
  , ⟨0x054, 0, 32, .rw, 0x0, "HCPL_BASE_LO"⟩
  , ⟨0x058, 0, 32, .rw, 0x0, "HCPL_BASE_HI"⟩
  , ⟨0x05c, 0, 5, .rw, 0x4, "HCPL_CFG.LOG2"⟩
  , ⟨0x05c, 31, 1, .rw, 0x0, "HCPL_CFG.ENABLE"⟩
  , ⟨0x060, 0, 16, .rw, 0x0, "HCPL_HEAD.HEAD"⟩
  , ⟨0x064, 0, 32, .rw, 0x0, "HEVQ_BASE_LO"⟩
  , ⟨0x068, 0, 32, .rw, 0x0, "HEVQ_BASE_HI"⟩
  , ⟨0x06c, 0, 5, .rw, 0x4, "HEVQ_CFG.LOG2"⟩
  , ⟨0x06c, 31, 1, .rw, 0x0, "HEVQ_CFG.ENABLE"⟩
  , ⟨0x070, 0, 16, .rw, 0x0, "HEVQ_HEAD.HEAD"⟩
  , ⟨0x074, 0, 16, .rc, 0x0, "HEVQ_DROPS.COUNT"⟩
  , ⟨0x078, 0, 24, .rw, 0xc350, "SCHED.QUANTUM"⟩
  , ⟨0x07c, 0, 24, .rw, 0x7d0, "SCHED_LIMIT.PREEMPT_LIMIT"⟩
  , ⟨0x080, 0, 9, .rw, 0xc0, "MBOX.COALESCE"⟩
  , ⟨0x084, 0, 3, .ro, 0x0, "STATE.MODE"⟩
  , ⟨0x084, 3, 1, .ro, 0x0, "STATE.DEGRADED"⟩
  , ⟨0x084, 16, 16, .ro, 0x0, "STATE.JOBS"⟩
  , ⟨0x100, 0, 32, .ro, 0x0, "SERIAL_LO"⟩
  , ⟨0x104, 0, 32, .ro, 0x0, "SERIAL_HI"⟩
  , ⟨0x10c, 0, 1, .ro, 0x0, "FW.SLOT"⟩
  , ⟨0x10c, 1, 7, .ro, 0x0, "FW.SVN"⟩
  , ⟨0x110, 0, 32, .ro, 0x0, "FW_BUILD_LO"⟩
  , ⟨0x114, 0, 32, .ro, 0x0, "FW_BUILD_HI"⟩
  , ⟨0x118, 0, 16, .rc, 0x0, "RESTARTS.COUNT"⟩
  , ⟨0x118, 16, 3, .ro, 0x0, "RESTARTS.LAST"⟩
  , ⟨0x11c, 0, 32, .ro, 0x0, "UPTIME.SECONDS"⟩ ]

/-- ETH (R542). -/
def ethFields : List Fld :=
  [ ⟨0x040, 0, 2, .rw, 0x0, "MODE.WIDTH"⟩
  , ⟨0x040, 4, 3, .rw, 0x1, "MODE.LRATE"⟩
  , ⟨0x040, 8, 2, .rw, 0x0, "MODE.FEC"⟩
  , ⟨0x044, 0, 4, .ro, 0x0, "LINK.UP"⟩
  , ⟨0x044, 4, 4, .w1c, 0x0, "LINK.CHG"⟩
  , ⟨0x048, 0, 2, .rw, 0x0, "CNT_SEL.LPORT"⟩
  , ⟨0x048, 4, 4, .rw, 0x0, "CNT_SEL.INDEX"⟩
  , ⟨0x058, 5, 1, .w1s, 0x0, "PUNT_STATUS.POP"⟩
  , ⟨0x05c, 2, 9, .rw, 0x0, "PUNT_ADDR.WORD"⟩
  , ⟨0x064, 2, 9, .rw, 0x0, "MTX_ADDR.WORD"⟩
  , ⟨0x06c, 0, 14, .rw, 0x0, "MTX_CMD.LEN"⟩
  , ⟨0x06c, 14, 2, .rw, 0x0, "MTX_CMD.LPORT"⟩
  , ⟨0x06c, 16, 1, .rw, 0x0, "MTX_CMD.TSREQ"⟩
  , ⟨0x06c, 17, 1, .w1s, 0x0, "MTX_CMD.GO"⟩
  , ⟨0x06c, 18, 1, .ro, 0x0, "MTX_CMD.BUSY"⟩
  , ⟨0x070, 0, 32, .ro, 0x0, "MTX_TS_LO"⟩
  , ⟨0x074, 0, 32, .ro, 0x0, "MTX_TS_HI"⟩ ]

/-- ING (R543). -/
def ingFields : List Fld :=
  [ ⟨0x040, 0, 5, .rw, 0x10, "CFG.KEYLEN"⟩
  , ⟨0x040, 8, 1, .rw, 0x0, "CFG.CAP_EN"⟩
  , ⟨0x040, 9, 1, .rw, 0x0, "CFG.CAP_MISS"⟩
  , ⟨0x044, 0, 8, .rw, 0x0, "PROG_ADDR.STEP"⟩
  , ⟨0x04c, 0, 32, .rw, 0x0, "PROG_START.LP"⟩
  , ⟨0x050, 0, 16, .rw, 0x0, "FCHK.CHK"⟩
  , ⟨0x050, 16, 16, .rw, 0x0, "FCHK.SIGNED"⟩
  , ⟨0x054, 0, 4, .rw, 0x0, "FSEL.FIELD"⟩
  , ⟨0x060, 0, 32, .rw, 0x0, "LK_KEY0"⟩
  , ⟨0x064, 0, 32, .rw, 0x0, "LK_KEY1"⟩
  , ⟨0x068, 0, 32, .rw, 0x0, "LK_KEY2"⟩
  , ⟨0x06c, 0, 32, .rw, 0x0, "LK_KEY3"⟩
  , ⟨0x070, 0, 16, .rw, 0x0, "LK_DATA.SLOT"⟩
  , ⟨0x070, 16, 3, .rw, 0x0, "LK_DATA.GROUP"⟩
  , ⟨0x070, 31, 1, .ro, 0x0, "LK_DATA.VALID"⟩
  , ⟨0x074, 0, 1, .w1s, 0x0, "LK_CMD.INSERT"⟩
  , ⟨0x074, 1, 1, .w1s, 0x0, "LK_CMD.DELETE"⟩
  , ⟨0x074, 2, 1, .w1s, 0x0, "LK_CMD.READ"⟩
  , ⟨0x074, 3, 1, .ro, 0x0, "LK_CMD.BUSY"⟩
  , ⟨0x074, 4, 2, .ro, 0x0, "LK_CMD.RESULT"⟩
  , ⟨0x080, 0, 4, .rw, 0x0, "RT_SEL.ENTRY"⟩
  , ⟨0x090, 0, 3, .rw, 0x0, "GRP_SEL.GROUP"⟩
  , ⟨0x0a0, 0, 20, .rw, 0x0, "CAP_TENSOR.HANDLE"⟩
  , ⟨0x0a4, 0, 16, .rw, 0x0, "CAP_JOB.JOB_ID"⟩
  , ⟨0x0a8, 0, 24, .rw, 0x0, "CAP_NREC.NREC"⟩
  , ⟨0x0b8, 0, 5, .rw, 0x0, "CNT_SEL.INDEX"⟩
  , ⟨0x0cc, 0, 8, .ro, 0x0, "LAST_DROP.CODE"⟩ ]

/-- EGR (R544). -/
def egrFields : List Fld :=
  [ ⟨0x040, 0, 3, .rw, 0x0, "IN_SEL.INPUT"⟩
  , ⟨0x050, 0, 3, .rw, 0x0, "GRP_SEL.GROUP"⟩
  , ⟨0x064, 0, 3, .ro, 0x0, "MM_INFO.GROUP"⟩
  , ⟨0x064, 3, 2, .ro, 0x0, "MM_INFO.KIND"⟩
  , ⟨0x064, 5, 2, .ro, 0x0, "MM_INFO.MEMBER"⟩
  , ⟨0x064, 31, 1, .w1c, 0x0, "MM_INFO.VALID"⟩
  , ⟨0x068, 0, 32, .ro, 0x0, "MM_SEQ.SEQ"⟩
  , ⟨0x070, 0, 6, .rw, 0x0, "TPL_SEL.TEMPLATE"⟩
  , ⟨0x07c, 0, 3, .rw, 0x0, "TPL_PSEL.PATCH"⟩
  , ⟨0x084, 2, 12, .rw, 0x0, "TPL_ADDR.WORD"⟩
  , ⟨0x090, 0, 4, .rw, 0x0, "CNT_SEL.INDEX"⟩ ]

/-- TIM (R545). -/
def timFields : List Fld :=
  [ ⟨0x048, 0, 32, .wo, 0x0, "SET_LO"⟩
  , ⟨0x04c, 0, 32, .wo, 0x0, "SET_HI"⟩
  , ⟨0x050, 0, 32, .ro, 0x0, "PPS_CAPT_LO"⟩
  , ⟨0x054, 0, 32, .ro, 0x0, "PPS_CAPT_HI"⟩
  , ⟨0x058, 0, 32, .rw, 0x80000000, "INCR.INCR"⟩
  , ⟨0x05c, 0, 32, .wo, 0x0, "ADJ.NS"⟩
  , ⟨0x060, 0, 1, .ro, 0x0, "STATUS.PPS_VALID"⟩
  , ⟨0x060, 1, 1, .ro, 0x1, "STATUS.HOLDOVER"⟩
  , ⟨0x060, 2, 1, .w1c, 0x0, "STATUS.PPS_BAD"⟩
  , ⟨0x060, 3, 1, .w1c, 0x0, "STATUS.STEPPED"⟩
  , ⟨0x060, 4, 1, .ro, 0x0, "STATUS.SLEWING"⟩
  , ⟨0x060, 16, 16, .ro, 0x0, "STATUS.PPS_COUNT"⟩ ]

/-- JHL (R578). -/
def jhlFields : List Fld :=
  [ ⟨0x040, 0, 3, .ro, 0x0, "STATE.STATE"⟩
  , ⟨0x044, 0, 32, .ro, 0x0, "PEER_LO"⟩
  , ⟨0x048, 0, 32, .ro, 0x0, "PEER_HI"⟩
  , ⟨0x04c, 0, 4, .ro, 0x0, "PEER_PORT.PORT"⟩
  , ⟨0x050, 0, 12, .rw, 0x20, "LINKCFG.REPLAY_US"⟩
  , ⟨0x050, 12, 4, .rw, 0x8, "LINKCFG.REPLAY_MAX"⟩
  , ⟨0x050, 16, 10, .rw, 0x64, "LINKCFG.HB_PERIOD"⟩
  , ⟨0x050, 26, 4, .rw, 0x8, "LINKCFG.HB_LOSS"⟩
  , ⟨0x050, 30, 1, .w1s, 0x0, "LINKCFG.RETRAIN"⟩
  , ⟨0x054, 0, 16, .rc, 0x0, "ERRS.CE"⟩
  , ⟨0x054, 16, 16, .rc, 0x0, "ERRS.UE"⟩
  , ⟨0x058, 0, 16, .rc, 0x0, "REPLAYS.COUNT"⟩
  , ⟨0x058, 16, 16, .rc, 0x0, "REPLAYS.REMOTE_NAK"⟩
  , ⟨0x060, 0, 32, .ro, 0x0, "FLITS_OUT_LO"⟩
  , ⟨0x064, 0, 16, .ro, 0x0, "FLITS_OUT_HI"⟩
  , ⟨0x064, 31, 1, .ro, 0x0, "FLITS_OUT_OVF"⟩
  , ⟨0x068, 0, 32, .ro, 0x0, "FLITS_IN_LO"⟩
  , ⟨0x06c, 0, 16, .ro, 0x0, "FLITS_IN_HI"⟩
  , ⟨0x06c, 31, 1, .ro, 0x0, "FLITS_IN_OVF"⟩
  , ⟨0x080, 0, 6, .rw, 0x0, "TUN_SEL.INDEX"⟩
  , ⟨0x080, 6, 2, .rw, 0x0, "TUN_SEL.KIND"⟩
  , ⟨0x090, 0, 4, .rw, 0x0, "RED_SEL.CTX"⟩ ]

/-- PCI (R579). -/
def pciFields : List Fld :=
  [ ⟨0x040, 0, 4, .ro, 0x0, "LINK.SPEED"⟩
  , ⟨0x040, 4, 5, .ro, 0x0, "LINK.WIDTH"⟩
  , ⟨0x040, 9, 1, .ro, 0x0, "LINK.UP"⟩
  , ⟨0x040, 10, 1, .ro, 0x0, "LINK.BME"⟩
  , ⟨0x040, 11, 1, .w1c, 0x0, "LINK.CHG"⟩
  , ⟨0x044, 0, 1, .ro, 0x0, "HOST.HOME"⟩
  , ⟨0x044, 1, 1, .w1s, 0x0, "HOST.MAKE_HOME"⟩
  , ⟨0x044, 2, 1, .rw, 0x1, "HOST.AUTO"⟩
  , ⟨0x048, 0, 16, .rc, 0x0, "APERR.PARTIAL"⟩
  , ⟨0x048, 16, 16, .rc, 0x0, "APERR.UNMAPPED"⟩
  , ⟨0x04c, 0, 15, .rw, 0x0, "AP_SEL.ENTRY"⟩
  , ⟨0x05c, 0, 4, .rw, 0x0, "DMA_SEL.QUEUE"⟩ ]

/-- CFG, the module page (R614). -/
def cfgFields : List Fld :=
  [ ⟨0x040, 0, 3, .ro, 0x0, "BOOT_STATUS.STAGE"⟩
  , ⟨0x040, 3, 2, .ro, 0x0, "BOOT_STATUS.SOURCE"⟩
  , ⟨0x040, 5, 1, .w1c, 0x0, "BOOT_STATUS.FALLBACK"⟩
  , ⟨0x040, 8, 4, .ro, 0xf, "BOOT_STATUS.FAILDIE"⟩
  , ⟨0x040, 12, 4, .ro, 0x0, "BOOT_STATUS.CAUSE"⟩
  , ⟨0x040, 16, 1, .ro, 0x0, "BOOT_STATUS.DONE_IN"⟩
  , ⟨0x040, 17, 1, .ro, 0x0, "BOOT_STATUS.DONE_OUT"⟩
  , ⟨0x044, 0, 1, .w1s, 0x0, "BOOT_CTRL.RELEASE_DONE"⟩
  , ⟨0x048, 0, 16, .rw, 0x7d0, "DONE_TIMEOUT.MS"⟩
  , ⟨0x050, 0, 32, .rw, 0x0, "RCV_ADDR_LO"⟩
  , ⟨0x054, 0, 32, .rw, 0x0, "RCV_ADDR_HI"⟩
  , ⟨0x058, 0, 32, .rw, 0x0, "RCV_LEN.LEN"⟩
  , ⟨0x05c, 0, 1, .w1s, 0x0, "RCV_CMD.GO"⟩
  , ⟨0x05c, 1, 1, .ro, 0x0, "RCV_CMD.BUSY"⟩
  , ⟨0x05c, 2, 4, .ro, 0x0, "RCV_CMD.RESULT"⟩
  , ⟨0x060, 0, 32, .rw, 0x0, "FL_SRC_LO"⟩
  , ⟨0x064, 0, 32, .rw, 0x0, "FL_SRC_HI"⟩
  , ⟨0x068, 0, 29, .rw, 0x0, "FL_DST.OFFSET"⟩
  , ⟨0x068, 31, 1, .rw, 0x0, "FL_DST.DEV"⟩
  , ⟨0x06c, 0, 32, .rw, 0x0, "FL_LEN.LEN"⟩
  , ⟨0x070, 0, 1, .w1s, 0x0, "FL_CMD.WRITE"⟩
  , ⟨0x070, 1, 1, .ro, 0x0, "FL_CMD.BUSY"⟩
  , ⟨0x070, 2, 4, .ro, 0x0, "FL_CMD.RESULT"⟩
  , ⟨0x070, 8, 4, .ro, 0x0, "FL_CMD.REASON"⟩
  , ⟨0x074, 0, 1, .rw, 0x0, "AUTOSTART.EN"⟩ ]

/-- CFG, the die page (R615, R635). -/
def cfgDieFields : List Fld :=
  [ ⟨0x044, 0, 16, .rw, 0x0, "LIFT.FENCE"⟩
  , ⟨0x048, 0, 7, .ro, 0x0, "LOAD_FAULT.COL"⟩
  , ⟨0x048, 7, 7, .ro, 0x0, "LOAD_FAULT.PROW"⟩
  , ⟨0x048, 14, 4, .ro, 0x0, "LOAD_FAULT.STATUS"⟩
  , ⟨0x048, 31, 1, .w1c, 0x0, "LOAD_FAULT.VALID"⟩
  , ⟨0x04c, 0, 16, .rc, 0x0, "LOAD_COUNT.LOADS"⟩
  , ⟨0x04c, 16, 16, .rc, 0x0, "LOAD_COUNT.FAILS"⟩
  , ⟨0x050, 0, 7, .ro, 0x0, "COURSE.RET0"⟩
  , ⟨0x050, 7, 1, .ro, 0x0, "COURSE.RET0_V"⟩
  , ⟨0x050, 8, 7, .ro, 0x0, "COURSE.RET1"⟩
  , ⟨0x050, 15, 1, .ro, 0x0, "COURSE.RET1_V"⟩
  , ⟨0x050, 16, 1, .ro, 0x0, "COURSE.DEGRADED"⟩
  , ⟨0x054, 0, 7, .rw, 0x0, "COURSE_CMD.ROW"⟩
  , ⟨0x054, 7, 1, .w1s, 0x0, "COURSE_CMD.RETIRE"⟩
  , ⟨0x054, 8, 1, .ro, 0x0, "COURSE_CMD.BUSY"⟩
  , ⟨0x054, 9, 2, .ro, 0x0, "COURSE_CMD.RESULT"⟩ ]

/-- PWR (R685). -/
def pwrFields0 : List Fld :=
  [ ⟨0x040, 0, 2, .ro, 0x0, "STATE.STATE"⟩
  , ⟨0x040, 2, 1, .ro, 0x0, "STATE.TRANSITION"⟩
  , ⟨0x044, 0, 1, .w1s, 0x0, "STATE_CTRL.CURE"⟩
  , ⟨0x044, 1, 1, .w1s, 0x0, "STATE_CTRL.WAKE"⟩
  , ⟨0x044, 2, 1, .w1c, 0x0, "STATE_CTRL.REFUSED"⟩
  , ⟨0x044, 4, 4, .ro, 0x0, "STATE_CTRL.WHY"⟩
  , ⟨0x048, 0, 16, .ro, 0x0, "FEED_A.DV"⟩
  , ⟨0x04c, 0, 16, .ro, 0x0, "FEED_B.DV"⟩
  , ⟨0x050, 0, 16, .ro, 0x0, "INPUT.WATTS"⟩
  , ⟨0x050, 16, 16, .ro, 0x0, "INPUT.AVG10"⟩
  , ⟨0x054, 0, 16, .rw, 0x0, "CAP.WATTS"⟩
  , ⟨0x054, 16, 1, .rw, 0x0, "CAP.SERVE_TRIM"⟩
  , ⟨0x054, 17, 1, .ro, 0x0, "CAP.ACTIVE"⟩
  , ⟨0x054, 18, 1, .ro, 0x0, "CAP.UNMET"⟩
  , ⟨0x058, 0, 1, .w1s, 0x0, "RESET.MODULE"⟩
  , ⟨0x058, 1, 1, .w1s, 0x0, "RESET.FABRIC"⟩
  , ⟨0x060, 0, 3, .rw, 0x0, "TRIM0.FLOOR"⟩
  , ⟨0x060, 4, 3, .ro, 0x0, "TRIM0.LEVEL"⟩
  , ⟨0x060, 8, 3, .ro, 0x0, "TRIM0.CAP_LEVEL"⟩
  , ⟨0x060, 12, 3, .ro, 0x0, "TRIM0.THERM_LEVEL"⟩
  , ⟨0x064, 0, 3, .rw, 0x0, "TRIM1.FLOOR"⟩
  , ⟨0x064, 4, 3, .ro, 0x0, "TRIM1.LEVEL"⟩
  , ⟨0x064, 8, 3, .ro, 0x0, "TRIM1.CAP_LEVEL"⟩
  , ⟨0x064, 12, 3, .ro, 0x0, "TRIM1.THERM_LEVEL"⟩
  , ⟨0x068, 0, 3, .rw, 0x0, "TRIM2.FLOOR"⟩
  , ⟨0x068, 4, 3, .ro, 0x0, "TRIM2.LEVEL"⟩
  , ⟨0x068, 8, 3, .ro, 0x0, "TRIM2.CAP_LEVEL"⟩
  , ⟨0x068, 12, 3, .ro, 0x0, "TRIM2.THERM_LEVEL"⟩
  , ⟨0x06c, 0, 3, .rw, 0x0, "TRIM3.FLOOR"⟩
  , ⟨0x06c, 4, 3, .ro, 0x0, "TRIM3.LEVEL"⟩
  , ⟨0x06c, 8, 3, .ro, 0x0, "TRIM3.CAP_LEVEL"⟩
  , ⟨0x06c, 12, 3, .ro, 0x0, "TRIM3.THERM_LEVEL"⟩
  , ⟨0x070, 0, 3, .rw, 0x0, "TRIM4.FLOOR"⟩
  , ⟨0x070, 4, 3, .ro, 0x0, "TRIM4.LEVEL"⟩
  , ⟨0x070, 8, 3, .ro, 0x0, "TRIM4.CAP_LEVEL"⟩
  , ⟨0x070, 12, 3, .ro, 0x0, "TRIM4.THERM_LEVEL"⟩
  , ⟨0x074, 0, 3, .rw, 0x0, "TRIM5.FLOOR"⟩
  , ⟨0x074, 4, 3, .ro, 0x0, "TRIM5.LEVEL"⟩
  , ⟨0x074, 8, 3, .ro, 0x0, "TRIM5.CAP_LEVEL"⟩
  , ⟨0x074, 12, 3, .ro, 0x0, "TRIM5.THERM_LEVEL"⟩ ]

/-- PWR (R685). -/
def pwrFields1 : List Fld :=
  [ ⟨0x078, 0, 3, .rw, 0x0, "TRIM6.FLOOR"⟩
  , ⟨0x078, 4, 3, .ro, 0x0, "TRIM6.LEVEL"⟩
  , ⟨0x078, 8, 3, .ro, 0x0, "TRIM6.CAP_LEVEL"⟩
  , ⟨0x078, 12, 3, .ro, 0x0, "TRIM6.THERM_LEVEL"⟩
  , ⟨0x07c, 0, 3, .rw, 0x0, "TRIM7.FLOOR"⟩
  , ⟨0x07c, 4, 3, .ro, 0x0, "TRIM7.LEVEL"⟩
  , ⟨0x07c, 8, 3, .ro, 0x0, "TRIM7.CAP_LEVEL"⟩
  , ⟨0x07c, 12, 3, .ro, 0x0, "TRIM7.THERM_LEVEL"⟩
  , ⟨0x080, 0, 5, .rw, 0x9, "WAKE_EN.EN"⟩
  , ⟨0x084, 0, 5, .ro, 0x0, "WAKE_SRC.LAST"⟩
  , ⟨0x084, 16, 16, .rc, 0x0, "WAKE_SRC.IGNORED"⟩
  , ⟨0x088, 0, 32, .rw, 0x0, "WAKE_PORTS.PORTS"⟩
  , ⟨0x08c, 0, 16, .rw, 0x0, "WAKE_TYPE.ETHERTYPE"⟩
  , ⟨0x090, 0, 32, .rw, 0x0, "WAKE_MAC_LO"⟩
  , ⟨0x094, 0, 16, .rw, 0x0, "WAKE_MAC_HI"⟩
  , ⟨0x098, 0, 32, .rw, 0xffffffff, "WAKE_TIME_LO"⟩
  , ⟨0x09c, 0, 32, .rw, 0xffffffff, "WAKE_TIME_HI"⟩ ]

/-- PWR (R685). -/
def pwrFields : List Fld := pwrFields0 ++ pwrFields1

/-- CLK (R687). -/
def clkFields : List Fld :=
  [ ⟨0x040, 0, 8, .ro, 0x0, "LOCK.FCLK"⟩
  , ⟨0x040, 8, 8, .ro, 0x0, "LOCK.MEMCLK"⟩
  , ⟨0x040, 16, 1, .ro, 0x0, "LOCK.MCLK"⟩
  , ⟨0x040, 17, 1, .ro, 0x0, "LOCK.TCLK"⟩
  , ⟨0x040, 18, 2, .ro, 0x0, "LOCK.PCLK"⟩
  , ⟨0x044, 0, 20, .w1c, 0x0, "UNLOCK.LOST"⟩
  , ⟨0x048, 0, 3, .rw, 0x0, "FSEL.DIE"⟩ ]

/-- THM (R688). -/
def thmFields : List Fld :=
  [ ⟨0x040, 0, 7, .rw, 0x5f, "WARN.DEGC"⟩
  , ⟨0x044, 0, 7, .rw, 0x69, "CRIT.DEGC"⟩
  , ⟨0x048, 0, 7, .ro, 0x73, "TRIP.DEGC"⟩
  , ⟨0x04c, 0, 8, .ro, 0x0, "STATUS.ABOVE_WARN"⟩
  , ⟨0x04c, 8, 8, .ro, 0x0, "STATUS.ABOVE_CRIT"⟩
  , ⟨0x04c, 16, 8, .ro, 0x0, "STATUS.TRIPPED"⟩
  , ⟨0x04c, 24, 1, .ro, 0x0, "STATUS.HOLD"⟩
  , ⟨0x050, 0, 10, .ro, 0x0, "TEMP0.NOW"⟩
  , ⟨0x050, 10, 10, .rc, 0x0, "TEMP0.MAX"⟩
  , ⟨0x050, 20, 4, .ro, 0x0, "TEMP0.SENSOR"⟩
  , ⟨0x054, 0, 10, .ro, 0x0, "TEMP1.NOW"⟩
  , ⟨0x054, 10, 10, .rc, 0x0, "TEMP1.MAX"⟩
  , ⟨0x054, 20, 4, .ro, 0x0, "TEMP1.SENSOR"⟩
  , ⟨0x058, 0, 10, .ro, 0x0, "TEMP2.NOW"⟩
  , ⟨0x058, 10, 10, .rc, 0x0, "TEMP2.MAX"⟩
  , ⟨0x058, 20, 4, .ro, 0x0, "TEMP2.SENSOR"⟩
  , ⟨0x05c, 0, 10, .ro, 0x0, "TEMP3.NOW"⟩
  , ⟨0x05c, 10, 10, .rc, 0x0, "TEMP3.MAX"⟩
  , ⟨0x05c, 20, 4, .ro, 0x0, "TEMP3.SENSOR"⟩
  , ⟨0x060, 0, 10, .ro, 0x0, "TEMP4.NOW"⟩
  , ⟨0x060, 10, 10, .rc, 0x0, "TEMP4.MAX"⟩
  , ⟨0x060, 20, 4, .ro, 0x0, "TEMP4.SENSOR"⟩
  , ⟨0x064, 0, 10, .ro, 0x0, "TEMP5.NOW"⟩
  , ⟨0x064, 10, 10, .rc, 0x0, "TEMP5.MAX"⟩
  , ⟨0x064, 20, 4, .ro, 0x0, "TEMP5.SENSOR"⟩
  , ⟨0x068, 0, 10, .ro, 0x0, "TEMP6.NOW"⟩
  , ⟨0x068, 10, 10, .rc, 0x0, "TEMP6.MAX"⟩
  , ⟨0x068, 20, 4, .ro, 0x0, "TEMP6.SENSOR"⟩
  , ⟨0x06c, 0, 10, .ro, 0x0, "TEMP7.NOW"⟩
  , ⟨0x06c, 10, 10, .rc, 0x0, "TEMP7.MAX"⟩
  , ⟨0x06c, 20, 4, .ro, 0x0, "TEMP7.SENSOR"⟩
  , ⟨0x070, 0, 10, .ro, 0x0, "COOLANT.INLET"⟩
  , ⟨0x070, 16, 10, .ro, 0x0, "COOLANT.OUTLET"⟩ ]

/-- PIN (R689, R690). -/
def pinFields0 : List Fld :=
  [ ⟨0x040, 0, 12, .rw, 0x1f4, "PIN0_CFG.GLITCH"⟩
  , ⟨0x040, 12, 4, .rw, 0x8, "PIN0_CFG.CHAT_N"⟩
  , ⟨0x040, 16, 16, .rw, 0x3e8, "PIN0_CFG.CHAT_WIN"⟩
  , ⟨0x044, 0, 24, .ro, 0x0, "PIN0_STUCK.MS"⟩
  , ⟨0x048, 0, 1, .ro, 0x1, "PIN0_STATUS.LEVEL"⟩
  , ⟨0x048, 1, 1, .ro, 0x1, "PIN0_STATUS.RAW"⟩
  , ⟨0x048, 2, 1, .ro, 0x0, "PIN0_STATUS.CHATTER"⟩
  , ⟨0x048, 3, 1, .w1c, 0x0, "PIN0_STATUS.STUCK"⟩
  , ⟨0x048, 16, 16, .rc, 0x0, "PIN0_STATUS.GLITCHES"⟩
  , ⟨0x050, 0, 12, .rw, 0x1f4, "PIN1_CFG.GLITCH"⟩
  , ⟨0x050, 12, 4, .rw, 0x8, "PIN1_CFG.CHAT_N"⟩
  , ⟨0x050, 16, 16, .rw, 0x3e8, "PIN1_CFG.CHAT_WIN"⟩
  , ⟨0x054, 0, 24, .rw, 0x0, "PIN1_STUCK.MS"⟩
  , ⟨0x058, 0, 1, .ro, 0x1, "PIN1_STATUS.LEVEL"⟩
  , ⟨0x058, 1, 1, .ro, 0x1, "PIN1_STATUS.RAW"⟩
  , ⟨0x058, 2, 1, .ro, 0x0, "PIN1_STATUS.CHATTER"⟩
  , ⟨0x058, 3, 1, .w1c, 0x0, "PIN1_STATUS.STUCK"⟩
  , ⟨0x058, 16, 16, .rc, 0x0, "PIN1_STATUS.GLITCHES"⟩
  , ⟨0x060, 0, 12, .rw, 0x19, "PIN2_CFG.GLITCH"⟩
  , ⟨0x060, 12, 4, .rw, 0x8, "PIN2_CFG.CHAT_N"⟩
  , ⟨0x060, 16, 16, .rw, 0x3e8, "PIN2_CFG.CHAT_WIN"⟩
  , ⟨0x064, 0, 24, .rw, 0x0, "PIN2_STUCK.MS"⟩
  , ⟨0x068, 0, 1, .ro, 0x1, "PIN2_STATUS.LEVEL"⟩
  , ⟨0x068, 1, 1, .ro, 0x1, "PIN2_STATUS.RAW"⟩
  , ⟨0x068, 2, 1, .ro, 0x0, "PIN2_STATUS.CHATTER"⟩
  , ⟨0x068, 3, 1, .w1c, 0x0, "PIN2_STATUS.STUCK"⟩
  , ⟨0x068, 16, 16, .rc, 0x0, "PIN2_STATUS.GLITCHES"⟩
  , ⟨0x070, 0, 12, .rw, 0xfa, "PIN3_CFG.GLITCH"⟩
  , ⟨0x070, 12, 4, .rw, 0x8, "PIN3_CFG.CHAT_N"⟩
  , ⟨0x070, 16, 16, .rw, 0x3e8, "PIN3_CFG.CHAT_WIN"⟩
  , ⟨0x074, 0, 24, .rw, 0x0, "PIN3_STUCK.MS"⟩
  , ⟨0x078, 0, 1, .ro, 0x1, "PIN3_STATUS.LEVEL"⟩
  , ⟨0x078, 1, 1, .ro, 0x1, "PIN3_STATUS.RAW"⟩
  , ⟨0x078, 2, 1, .ro, 0x0, "PIN3_STATUS.CHATTER"⟩
  , ⟨0x078, 3, 1, .w1c, 0x0, "PIN3_STATUS.STUCK"⟩
  , ⟨0x078, 16, 16, .rc, 0x0, "PIN3_STATUS.GLITCHES"⟩
  , ⟨0x080, 0, 6, .rw, 0xf, "ALERT_EN.EN"⟩
  , ⟨0x084, 0, 1, .w1c, 0x0, "ALERT_SRC.MODULE"⟩
  , ⟨0x084, 1, 1, .w1c, 0x0, "ALERT_SRC.FATAL"⟩
  , ⟨0x084, 2, 1, .w1c, 0x0, "ALERT_SRC.THERMAL"⟩ ]

/-- PIN (R689, R690). -/
def pinFields1 : List Fld :=
  [ ⟨0x084, 4, 1, .w1c, 0x0, "ALERT_SRC.EVQ"⟩
  , ⟨0x084, 5, 1, .ro, 0x0, "ALERT_SRC.FEED"⟩
  , ⟨0x088, 0, 1, .rw, 0x0, "ALERT_FORCE.FORCE"⟩ ]

/-- PIN (R689, R690). -/
def pinFields : List Fld := pinFields0 ++ pinFields1

/-- FUS (R691). -/
def fusFields : List Fld :=
  [ ⟨0x040, 0, 7, .ro, 0x0, "ROLLBACK.COUNT"⟩
  , ⟨0x044, 0, 4, .ro, 0x0, "KEYS.PRESENT"⟩
  , ⟨0x044, 4, 4, .ro, 0x0, "KEYS.REVOKED"⟩
  , ⟨0x044, 8, 1, .ro, 0x0, "KEYS.IMGKEY"⟩
  , ⟨0x044, 9, 2, .ro, 0x0, "KEYS.CORNER"⟩
  , ⟨0x048, 0, 2, .rw, 0x0, "KSEL.SLOT"⟩
  , ⟨0x07c, 0, 7, .rw, 0x0, "CMD.TO"⟩
  , ⟨0x07c, 7, 1, .w1s, 0x0, "CMD.ADVANCE"⟩
  , ⟨0x07c, 8, 2, .rw, 0x0, "CMD.SLOT"⟩
  , ⟨0x07c, 10, 1, .w1s, 0x0, "CMD.REVOKE"⟩
  , ⟨0x07c, 11, 1, .ro, 0x0, "CMD.BUSY"⟩
  , ⟨0x07c, 12, 3, .ro, 0x0, "CMD.RESULT"⟩ ]


/-- CTRL.ENABLE and its TIMEOUT, where the page implements them (R674, R677). -/
def enableField : List Fld := [⟨0x008, 0, 1, .rw, 0, "CTRL.ENABLE"⟩]

def timeoutField (reset : Nat) : List Fld := [⟨0x02c, 0, 32, .rw, reset, "TIMEOUT.VALUE"⟩]

/-- Every plain field of a page, its header included (R673, R674, R677). -/
def pageFields (p : Page) : List Fld :=
  headerFields ++
  match p with
  | .ash _ => ashFields
  | .mor _ => morFields
  | .key _ => keyFields
  | .plb _ => plbFields
  | .cfgDie _ => cfgDieFields
  | .lin _ _ => linFields
  | .hbc _ _ => tcFields
  | .lpc _ => tcFields
  | .dmc _ => tcFields ++ dmcFields ++ [⟨0x030, 0, 16, .ro, 500, "FILTER.VALUE"⟩]
  | .hod _ => hodFields
  | .pln _ _ => plnFields
  | .eth _ => ethFields ++ enableField ++ timeoutField 0 ++ [⟨0x030, 0, 16, .rw, 100, "FILTER.VALUE"⟩]
  | .ing _ => ingFields ++ enableField ++ timeoutField 0
  | .egr _ => egrFields ++ enableField ++ timeoutField 256
  | .jhl _ _ => jhlFields ++ enableField ++ timeoutField 100
  | .mas => masFields
  | .cfg => cfgFields
  | .tim => timFields ++ timeoutField 1500
  | .pwr => pwrFields
  | .clk => clkFields
  | .thm => thmFields
  | .pin => pinFields
  | .fus => fusFields
  | .pci _ => pciFields

/-- The fields of one register. -/
def regFields (p : Page) (off : Nat) : List Fld := (pageFields p).filter fun f => f.off == off

/-- The reset value of a register: its fields' reset values in place. -/
def resetWord (p : Page) (off : Nat) : Word :=
  BitVec.ofNat 32 ((regFields p off).foldl (fun acc f => acc + f.reset * 2 ^ f.lo) 0)

/-- Block code of a page's block (R622). -/
def pageBlock (p : Page) : Nat :=
  match p with
  | .ash _ => 0x00
  | .mor _ => 0x01
  | .lin _ _ => 0x02
  | .key _ => 0x03
  | .hbc _ _ => 0x04
  | .lpc _ => 0x05
  | .dmc _ => 0x06
  | .hod _ => 0x07
  | .pln _ _ => 0x08
  | .plb _ => 0x09
  | .eth _ => 0x0A
  | .ing _ => 0x0B
  | .egr _ => 0x0C
  | .tim => 0x0D
  | .jhl _ _ => 0x0E
  | .pci _ => 0x0F
  | .cfgDie _ => 0x10
  | .cfg => 0x10
  | .pwr => 0x11
  | .clk => 0x12
  | .thm => 0x13
  | .pin => 0x14
  | .fus => 0x15
  | .mas => 0x16

/-- Die of a page's block; 0 for module pages (R673). -/
def pageDie (p : Page) : Nat :=
  match p with
  | .ash a => a.die
  | .mor d => d
  | .lin d _ => d
  | .key d => d
  | .hbc d _ => d
  | .lpc d => d
  | .dmc d => d
  | .hod d => d
  | .pln d _ => d
  | .plb d => d
  | .eth d => d
  | .ing d => d
  | .egr d => d
  | .jhl d _ => d
  | .cfgDie d => d
  | _ => 0

def sideIndex (side : Side) : Nat :=
  match side with
  | .north => 0
  | .east => 1
  | .south => 2
  | .west => 3

def ctlIndex (c : Ctl) : Nat :=
  match c with
  | .stack0 => 0
  | .stack1 => 1
  | .lpddr => 2
  | .dimm => 3

/-- Instance within the die or module (R673, R680, R681). -/
def pageInstance (p : Page) : Nat :=
  match p with
  | .lin _ s => sideIndex s
  | .hbc _ k => k
  | .pln _ c => ctlIndex c
  | .jhl _ k => k
  | .pci k => k
  | _ => 0

/-- Whether the page is one of a die's blocks (BAR0), not the module's (BAR2) (R683). -/
def pageOfDie (p : Page) : Bool :=
  match p with
  | .mas => false
  | .cfg => false
  | .tim => false
  | .pwr => false
  | .clk => false
  | .thm => false
  | .pin => false
  | .fus => false
  | .pci _ => false
  | _ => true

/-- The neighbouring die across a side, where the part has one (R22, R27). -/
def neighbour (part : Part) (d : Nat) (side : Side) : Option Nat :=
  let w := part.dieCols
  let x := d % w
  let y := d / w
  match side with
  | .north => if 0 < y then some (d - w) else none
  | .south => if y + 1 < part.dieRows then some (d + w) else none
  | .west => if 0 < x then some (d - 1) else none
  | .east => if x + 1 < w then some (d + 1) else none

/-- Whether the page exists on the part (R680, R683). -/
def pageExists (part : Part) (p : Page) : Bool :=
  match p with
  | .ash a => a.die < part.dies && a.col < 128 && a.row < 98
  | .lin d s => d < part.dies && (neighbour part d s).isSome
  | .hbc d k => d < part.dies && k < 2
  | .jhl d k => d < part.dies && k < 2
  | .pci k => k < 2
  | q => pageDie q < part.dies

/-- Register ID of a page (R673). -/
def pageId (p : Page) : Word :=
  BitVec.ofNat 32 (pageBlock p + pageInstance p * 2 ^ 8 + pageDie p * 2 ^ 12 + 0x01 * 2 ^ 24)

def hasEnable (p : Page) : Bool :=
  match p with
  | .eth _ => true
  | .ing _ => true
  | .egr _ => true
  | .jhl _ _ => true
  | _ => false

def hasTimeout (p : Page) : Bool :=
  match p with
  | .tim => true
  | q => hasEnable q

def isAshPage (p : Page) : Bool :=
  match p with
  | .ash _ => true
  | _ => false

def hasFilter (p : Page) : Bool :=
  match p with
  | .eth _ => true
  | .dmc _ => true
  | _ => false

/-- Register CAPS of a page (R673). -/
def pageCaps (part : Part) (p : Page) : Word :=
  BitVec.ofNat 32 ((hasEnable p).toNat + ((hasEnable p) || (isAshPage p)).toNat * 2 + (isAshPage p).toNat * 4
    + (hasTimeout p).toNat * 8 + (hasFilter p).toNat * 16 + part.target * 2 ^ 16)

end Sys2Proof.Machine
end

