-- ==== Sys2Proof/Machine/Ops.lean ====
section
/-! DEFINITION. The named operations over the state: tables, byte memories, registers, events, coordinates, packets,
free values. Every command's meaning is written over these. -/

namespace Sys2Proof.Machine

/-! ### Tables -/

/-- The entry of key k, or d where none is listed. -/
def tget {κ α : Type} [DecidableEq κ] (t : Table κ α) (k : κ) (d : α) : α :=
  match t with
  | [] => d
  | e :: r => if e.1 = k then e.2 else tget r k d

/-- The table with the entry of key k set to v. -/
def tset {κ α : Type} [DecidableEq κ] (t : Table κ α) (k : κ) (v : α) : Table κ α :=
  match t with
  | [] => [(k, v)]
  | e :: r => if e.1 = k then (k, v) :: r else e :: tset r k v

/-- The table without key k. -/
def tdel {κ α : Type} [DecidableEq κ] (t : Table κ α) (k : κ) : Table κ α := t.filter fun e => decide (e.1 ≠ k)

/-! ### Tables kept in two copies (R582) -/

/-- The copy that is read: a valid one, of two the one with the higher sequence number. -/
def newerCopy {α : Type} (two : Vector (FlashCopy α) 2) : Option (Fin 2) :=
  if two[0].crcOk && (!two[1].crcOk || decide (two[1].seq.toNat ≤ two[0].seq.toNat)) then some 0
  else if two[1].crcOk then some 1
  else none

/-- What the copy that is read holds, `d` where neither is valid. -/
def readCopy {α : Type} (two : Vector (FlashCopy α) 2) (d : α) : α :=
  match newerCopy two with
  | some i => two[i].data
  | none => d

/-- The other copy written with the next sequence number; a write cut short leaves it without a valid CRC-32. -/
def writeCopy {α : Type} (two : Vector (FlashCopy α) 2) (v : α) (whole : Bool) : Vector (FlashCopy α) 2 :=
  match newerCopy two with
  | some i => two.set (1 - i) ⟨two[i].seq + 1, whole, v⟩
  | none => two.set 0 ⟨1, whole, v⟩

/-- The persistent store as it is read. -/
def State.kept (s : State) : Persist := readCopy s.flash.persist ⟨Vector.replicate 8 0, 0, []⟩

/-- The persistent store written. -/
def keepStore (s : State) (p : Persist) : State :=
  { s with flash := { s.flash with persist := writeCopy s.flash.persist p true } }

/-! ### Byte memories -/

/-- The byte at an address; an unlisted address reads 0. -/
def mread (m : Mem) (a : Nat) : Byte :=
  match m with
  | [] => 0
  | c :: r => if c.1 = a then c.2 else mread r a

/-- The memory with the byte at `a` written, in canonical form. -/
def mwrite (m : Mem) (a : Nat) (b : Byte) : Mem :=
  match m with
  | [] => if b = 0 then [] else [(a, b)]
  | c :: r =>
    if a < c.1 then (if b = 0 then c :: r else (a, b) :: c :: r)
    else if a = c.1 then (if b = 0 then r else (a, b) :: r)
    else c :: mwrite r a b

/-- The canonical form: addresses strictly rising, no byte 0 listed. -/
def memWf (m : Mem) : Bool :=
  match m with
  | [] => true
  | c :: r => (c.2 != 0) && (r.all fun e => decide (c.1 < e.1)) && memWf r

/-- n bytes from address a, little-endian. -/
def mreadN (m : Mem) (a : Nat) : Nat → Nat
  | 0 => 0
  | n + 1 => (mread m a).toNat + 256 * mreadN m (a + 1) n

/-- n bytes of v written from address a, little-endian. -/
def mwriteN (m : Mem) (a : Nat) : Nat → Nat → Mem
  | 0, _ => m
  | n + 1, v => mwriteN (mwrite m a (BitVec.ofNat 8 (v % 256))) (a + 1) n (v / 256)

/-! ### Bit fields -/

/-- Bits [lo + n − 1 : lo] of a register. -/
def bits (w : Word) (lo n : Nat) : Nat := w.toNat / 2 ^ lo % 2 ^ n

def bit (w : Word) (i : Nat) : Bool := w.toNat / 2 ^ i % 2 == 1

/-- The register with bits [lo + n − 1 : lo] set to v. -/
def setBits (w : Word) (lo n v : Nat) : Word :=
  BitVec.ofNat 32 (w.toNat - bits w lo n * 2 ^ lo + v % 2 ^ n * 2 ^ lo)

def b2n (b : Bool) : Nat := if b then 1 else 0

def b2w (b : Bool) : Word := if b then 1 else 0

/-- A saturating 16-bit count after n more (R20). -/
def sat16 (h : Half) (n : Nat) : Half := BitVec.ofNat 16 (min 0xFFFF (h.toNat + n))

/-! ### Registers -/

/-- The plain register at an offset of a page. -/
def State.reg (s : State) (p : Page) (off : Nat) : Word := tget (tget s.regs p []) off (resetWord p off)

def State.setReg (s : State) (p : Page) (off : Nat) (v : Word) : State :=
  { s with regs := tset s.regs p (tset (tget s.regs p []) off v) }

/-- A field of a plain register. -/
def State.fld (s : State) (p : Page) (off lo n : Nat) : Nat := bits (s.reg p off) lo n

def State.setFld (s : State) (p : Page) (off lo n v : Nat) : State := s.setReg p off (setBits (s.reg p off) lo n v)

/-- A saturating 16-bit count field with k added (R20). -/
def State.count16 (s : State) (p : Page) (off lo k : Nat) : State :=
  s.setFld p off lo 16 (min 0xFFFF (s.fld p off lo 16 + k))

/-- Bit 0 of a page's performance-control register: its counters are held (R92, R186). -/
def perfFrozen (s : State) (p : Page) (ctrl : Nat) : Bool := s.fld p ctrl 0 1 == 1

/-- A 48-bit performance counter with k added; OVF is set when it wraps (R20, R91). -/
def State.perfAdd (s : State) (p : Page) (off k : Nat) : State :=
  let v := s.fld p off 0 32 + s.fld p (off + 4) 0 16 * 2 ^ 32 + k
  let t := (s.setFld p off 0 32 (v % 2 ^ 32)).setFld p (off + 4) 0 16 (v / 2 ^ 32 % 2 ^ 16)
  if v < 2 ^ 48 then t else t.setFld p (off + 4) 31 1 1

/-- A 64-bit register pair. -/
def State.pair (s : State) (p : Page) (off : Nat) : Nat := (s.reg p off).toNat + (s.reg p (off + 4)).toNat * 2 ^ 32

def State.setPair (s : State) (p : Page) (off v : Nat) : State :=
  (s.setReg p off (BitVec.ofNat 32 v)).setReg p (off + 4) (BitVec.ofNat 32 (v / 2 ^ 32))

/-! ### Coordinates and the course map (R22, R23, R307, R635) -/

/-- The retired physical rows of a die, ascending. -/
def retiredRows (s : State) (d : Nat) : List Nat :=
  (if s.fld (.cfgDie d) 0x50 7 1 = 1 then [s.fld (.cfgDie d) 0x50 0 7] else []) ++
  (if s.fld (.cfgDie d) 0x50 15 1 = 1 then [s.fld (.cfgDie d) 0x50 8 7] else [])

/-- The logical row a physical row carries, if any (R23). -/
def logicalRow (s : State) (d p : Nat) : Option Nat :=
  let ret := retiredRows s d
  if ret.contains p then none
  else
    let r := p - (ret.filter fun q => decide (q < p)).length
    if r < 96 then some r else none

/-- The physical row that carries a logical row (R23). -/
def physicalRow (s : State) (d r : Nat) : Option Nat :=
  (List.range 98).find? fun p => logicalRow s d p == some r

/-- X and Y of a destination. -/
def destX (d : Dest) : Nat := d.toNat / 256
def destY (d : Dest) : Nat := d.toNat % 256

def mkDest (x y : Nat) : Dest := BitVec.ofNat 17 (x % 512 * 256 + y % 256)

/-- The destination of a block: code, die, instance (R307). -/
def blockDest (code die inst : Nat) : Dest := mkDest (die * 64 + inst) (0xC0 + code)

/-- The logical address of an ashlar; 0x1FFFF where it carries no logical row (R22, R389). -/
def ashDest (s : State) (a : Ash) : Dest :=
  match logicalRow s a.die a.row with
  | some r => mkDest (128 * (a.die % s.part.dieCols) + a.col) (96 * (a.die / s.part.dieCols) + r)
  | none => 0x1FFFF

/-- The die of a logical coordinate (R22). -/
def dieOf (part : Part) (x y : Nat) : Nat := x / 128 + part.dieCols * (y / 96)

/-- Whether a destination names a block (R307). -/
def isBlock (d : Dest) : Bool := 0xC0 ≤ destY d

/-- The ashlar a destination names, on the grid of the part (R307, R308). -/
def ashOf (s : State) (d : Dest) : Option Ash :=
  let x := destX d
  let y := destY d
  if x < 128 * s.part.dieCols ∧ y < 96 * s.part.dieRows then
    (physicalRow s (dieOf s.part x y) (y % 96)).map fun p => ⟨dieOf s.part x y, x % 128, p⟩
  else none

/-- Block code, die and instance of a destination that names a block. -/
def blockOf (d : Dest) : Nat × Nat × Nat := (destY d - 0xC0, destX d / 64, destX d % 64)

/-- Whether a block destination exists on the part (R307, R308). -/
def blockExists (part : Part) (d : Dest) : Bool :=
  let b := blockOf d
  let inst := b.2.2
  decide (b.2.1 < part.dies) &&
  (match b.1 with
   | 0 => decide (inst < 2)
   | 1 => inst == 0
   | 2 => inst == 0
   | 3 => inst == 0
   | 4 => inst == 0
   | 5 => decide (inst < 2)
   | 6 => inst == 0 && (b.2.1 == 0 || b.2.1 == part.lastDie)
   | 7 => true
   | 8 => inst == 0
   | 9 => inst == 0
   | _ => false)

/-- Whether a destination is missing (R308). -/
def destMissing (s : State) (d : Dest) : Bool :=
  if isBlock d then !blockExists s.part d
  else !(decide (destX d < 128 * s.part.dieCols) && decide (destY d < 96 * s.part.dieRows))

/-- Whether a die-local column and logical row lie in a rectangle in the layout of PLB.SLOT_BAY with bit 31 set
(R224, R354). -/
def inRect (w : Word) (col lrow : Nat) : Bool :=
  bit w 31 && decide (8 * bits w 0 4 ≤ col) && decide (col < 8 * bits w 0 4 + 8 * bits w 16 5)
    && decide (8 * bits w 8 4 ≤ lrow) && decide (lrow < 8 * bits w 8 4 + 8 * bits w 24 4)

/-- Whether a rectangle lies on the die: W8 and H8 not 0, and within 128 columns and 96 logical rows (R225). -/
def rectOnDie (w : Word) : Bool :=
  decide (0 < bits w 16 5) && decide (0 < bits w 24 4) && decide (bits w 0 4 + bits w 16 5 ≤ 16)
    && decide (bits w 8 4 + bits w 24 4 ≤ 12)

/-- Whether two rectangles share an ashlar. -/
def rectsMeet (v w : Word) : Bool :=
  decide (bits v 0 4 < bits w 0 4 + bits w 16 5) && decide (bits w 0 4 < bits v 0 4 + bits v 16 5)
    && decide (bits v 8 4 < bits w 8 4 + bits w 24 4) && decide (bits w 8 4 < bits v 8 4 + bits v 24 4)

/-! ### Ashlars and dies -/

/-- The ashlar at a physical place; one never touched is as after reset. -/
def State.ash (s : State) (a : Ash) : Ashlar := tget s.ashlars a Ashlar.reset

def State.setAsh (s : State) (a : Ash) (v : Ashlar) : State := { s with ashlars := tset s.ashlars a v }

/-- The state with a change made to one ashlar. -/
def State.onAsh (s : State) (a : Ash) (f : Ashlar → Ashlar) : State := s.setAsh a (f (s.ash a))

/-- Whether the part has this physical ashlar (R22, R23). -/
def ashExists (s : State) (a : Ash) : Bool := pageExists s.part (.ash a)

/-- Index of a die in the vector of dies. -/
def dieIdx (d : Nat) : Fin 8 := ⟨d % 8, Nat.mod_lt d (by decide)⟩

def State.die (s : State) (d : Nat) : Die := s.dies[dieIdx d]

def State.setDie (s : State) (d : Nat) (v : Die) : State := { s with dies := s.dies.set (dieIdx d) v }

/-- Whether a die is held. -/
def dieHeld (s : State) (d : Nat) : Bool := (s.die d).run == .held

/-- Whether a die's fabric stands still: not started yet, held, or stopped in Curing (R591, R648, R661, R665). -/
def dieAsleep (s : State) (d : Nat) : Bool := (s.die d).run != .running || s.pstate == .curing

/-- Whether the always-on island has power and is out of reset (R644, R667). -/
def powered (s : State) : Bool := !s.supply.off && !s.supply.resetLow

/-- A command of the module's always-on blocks: without power, or in module reset, nothing happens (R644, R667). -/
def atModule (s : State) (go : State) : Host.Outcome State Fault Refusal := .next (if powered s then go else s)

/-- A command of a die's ports, which Curing does not stop (R565, R648). -/
def atPortIf (s : State) (die : Nat) (ok : Bool) (go : Host.Outcome State Fault Refusal) :
    Host.Outcome State Fault Refusal :=
  if decide (die < s.part.dies) && ok then (if (s.die die).run == .running then go else .next s) else .fault .noSuchBlock

/-- A command of a die, where it names what the part has: a die that stands still does nothing. -/
def atDieIf (s : State) (die : Nat) (ok : Bool) (go : Host.Outcome State Fault Refusal) :
    Host.Outcome State Fault Refusal :=
  if decide (die < s.part.dies) && ok then (if dieAsleep s die then .next s else go) else .fault .noSuchBlock

def atDie (s : State) (die : Nat) (go : Host.Outcome State Fault Refusal) : Host.Outcome State Fault Refusal :=
  atDieIf s die true go

/-- A command of an ashlar, where the part has it: a die that stands still does nothing. -/
def atAshIf (s : State) (a : Ash) (ok : Bool) (go : Host.Outcome State Fault Refusal) :
    Host.Outcome State Fault Refusal :=
  if ashExists s a && ok then (if dieAsleep s a.die then .next s else go) else .fault .noSuchBlock

def atAsh (s : State) (a : Ash) (go : Host.Outcome State Fault Refusal) : Host.Outcome State Fault Refusal :=
  atAshIf s a true go

/-- Whether an ashlar lies inside a fence in force on its die (R354, R355). -/
def fenced (s : State) (a : Ash) : Bool :=
  match logicalRow s a.die a.row with
  | some r => (s.die a.die).fences.toList.any fun w => inRect w a.col r
  | none => false

/-- Index of a vector of n entries. -/
def ix (n k : Nat) (h : 0 < n) : Fin n := ⟨k % n, Nat.mod_lt k h⟩

def engineIx (e : Engine) : Fin 4 :=
  match e with
  | .matrix => 0
  | .vector => 1
  | .stream => 2
  | .send => 3

def engineOf (n : Nat) : Engine :=
  match n with
  | 0 => .matrix
  | 1 => .vector
  | 2 => .stream
  | _ => .send

/-! ### Events (R619 to R622, R673, R675, R709) -/

/-- An event's class and cause; its block comes from the page (R619). -/
structure Ev where
  cls : Nat
  cause : Nat
  deriving DecidableEq, Repr

def evErrAccess : Ev := ⟨2, 0x01⟩
def evErrRange : Ev := ⟨2, 0x02⟩
def evLinkUe : Ev := ⟨3, 0x03⟩
def evMemUe : Ev := ⟨1, 0x04⟩
def evNak : Ev := ⟨2, 0x05⟩
def evDescFault : Ev := ⟨3, 0x08⟩
def evWindowFault : Ev := ⟨3, 0x09⟩
def evImemActive : Ev := ⟨2, 0x0A⟩
def evImemEcc : Ev := ⟨3, 0x0B⟩
def evDmemEcc : Ev := ⟨3, 0x0C⟩
def evSpadUe : Ev := ⟨3, 0x0D⟩
def evSpadParity : Ev := ⟨3, 0x0E⟩
def evRingFault : Ev := ⟨3, 0x0F⟩
def evEpochStale : Ev := ⟨2, 0x10⟩
def evCreditOverrun : Ev := ⟨3, 0x12⟩
def evChanFault : Ev := ⟨3, 0x13⟩
def evConnRefused : Ev := ⟨3, 0x14⟩
def evPegWatchdog : Ev := ⟨3, 0x15⟩
def evPegJob : Ev := ⟨2, 0x16⟩
def evMxParity : Ev := ⟨3, 0x17⟩
def evJnrIllegal : Ev := ⟨0, 0x18⟩
def evJnrAccess : Ev := ⟨0, 0x19⟩
def evJnrLoop : Ev := ⟨0, 0x1A⟩
def evJnrContext : Ev := ⟨0, 0x1B⟩
def evJnrTrap : Ev := ⟨0, 0x1C⟩
def evJnrDouble : Ev := ⟨3, 0x1D⟩
def evJnrBreak : Ev := ⟨0, 0x1E⟩
def evJnrHalt : Ev := ⟨0, 0x1F⟩
def evTimingSlip : Ev := ⟨1, 0x08⟩
def evStall : Ev := ⟨0, 0x09⟩
def evKeyFault : Ev := ⟨3, 0x08⟩
/-- KEY_FAULT as an ashlar whose KSEND is answered ABORT raises it: the Keystone's block code, 0x03, in the ashlar's page
(R90, R187, R622). -/
def evKsendAbort : Ev := ⟨3, 3 * 64 + 0x08⟩
def evMemAccess : Ev := ⟨2, 0x08⟩
def evDimmSvc : Ev := ⟨0, 0x09⟩
def evDimmLost : Ev := ⟨5, 0x0A⟩
def evMemMap : Ev := ⟨2, 0x08⟩
def evPlaneFault : Ev := ⟨4, 0x08⟩
def evPlumbAlarm : Ev := ⟨0, 0x08⟩
def evFmtSat : Ev := ⟨0, 0x09⟩
def evLinkChange : Ev := ⟨0, 0x08⟩
def evRxIdle : Ev := ⟨0, 0x09⟩
def evIngOverflow : Ev := ⟨2, 0x08⟩
def evEgrTxdrop : Ev := ⟨2, 0x08⟩
def evEgrTpl : Ev := ⟨2, 0x09⟩
def evTwinMismatch : Ev := ⟨3, 0x0A⟩
def evTwinTimeout : Ev := ⟨3, 0x0B⟩
def evVoteDissent : Ev := ⟨3, 0x0C⟩
def evPpsBad : Ev := ⟨0, 0x08⟩
def evPpsHoldover : Ev := ⟨0, 0x09⟩
def evJhlLinkDown : Ev := ⟨0, 0x08⟩
def evJhlFail : Ev := ⟨4, 0x09⟩
def evJhlPeerLost : Ev := ⟨0, 0x0A⟩
def evJhlRemoteNak : Ev := ⟨2, 0x0B⟩
def evJhlReduceFault : Ev := ⟨4, 0x0C⟩
def evJhlWake : Ev := ⟨0, 0x0D⟩
def evPciAperture : Ev := ⟨2, 0x08⟩
def evDmaFault : Ev := ⟨2, 0x09⟩
def evPciFailover : Ev := ⟨0, 0x0A⟩
def evImgFormat : Ev := ⟨6, 0x08⟩
def evImgKey : Ev := ⟨6, 0x09⟩
def evImgSig : Ev := ⟨6, 0x0A⟩
def evImgRollback : Ev := ⟨6, 0x0B⟩
def evImgTarget : Ev := ⟨6, 0x0C⟩
def evImgDigest : Ev := ⟨6, 0x0D⟩
def evImgDecrypt : Ev := ⟨6, 0x0E⟩
def evImgClass : Ev := ⟨6, 0x0F⟩
def evImgReloc : Ev := ⟨6, 0x10⟩
def evCfgRange : Ev := ⟨6, 0x11⟩
def evCfgRoute : Ev := ⟨6, 0x12⟩
def evCfgChain : Ev := ⟨5, 0x13⟩
def evCfgFallback : Ev := ⟨5, 0x14⟩
def evDoneWait : Ev := ⟨0, 0x15⟩
def evCfgLoad : Ev := ⟨3, 0x16⟩
def evPwrCap : Ev := ⟨0, 0x08⟩
def evPwrState : Ev := ⟨0, 0x09⟩
def evPllUnlock : Ev := ⟨5, 0x08⟩
def evThermWarn : Ev := ⟨0, 0x08⟩
def evThermCrit : Ev := ⟨5, 0x09⟩
def evThermTrip : Ev := ⟨7, 0x0A⟩
def evPinChatter : Ev := ⟨0, 0x08⟩
def evFuseAdvance : Ev := ⟨0, 0x08⟩
def evDeadlock : Ev := ⟨3, 0x08⟩
def evBaySilent : Ev := ⟨8, 0x09⟩
def evBayRecovered : Ev := ⟨8, 0x0A⟩
def evRecoveryFail : Ev := ⟨4, 0x0B⟩
def evRowRetired : Ev := ⟨5, 0x0C⟩
def evDieDegraded : Ev := ⟨5, 0x0D⟩
def evPreemptTimeout : Ev := ⟨4, 0x0E⟩
def evEvqOverflow : Ev := ⟨0, 0x0F⟩
def evPublishDone : Ev := ⟨0, 0x10⟩
def evMasWdog : Ev := ⟨5, 0x11⟩
def evDumpReady : Ev := ⟨0, 0x12⟩

/-- The event code: class in [15:12], block in [11:6], cause in [5:0] (R619). -/
def evCode (p : Page) (e : Ev) : Nat := e.cls * 4096 + pageBlock p * 64 + e.cause

/-- One occurrence counted in ERR_COUNT; SATURATED is set when the count reaches 0xFFFF (R673, R709). -/
def State.countErr (s : State) (p : Page) : State :=
  let t := s.count16 p 0x28 0 1
  if t.fld p 0x28 0 16 = 0xFFFF then t.setFld p 0x10 2 1 1 else t

/-- ERR_CAPTURE loaded with the first event since it was cleared (R619, R673). -/
def State.capture (s : State) (p : Page) (e : Ev) (addr : Nat) : State :=
  if s.fld p 0x1C 31 1 = 1 then s
  else
    let t := ((s.setFld p 0x1C 0 16 (evCode p e)).setFld p 0x1C 31 1 1).setFld p 0x10 0 1 1
    t.setPair p 0x20 addr

/-! #### MSI-X (R573, R675) -/

/-- Something that has left the module, or an answer to an access. -/
def State.emit (s : State) (o : Output) : State := { s with out := s.out ++ [o] }

def pciIx (k : Nat) : Fin 2 := ⟨k % 2, Nat.mod_lt k (by decide)⟩

def State.pci (s : State) (k : Nat) : Pci := s.pcis[pciIx k]

def State.setPci (s : State) (k : Nat) (v : Pci) : State := { s with pcis := s.pcis.set (pciIx k) v }

/-- An endpoint reaches the host: its link is up and Bus Master Enable is set (R575). -/
def hostUp (s : State) (k : Nat) : Bool := s.fld (.pci k) 0x40 9 1 == 1 && s.fld (.pci k) 0x40 10 1 == 1

/-- A word of the MSI-X table; a vector is masked until its control word says otherwise. -/
def msixWord (p : Pci) (off : Nat) : Word := tget p.msix off (if off % 16 = 12 then 1 else 0)

/-- An MSI-X vector signalled, or pending while it is masked. -/
def State.msi (s : State) (k v : Nat) : State :=
  if !hostUp s k then s
  else if bit (msixWord (s.pci k) (16 * v + 12)) 0 then s.setPci k { s.pci k with pba := (s.pci k).pba ||| 1 <<< v }
  else s.emit (.msix k v)

/-- The interrupt of a PCI page: vector 18 when an enabled INT_STATUS bit sets that was clear before (R675). -/
def pciIrq (before s : State) (p : Page) : State :=
  match p with
  | .pci k =>
    let live := fun (t : State) => t.reg p 0x10 &&& t.reg p 0x14 &&& 7
    if live s &&& ~~~(live before) = 0 then s else s.msi k 18
  | _ => s

/-- An event recorded in its page: captured, and counted where its class counts (R619, R709). -/
def State.record (s : State) (p : Page) (e : Ev) (addr : Nat) : State :=
  let t := s.capture p e addr
  pciIrq s (if 1 ≤ e.cls ∧ e.cls ≤ 7 then t.countErr p else t) p

/-- The job and coordinate a report of a page names. -/
def pageJob (s : State) (p : Page) : Half :=
  match p with
  | .ash a => (s.ash a).job
  | _ => 0xFFFF

def pageCoord (s : State) (p : Page) : Dest :=
  match p with
  | .ash a => ashDest s a
  | _ => 0

/-- Whether an ashlar's page has an event report on its way, in an inbox or in the summary bitmap (R492, R493). -/
def reportOut (s : State) (p : Page) : Bool :=
  let mine := fun (r : Report) => r.event && decide (r.page = p)
  match p with
  | .ash a => s.reports.any mine || s.mas.inboxes.toList.any (fun l => l.any mine) || s.mas.summary.contains a
  | _ => false

/-- An event raised to the Mason: INT_STATUS.EVENT is set and, while INT_ENABLE.EVENT is 1, a report leaves for the
Mason, naming a coordinate and the word it concerns; while an ashlar's report is outstanding its next events are held in its
page (R492, R493, R675). -/
def State.reportAt (s : State) (p : Page) (e : Ev) (coord : Dest) (addr : Nat) : State :=
  let t := pciIrq s (s.setFld p 0x10 1 1 1) p
  let r : Report := ⟨p, coord, BitVec.ofNat 32 (evCode p e), pageJob t p, true, t.time, addr⟩
  if t.fld p 0x14 1 1 = 0 then t
  else if reportOut t p then { t with heldEvents := t.heldEvents ++ [r] }
  else { t with reports := t.reports ++ [r] }

def State.report (s : State) (p : Page) (e : Ev) (addr : Nat) : State := s.reportAt p e (pageCoord s p) addr

/-- An event of a block that concerns the bay of some sender, whom its report names (R623). -/
def State.raiseFor (s : State) (p : Page) (e : Ev) (sender : Dest) : State := (s.record p e 0).reportAt p e sender 0

/-- An event recorded in the page and raised to the Mason (R621). -/
def State.raise (s : State) (p : Page) (e : Ev) (addr : Nat) : State := (s.record p e addr).report p e addr

/-- An event that concerns a word of an ashlar's stores whose place its page does not show, raised to the Mason (R621, R633). -/
def State.raiseWord (s : State) (p : Page) (e : Ev) (word : Nat) : State := (s.record p e 0).report p e word

/-! ### Trim levels (R649, R652) -/

def trimOff (d : Nat) : Nat := 0x60 + 4 * d
def floorOf (s : State) (d : Nat) : Nat := s.fld .pwr (trimOff d) 0 3
def levelOf (s : State) (d : Nat) : Nat := s.fld .pwr (trimOff d) 4 3
def capLevel (s : State) (d : Nat) : Nat := s.fld .pwr (trimOff d) 8 3
def thermLevel (s : State) (d : Nat) : Nat := s.fld .pwr (trimOff d) 12 3

/-! ### Packets -/

/-- Whether the local port that a packet would enter by is shut: its router in bypass, which no flit enters (R306), or its source
inside a fence in force, on VC0 to VC2 (R355). -/
def portShut (s : State) (p : Packet) : Bool :=
  p.src == 0x1FFFF || p.vc != 3 && (match ashOf s p.src with
    | some a => fenced s a
    | none => false)

/-- A packet put on the Mortar; where its local port is shut it waits there (R355). -/
def State.send (s : State) (p : Packet) : State :=
  if portShut s p then { s with portWait := s.portWait ++ [p] } else { s with net := s.net ++ [p] }

/-- A packet put on the Mortar by a router on its own account (R308, R355). -/
def State.inject (s : State) (p : Packet) : State := { s with net := s.net ++ [p] }

def State.sendAll (s : State) (ps : List Packet) : State := ps.foldl State.send s

/-- Packets whose local port is open again enter the Mortar (R355). -/
def State.openPorts (s : State) : State :=
  { s with net := s.net ++ s.portWait.filter (fun p => !portShut s p), portWait := s.portWait.filter (portShut s) }

/-- Every packet sent and not yet taken. -/
def State.sent (s : State) : List Packet := s.net ++ s.portWait

/-- The virtual channel of an ashlar's packets: VC1 for class S, VC2 for class T (R314). -/
def ashVc (v : Ashlar) : BitVec 2 := if v.clsT then 2 else 1

/-- A packet of an ashlar (R314). -/
def ashPacket (s : State) (a : Ash) (dest : Dest) (body : Body) : Packet :=
  ⟨ashVc (s.ash a), dest, ashDest s a, false, body⟩

/-! ### Outputs and free values -/

/-- A value the spec leaves open, fresh each time. -/
def State.free (s : State) : BitVec 64 × State := (Config.freeValue s.freeIdx, { s with freeIdx := s.freeIdx + 1 })

/-! ### Check codes (R51, R259, R260) -/

/-- Number of bits set in the low n bits. -/
def popcount (n v : Nat) : Nat :=
  match n with
  | 0 => 0
  | k + 1 => v % 2 + popcount k (v / 2)

/-- The w-bit values with exactly three bits set, ascending. -/
def threeBitValues (w : Nat) : List Nat := (List.range (2 ^ w)).filter fun v => popcount w v == 3

/-- Column values of the (39, 32) code (R51). -/
def cols39 : List Nat := (threeBitValues 7).take 32

/-- Column values of the (72, 64) code (R259). -/
def cols72 : List Nat := threeBitValues 8 ++ [0x1F, 0x2F, 0x37, 0x3B, 0x3D, 0x3E, 0x4F, 0x57]

/-- Check bits of data under a list of column values: the exclusive OR of the columns of the bits set. -/
def checkBits (cols : List Nat) (data : Nat) : Nat :=
  match cols with
  | [] => 0
  | h :: r => (if data % 2 = 1 then h else 0) ^^^ checkBits r (data / 2)

/-- How a read decodes: clean, corrected to this data, or uncorrectable. -/
inductive Ecc where
  | clean
  | corrected (data : Nat)
  | ue
  deriving DecidableEq, Repr

/-- SECDED decoding by syndrome (R51, R259). -/
def secded (cols : List Nat) (w data check : Nat) : Ecc :=
  let syn := checkBits cols data ^^^ check
  if syn = 0 then .clean
  else if popcount w syn = 1 then .corrected data
  else
    match cols.findIdx? fun h => h == syn with
    | some i => .corrected (data ^^^ 2 ^ i)
    | none => .ue

/-- The class A parity bits of a word: bit k the exclusive OR of byte k (R260). -/
def parityBits (n data : Nat) : Nat :=
  match n with
  | 0 => 0
  | k + 1 => popcount 8 data % 2 + 2 * parityBits k (data / 256)

/-- Check bits of a scratchpad word under a protection class: A parity, G and W SECDED (R258). -/
def classCheck (cls data : Nat) : Nat := if cls = 0 then parityBits 8 data else checkBits cols72 data

/-- A scratchpad word decoded under a class. -/
def classDecode (cls data check : Nat) : Ecc :=
  if cls = 0 then if parityBits 8 data = check then .clean else .ue
  else secded cols72 8 data check

/-! ### The ashlar's memories -/

/-- Data and check bits of a scratchpad word (R255): nine bytes a word. -/
def spadRaw (v : Ashlar) (w : Nat) : Nat × Nat := (mreadN v.spad (9 * w) 8, (mread v.spad (9 * w + 8)).toNat)

/-- A whole scratchpad word written with its check bits. -/
def spadPut (v : Ashlar) (w data check : Nat) : Ashlar :=
  { v with spad := mwriteN v.spad (9 * w) 9 (data % 2 ^ 64 + check % 256 * 2 ^ 64) }

/-- A whole word written under a class (R258). -/
def spadStore (v : Ashlar) (cls w data : Nat) : Ashlar := spadPut v w data (classCheck cls (data % 2 ^ 64))

/-- Data and check bits of a 32-bit half of a checked Joiner memory (R51, R98): five bytes a half. -/
def halfRaw (m : Mem) (i : Nat) : Nat × Nat := (mreadN m (5 * i) 4, (mread m (5 * i + 4)).toNat)

def halfPut (m : Mem) (i data check : Nat) : Mem := mwriteN m (5 * i) 5 (data % 2 ^ 32 + check % 128 * 2 ^ 32)

def halfStore (m : Mem) (i data : Nat) : Mem := halfPut m i data (checkBits cols39 (data % 2 ^ 32))

def halfDecode (m : Mem) (i : Nat) : Ecc :=
  let r := halfRaw m i
  secded cols39 7 r.1 r.2

/-- A 32-bit half read under its code (R51): the raw word, corrected where it can be, and how. -/
def readHalf (m : Mem) (i : Nat) : Word × Ecc :=
  let d := halfDecode m i
  match d with
  | .corrected x => (BitVec.ofNat 32 x, d)
  | _ => (BitVec.ofNat 32 (halfRaw m i).1, d)

def Joiner.rd (j : Joiner) (r : Reg) : Word := if r = 0 then 0 else j.regs[r.toFin]

def Joiner.bank (j : Joiner) (b : Bool) : Mem := if b then j.bank1 else j.bank0

/-- Bits of `new` under the mask, the rest of `old`. -/
def mergeBits (old new mask : Nat) : Nat := old - (old &&& mask) + (new &&& mask)

end Sys2Proof.Machine
end

