-- ==== Sys2Proof/Machine/Pegs.lean ====
section
/-! DEFINITION. Pegs: the wait test, changes, takes and the choice of who starts (R365 to R395). -/

namespace Sys2Proof.Machine

/-- The wait test on a circle of 2^16 steps (R366). -/
def holds (v th : Nat) : Bool := decide ((v + 65536 - th) % 65536 < 32768)

/-- One wait in use: take-wait or watch-wait, its peg and threshold, and whether it is wait B. -/
structure Wait where
  take : Bool
  peg : Nat
  th : Nat
  waitB : Bool
  deriving DecidableEq, Repr

def pegIx (p : Nat) : Fin 48 := ⟨p % 48, Nat.mod_lt p (by decide)⟩

def Ashlar.peg (v : Ashlar) (p : Nat) : Peg := v.pegs[pegIx p]

def Ashlar.setPeg (v : Ashlar) (p : Nat) (q : Peg) : Ashlar := { v with pegs := v.pegs.set (pegIx p) q }

def pegValues (v : Ashlar) : List Nat := v.pegs.toList.map fun p => p.value.toNat

/-- One candidate's waits on the running values; none where it does not start (R376). -/
def tryWaits (start : List Nat) : List Wait → List Nat → Option (List Nat)
  | [], trial => some trial
  | w :: r, trial =>
    if w.take then
      let x := trial.getD w.peg 0
      if holds x w.th then tryWaits start r (trial.set w.peg ((x + 65536 - w.th) % 65536)) else none
    else if holds (start.getD w.peg 0) w.th then tryWaits start r trial else none

/-- The waiters that start in one cycle, in the fixed order (R376): each candidate's number with its waits. -/
def decideStarts (start : List Nat) : List (Nat × List Wait) → List Nat → List Nat
  | [], _ => []
  | c :: r, run =>
    match tryWaits start c.2 run with
    | some run' => c.1 :: decideStarts start r run'
    | none => decideStarts start r run

/-- The waits of one waiter that do not hold, in order: a take is judged on what the takes before it leave, a watch on the
start value (R376, R388). -/
def unmet (start : List Nat) : List Wait → List Nat → List Wait
  | [], _ => []
  | w :: r, trial =>
    let x := if w.take then trial.getD w.peg 0 else start.getD w.peg 0
    if !holds x w.th then w :: unmet start r trial
    else unmet start r (if w.take then trial.set w.peg ((x + 65536 - w.th) % 65536) else trial)

/-- The takes of a waiter that starts (R374). -/
def takeAll (v : Ashlar) (ws : List Wait) : Ashlar :=
  ws.foldl (fun u w => if w.take then u.setPeg w.peg { u.peg w.peg with value := (u.peg w.peg).value - BitVec.ofNat 16 w.th }
    else u) v

/-- A change of a peg: applied, or added to DEFERRED while the ashlar is frozen (R369, R383). -/
def bumpPeg (v : Ashlar) (p : Nat) (inc : Half) : Ashlar :=
  let q := v.peg p
  if v.frozen then v.setPeg p { q with deferred := q.deferred + inc }
  else v.setPeg p { q with value := q.value + inc }

/-- The last-signaller record of a change (R389, R392). -/
def markPeg (v : Ashlar) (p : Nat) (inc : Half) (kind : BitVec 3) (sub : BitVec 3) (src : Dest) : Ashlar :=
  v.setPeg p { v.peg p with
    src := src, kind := kind, sub := sub, multi := false, inc := BitVec.ofNat 8 inc.toNat, signalled := true }

/-- A peg's value written by the Mason: its last-signaller record reads KIND 7 (R385, R389, R392). -/
def writePeg (v : Ashlar) (p : Nat) (x : Half) (src : Dest) : Ashlar :=
  markPeg (v.setPeg p { v.peg p with value := x }) p (x - (v.peg p).value) 7 0 src

/-- A peg's change with its record (R368, R389). -/
def signalPeg (v : Ashlar) (p : Nat) (inc : Half) (kind : BitVec 3) (sub : BitVec 3) (src : Dest) : Ashlar :=
  markPeg (bumpPeg v p inc) p inc kind sub src

/-- A signal applied in an ashlar by the ashlar itself or its Mason (R368). -/
def State.signal (s : State) (a : Ash) (p : Nat) (inc : Half) (kind : BitVec 3) (sub : BitVec 3) : State :=
  s.onAsh a fun v => signalPeg v p inc kind sub (ashDest s a)

/-- The changes of one cycle from one source: a second change of one peg adds and sets MULTI (R369, R389). -/
def signalAll (kind : BitVec 3) (sub : BitVec 3) (src : Dest) : List (Nat × Half) → List Nat → Ashlar → Ashlar
  | [], _, v => v
  | c :: r, done, v =>
    if done.contains c.1 then
      let u := bumpPeg v c.1 c.2
      signalAll kind sub src r done (u.setPeg c.1 { u.peg c.1 with multi := true })
    else signalAll kind sub src r (c.1 :: done) (signalPeg v c.1 c.2 kind sub src)

/-- Whether a signal from another ashlar is refused for its job (R382). -/
def pegRefused (v : Ashlar) (job : Half) : Bool := !v.ctxValid || v.job != job

/-- A refusal for JOB: counted, PEG_JOB raised, nothing changed (R382). -/
def State.refuseJob (s : State) (a : Ash) : State := (s.count16 (.ash a) 0x718 0 1).raise (.ash a) evPegJob 0

/-- Whether a peg's bit in ASH.PEG_EXEMPT is set (R394). -/
def pegExempt (s : State) (a : Ash) (p : Nat) : Bool :=
  if p < 32 then bit (s.reg (.ash a) 0x70C) p else bit (s.reg (.ash a) 0x710) (p - 32)

/-- A write to ASH.PEG_SIG: a Mason signal (R394, R395). -/
def writePegSig (s : State) (a : Ash) (w : Word) : State :=
  if bits w 16 16 = 0 then s
  else if 48 ≤ bits w 0 6 then s.record (.ash a) evErrRange 0
  else s.signal a (bits w 0 6) (BitVec.ofNat 16 (bits w 16 16)) 7 0

/-- The ashlar after a fetch-and-add; a delta of 0 changes nothing (R378, R389, R392). -/
def applyFadd (v : Ashlar) (p : Nat) (delta : Half) (src : Dest) : Ashlar :=
  if delta = 0 then v else signalPeg v p delta 6 0 src

/-- Every DEFERRED sum added to its value (R383). -/
def addDeferred (v : Ashlar) : Ashlar :=
  { v with pegs := v.pegs.map fun q => { q with value := q.value + q.deferred, deferred := 0 } }

end Sys2Proof.Machine
end

