-- ==== Sys2Proof/Machine/Windows.lean ====
section
/-! DEFINITION. Windows and rings: how a declared range names physical words (R58, R266, R270), and checked reads and
writes of scratchpad words under the protection classes (R257 to R263, R67). -/

namespace Sys2Proof.Machine

def winIx (n : Nat) : Fin 16 := ⟨n % 16, Nat.mod_lt n (by decide)⟩

def Ashlar.win (v : Ashlar) (n : Nat) : Window := v.windows[winIx n]

def Ashlar.setWin (v : Ashlar) (n : Nat) (w : Window) : Ashlar := { v with windows := v.windows.set (winIx n) w }

/-! ### Ring geometry (R298) -/

def Window.nslots (w : Window) : Nat := if bits w.ring 0 4 = 0 then 16 else bits w.ring 0 4

def Window.slotWords (w : Window) : Nat := bits w.ring 4 13

def Window.pop (w : Window) : Bool := bit w.ring 17

def Window.isLoadRing (w : Window) : Bool := w.valid && w.kind == 1

def Window.isStoreRing (w : Window) : Bool := w.valid && w.kind == 2

def Window.isMsgRing (w : Window) : Bool := w.valid && w.kind == 3

def Window.isRing (w : Window) : Bool := w.isLoadRing || w.isStoreRing

/-- The head slot (R270). -/
def Window.head (w : Window) : Nat := (w.tail.toNat + w.occ.toNat) % w.nslots

/-- Slots that a range of a ring covers (R270). -/
def Window.slotsOf (w : Window) (start len : Nat) : Nat := (start + len + w.slotWords - 1) / w.slotWords

/-! ### Declared ranges (R58) -/

def rangeWin (r : Word) : Nat := bits r 28 4
def rangeStart (r : Word) : Nat := bits r 15 13
def rangeLen (r : Word) : Nat := bits r 2 13

/-- Word k of an engine instruction. -/
def iw (i : EngInstr) (k : Nat) : Word := i.words.getD k 0

/-- Declared range k: 0 RANGE_A, 1 RANGE_B, 2 RANGE_W. -/
def irange (i : EngInstr) (k : Nat) : Word := iw i (3 + k)

/-- The slot sampled at the start for range k (R270). -/
def islot (i : EngInstr) (k : Nat) : Nat :=
  match k with
  | 0 => i.slotA
  | 1 => i.slotB
  | _ => i.slotW

/-- The physical word of word o of a window, where the window has it (R266, R270, R344). -/
def winWord (w : Window) (slot o : Nat) : Option Nat :=
  if !w.valid then none
  else if w.isRing then
    if w.slotWords = 0 then none
    else some (w.base.toNat + (slot + o / w.slotWords) % w.nslots * w.slotWords + o % w.slotWords)
  else if o < w.size.toNat then some (w.base.toNat + o) else none

/-- The words a range of a plain window covers, for the scoreboard; rings are not entered (R64, R68). -/
def rangePhys (v : Ashlar) (r : Word) : List PRange :=
  let w := v.win (rangeWin r)
  if rangeLen r = 0 || !w.valid || w.kind != 0 then []
  else [⟨w.base.toNat + rangeStart r, rangeLen r⟩]

/-- Two ranges share a physical word (R65). -/
def PRange.meets (p q : PRange) : Bool := decide (p.start < q.start + q.len) && decide (q.start < p.start + p.len)

/-! ### One instruction's run over the scratchpad -/

/-- A fault found while an instruction runs: KIND, RANGE (R90), the address it concerns and its event. -/
structure Flt where
  kind : Nat
  rng : Nat
  addr : Nat
  ev : Ev
  deriving DecidableEq, Repr

/-- An instruction's run: the ashlar so far, corrected and uncorrectable reads, and the first fault (R78, R80). -/
structure Run where
  v : Ashlar
  ce : Nat
  ue : Nat
  fault : Option Flt
  deriving DecidableEq, Repr

def Run.start (v : Ashlar) : Run := ⟨v, 0, 0, none⟩

/-- The first fault of a run is kept (R80). -/
def Run.fail (r : Run) (f : Flt) : Run :=
  match r.fault with
  | none => { r with fault := some f }
  | some _ => r

/-- The event of an uncorrectable read under a class (R263). -/
def ueEvent (cls : Nat) : Ev := if cls = 0 then evSpadParity else evSpadUe

/-- A word written: a write-back of an older correction of it is abandoned (R262, R265). -/
def storeWord (v : Ashlar) (w data check : Nat) : Ashlar :=
  let u := spadPut v w data check
  { u with writeBacks := u.writeBacks.filter fun b => decide (b.word ≠ w) }

/-- A physical word read under a class by an engine: its data, or 0 with the fault recorded (R262, R263). -/
def readPhys (r : Run) (rng cls w : Nat) : Nat × Run :=
  let d := spadRaw r.v w
  match classDecode cls d.1 d.2 with
  | .clean => (d.1, r)
  | .corrected x =>
    (x, { r with
      ce := r.ce + 1
      v := { r.v with writeBacks := r.v.writeBacks ++ [⟨w, BitVec.ofNat 72 (x + checkBits cols72 x * 2 ^ 64)⟩] } })
  | .ue => (0, { r with ue := r.ue + 1 }.fail ⟨5, rng, w, ueEvent cls⟩)

/-- A mask of bits that covers whole bytes only. -/
def wholeBytes : Nat → Nat → Bool
  | 0, _ => true
  | n + 1, m => (m % 256 == 0 || m % 256 == 255) && wholeBytes n (m / 256)

/-- One bit a byte: the bytes a mask touches. -/
def byteMask : Nat → Nat → Nat
  | 0, _ => 0
  | n + 1, m => (if m % 256 = 0 then 0 else 1) + 2 * byteMask n (m / 256)

def fullMask : Nat := 2 ^ 64 - 1

/-- A physical word written under a class through a bit mask (R258, R261): whole words directly, whole bytes of class A
directly, anything else as a read-modify-write that an uncorrectable read stops. -/
def writePhys (r : Run) (rng cls w data mask : Nat) : Run :=
  if mask = 0 then r
  else if mask = fullMask then { r with v := storeWord r.v w data (classCheck cls data) }
  else if cls = 0 ∧ wholeBytes 8 mask then
    let d := spadRaw r.v w
    let x := mergeBits d.1 data mask
    { r with v := storeWord r.v w x (mergeBits d.2 (parityBits 8 x) (byteMask 8 mask)) }
  else
    let d := spadRaw r.v w
    match classDecode cls d.1 d.2 with
    | .clean => let x := mergeBits d.1 data mask; { r with v := storeWord r.v w x (classCheck cls x) }
    | .corrected y =>
      let x := mergeBits y data mask
      { r with ce := r.ce + 1, v := storeWord r.v w x (classCheck cls x) }
    | .ue => { r with ue := r.ue + 1 }.fail ⟨5, rng, w, ueEvent cls⟩

/-- The physical word and class of word o of declared range k, or the KIND of the fault (R67, R90). -/
def locate (v : Ashlar) (i : EngInstr) (k o : Nat) : Except Nat (Nat × Nat) :=
  let r := irange i k
  if rangeLen r ≤ o then .error 2
  else
    let w := v.win (rangeWin r)
    match winWord w (islot i k) (rangeStart r + o) with
    | some p => .ok (p, w.cls.toNat)
    | none => .error 1

/-- Word o of declared range k read by an engine; a suppressed read delivers 0 (R67, R78). -/
def readWord (r : Run) (i : EngInstr) (k o : Nat) : Nat × Run :=
  match locate r.v i k o with
  | .ok (p, cls) => readPhys r k cls p
  | .error kind => (0, r.fail ⟨kind, k, 0, evWindowFault⟩)

/-- Word o of declared range k written through a bit mask; a suppressed write changes nothing (R67, R78). -/
def writeWordAt (r : Run) (i : EngInstr) (k o data mask : Nat) : Run :=
  match locate r.v i k o with
  | .ok (p, cls) => writePhys r k cls p data mask
  | .error kind => r.fail ⟨kind, k, 0, evWindowFault⟩

/-- Word o of RANGE_W written through a bit mask. -/
def writeWord (r : Run) (i : EngInstr) (o data mask : Nat) : Run := writeWordAt r i 2 o data mask

/-- Word o of declared range k read for a read-modify-write: its data, and whether it may be written (R258, R261). -/
def readRmw (r : Run) (i : EngInstr) (k o : Nat) : (Nat × Bool) × Run :=
  let x := readWord r i k o
  ((x.1, x.2.ue == r.ue), x.2)

/-- The write of a read-modify-write whose read was `old`: the word whole, with the bits outside the mask as read; not
performed where the read was uncorrectable (R258, R261). -/
def writeRmw (r : Run) (i : EngInstr) (k o : Nat) (old : Nat × Bool) (data mask : Nat) : Run :=
  if old.2 then writeWordAt r i k o (mergeBits old.1 data mask) fullMask else r

/-- n words of range k from word o. -/
def readWords (r : Run) (i : EngInstr) (k o : Nat) : Nat → List Nat × Run
  | 0 => ([], r)
  | n + 1 =>
    let x := readWord r i k o
    let y := readWords x.2 i k (o + 1) n
    (x.1 :: y.1, y.2)

/-- The error counts of a run entered in the page: corrected words, and uncorrectable ones beyond the one the fault's
event counts (R262, R263, R709). -/
def State.countRun (s : State) (a : Ash) (ce ue extra : Nat) : State :=
  let t := (s.count16 (.ash a) 0x3B0 0 ce).count16 (.ash a) 0x3B0 16 ue
  (List.range (ce + extra)).foldl (fun u _ => u.countErr (.ash a)) t

end Sys2Proof.Machine
end

