-- ==== Sys2Proof/Machine/Engine.lean ====
section
/-! DEFINITION. What the four engines share: waits and signals of an instruction (R57 to R63), the scoreboard and the
rings (R64 to R68, R270 to R275), starting, faulting, retiring reads and completing (R53 to R56, R60 to R66, R78, R79). -/

namespace Sys2Proof.Machine

/-! ### The common words (R58) -/

def opcodeOf (i : EngInstr) : Nat := bits (iw i 0) 24 6

/-- The waits in use, wait A before wait B. -/
def waitsOf (words : List Word) : List Wait :=
  let w0 := words.getD 0 0
  let w1 := words.getD 1 0
  (if bits w0 18 2 = 0 then [] else [⟨bits w0 18 2 == 1, bits w0 12 6, bits w1 16 16, false⟩]) ++
  (if bits w0 10 2 = 0 then [] else [⟨bits w0 10 2 == 1, bits w0 4 6, bits w1 0 16, true⟩])

/-- The signals of a mode, signal A before signal B: peg and increment. -/
def signalsOf (words : List Word) (mode : Nat) : List (Nat × Half) :=
  let w := words.getD 2 0
  (if bits w 24 2 = mode then [(bits w 26 6, BitVec.ofNat 16 (bits w 16 8))] else []) ++
  (if bits w 8 2 = mode then [(bits w 10 6, BitVec.ofNat 16 (bits w 0 8))] else [])

/-- The reduction destination of a vector instruction (R234); OPTUPD has none. -/
def rdstOf (engine : Engine) (words : List Word) : Reg :=
  if engine = .vector ∧ bits (words.getD 0 0) 24 6 ≠ 0x30 then BitVec.ofNat 5 (bits (words.getD 6 0) 18 5) else 0

/-! ### The queues -/

def Ashlar.eng (v : Ashlar) (e : Engine) : EngineState := v.engines[engineIx e]

def Ashlar.setEng (v : Ashlar) (e : Engine) (q : EngineState) : Ashlar :=
  { v with engines := v.engines.set (engineIx e) q }

/-- Every instruction in flight that has been decoded. -/
def inFlight (v : Ashlar) : List EngInstr := v.engines.toList.flatMap fun q => q.queue

/-- Instructions issued to an engine and not completed, the one being transferred included (R53, R86). -/
def engDepth (v : Ashlar) (e : Engine) : Nat :=
  (v.eng e).queue.length + (match v.transfer with
    | some i => if i.engine = e then 1 else 0
    | none => 0)

/-- The head of a queue that has not started (R55). -/
def headOf (v : Ashlar) (e : Engine) : Option EngInstr := (v.eng e).queue.find? fun i => decide (i.phase = .ready)

/-- The change made to one instruction of a queue. -/
def updInstr (v : Ashlar) (e : Engine) (order : Nat) (f : EngInstr → EngInstr) : Ashlar :=
  let q := v.eng e
  v.setEng e { q with queue := q.queue.map fun i => if i.order = order then f i else i }

/-- One instruction taken out of its queue: its scoreboard entry leaves with it. -/
def dropInstr (v : Ashlar) (e : Engine) (order : Nat) : Ashlar :=
  let q := v.eng e
  v.setEng e { q with queue := q.queue.filter fun i => decide (i.order ≠ order) }

/-- Whether an engine has no room to start its head: a program slot for the stream engine, the last read of the current
instruction for the vector engine, its completion for the others (R55, R279). -/
def engBusy (v : Ashlar) (e : Engine) : Bool :=
  match e with
  | .stream => v.progs.toList.all fun p => p.running
  | .vector => (v.eng e).queue.any fun i => i.phase = .running || i.phase = .executed
  | _ => (v.eng e).queue.any fun i => decide (i.phase ≠ .ready)

/-- Whether an engine executes (R86): an instruction that has faulted does until it has run to its end (R78). -/
def engExecuting (v : Ashlar) (e : Engine) : Bool :=
  (v.eng e).queue.any fun i =>
    i.phase = .running || (!i.faulted && (i.phase = .executed || i.phase = .readsRetired))

/-! ### The scoreboard and the rings -/

/-- Every declared range of an instruction that is on the scoreboard. -/
def boardRanges (i : EngInstr) : List PRange := i.reads ++ i.write.toList

/-- No range conflict with an earlier instruction in flight (R65). -/
def rangesFree (v : Ashlar) (i : EngInstr) : Bool :=
  (inFlight v).all fun o => decide (i.order ≤ o.order) ||
    (!(o.write.toList.any fun w => (boardRanges i).any w.meets)
      && !(i.write.toList.any fun w => o.reads.any w.meets))

/-- Whether declared range k of an instruction names a window. -/
def namesWin (i : EngInstr) (k n : Nat) : Bool := rangeLen (irange i k) != 0 && rangeWin (irange i k) == n

/-- Whether an instruction names a window: by a range, or as the ring of an SLOAD, SSTORE or RPOP. -/
def namesRing (i : EngInstr) (n : Nat) : Bool :=
  namesWin i 0 n || namesWin i 1 n || namesWin i 2 n
    || (i.engine = .stream && (opcodeOf i == 1 || opcodeOf i == 2) && bits (iw i 7) 20 4 == n)
    || (i.engine = .stream && opcodeOf i == 5 && bits (iw i 6) 0 4 == n)

/-- Slots that range k of an instruction covers in a ring (R270). -/
def ringSlots (v : Ashlar) (i : EngInstr) (k : Nat) : Nat :=
  (v.win (rangeWin (irange i k))).slotsOf (rangeStart (irange i k)) (rangeLen (irange i k))

/-- Whether range k names a load ring, or a store ring. -/
def rangeLoad (v : Ashlar) (i : EngInstr) (k : Nat) : Bool :=
  rangeLen (irange i k) != 0 && (v.win (rangeWin (irange i k))).isLoadRing
def rangeStore (v : Ashlar) (i : EngInstr) (k : Nat) : Bool :=
  rangeLen (irange i k) != 0 && (v.win (rangeWin (irange i k))).isStoreRing

/-- Earlier instructions in flight. -/
def earlier (v : Ashlar) (i : EngInstr) : List EngInstr := (inFlight v).filter fun o => decide (o.order < i.order)

/-- Whether an instruction has a pop of ring n still to make: at its completion where it writes into the ring, when its
reads retire otherwise; one that has faulted makes all of them at its end (R78, R271). -/
def yetToPop (i : EngInstr) (n : Nat) : Bool :=
  (namesWin i 2 n && !(i.faulted && i.popped)) || ((namesWin i 0 n || namesWin i 1 n) && !i.popped)

/-- Whether range k of an instruction is ready in its ring (R271, R272). -/
def ringReady (v : Ashlar) (i : EngInstr) (k : Nat) : Bool :=
  let n := rangeWin (irange i k)
  let w := v.win n
  if rangeLoad v i k then
    decide (ringSlots v i k ≤ w.occ.toNat)
      && !((earlier v i).any fun o => o.engine = .stream && opcodeOf o == 5 && namesRing o n)
      && (!w.pop || !((earlier v i).any fun o => yetToPop o n))
  else if rangeStore v i k then
    decide (ringSlots v i k ≤ w.nslots - w.occ.toNat) && !((earlier v i).any fun o => namesWin o 2 n)
  else true

/-- Whether a stream instruction names a ring that a running program holds (R273). -/
def ringHeld (v : Ashlar) (i : EngInstr) : Bool :=
  i.engine = .stream && (List.range 16).any fun n => namesRing i n && (v.win n).held

/-- Whether an instruction has a read of a ring that has not retired, or a write into one that has not completed: a load
program writes its ring until it completes (R293). -/
def stillUses (i : EngInstr) : Bool :=
  i.phase != .readsRetired || rangeLen (irange i 2) != 0 || (i.engine = .stream && opcodeOf i == 1)

/-- Whether an RPOP has its slots and no earlier user of the ring at work (R293). -/
def rpopReady (v : Ashlar) (i : EngInstr) : Bool :=
  if i.engine = .stream ∧ opcodeOf i = 5 then
    let n := bits (iw i 6) 0 4
    decide (bits (iw i 6) 4 5 ≤ (v.win n).occ.toNat) && !((earlier v i).any fun o => namesRing o n && stillUses o)
  else true

/-- Whether a stream instruction finds its rings free (R273, R293). -/
def streamReady (v : Ashlar) (i : EngInstr) : Bool := !ringHeld v i && rpopReady v i

/-- An instruction that can never have its slots (R275). -/
def ringOverflow (v : Ashlar) (i : EngInstr) : Bool :=
  [0, 1, 2].any (fun k => (rangeLoad v i k || rangeStore v i k)
    && decide ((v.win (rangeWin (irange i k))).nslots < ringSlots v i k))
  || (i.engine = .stream && opcodeOf i == 5 && decide ((v.win (bits (iw i 6) 0 4)).nslots < bits (iw i 6) 4 5))

/-- The range an overflow names: RANGE_A, RANGE_B or RANGE_W, or none for an RPOP (R90). -/
def overflowRange (v : Ashlar) (i : EngInstr) : Nat :=
  match [0, 1, 2].find? (fun k => (rangeLoad v i k || rangeStore v i k)
    && decide ((v.win (rangeWin (irange i k))).nslots < ringSlots v i k)) with
  | some k => k
  | none => 3

/-- Mask buffers a vector instruction reads (R234, R240); OPTUPD has none. -/
def masksRead (i : EngInstr) : List Nat :=
  let w := iw i 6
  let opc := opcodeOf i
  if i.engine ≠ .vector ∨ opc = 0x30 then []
  else
    (if bits w 12 2 ≠ 0 ∨ opc = 0x0B ∨ opc = 0x25 ∨ (opc = 0x26 ∧ bits w 4 4 ≤ 4) then [bits w 14 2] else []) ++
    (if opc = 0x26 ∧ bits w 4 4 ≤ 3 then [bits (iw i 10) 0 2] else [])

/-- Mask buffers a vector instruction writes: CMP, MLOAD and MLOGIC write MDST (R234). -/
def masksWritten (i : EngInstr) : List Nat :=
  let opc := opcodeOf i
  if i.engine = .vector ∧ (opc = 0x0C ∨ opc = 0x24 ∨ opc = 0x26) then [bits (iw i 6) 16 2] else []

/-- Every earlier vector instruction that writes a mask buffer this one uses has completed (R241). -/
def masksReady (v : Ashlar) (i : EngInstr) : Bool :=
  !((earlier v i).any fun o => (masksWritten o).any fun k => (masksRead i ++ masksWritten i).contains k)

/-- Whether an instruction may start, its waits apart (R65, R241, R271 to R273, R293). -/
def eligible (v : Ashlar) (i : EngInstr) : Bool :=
  rangesFree v i && masksReady v i && ringReady v i 0 && ringReady v i 1 && ringReady v i 2 && streamReady v i

/-- The head that an engine could take up now: none while it is busy, and none while it is FAULTED, when its head is the
faulted instruction until RESUME retires it (R55, R79, R87). -/
def frontOf (v : Ashlar) (e : Engine) : Option EngInstr :=
  if (v.eng e).faulted || engBusy v e then none else headOf v e

/-- An engine's candidate of a cycle: its head, blocked by nothing but its waits (R376). -/
def candidateOf (v : Ashlar) (e : Engine) : Option EngInstr :=
  match headOf v e with
  | none => none
  | some i => if v.frozen || (v.eng e).faulted || engBusy v e || !eligible v i then none else some i

/-- The candidates of the four engines with their waits, in the fixed order (R376). -/
def engCandidates (v : Ashlar) : List (Nat × List Wait) :=
  [Engine.matrix, .vector, .stream, .send].filterMap fun e =>
    (candidateOf v e).map fun i => ((engineIx e).val, waitsOf i.words)

/-- The wait of a Joiner that stalls in a PWAIT: what its instruction at PC names (R120, R388). -/
def joinerWait (v : Ashlar) : List Wait :=
  let j := v.joiner
  let w := (readHalf (j.bank j.active) j.pc.toNat).1
  if j.state = .stalled ∧ j.stall = 3 ∧ bits w 26 6 = 0x29 then
    [⟨bits w 6 2 == 1, bits w 0 6, bits (j.rd (BitVec.ofNat 5 (bits w 16 5))) 0 16, false⟩]
  else []

/-- The candidates of a cycle that have not been started, the Joiner's wait last; none while frozen (R376). -/
def candidates (v : Ashlar) (engines : List (Nat × List Wait)) (jw : List Wait) : List (Nat × List Wait) :=
  if v.frozen then []
  else (engines ++ if jw.isEmpty then [] else [(4, jw)]).filter fun c => !v.won.contains c.1

/-- Whether waiter n (0 to 3 an engine, 4 the Joiner) starts among the candidates (R376). -/
def startsNow (v : Ashlar) (cands : List (Nat × List Wait)) (n : Nat) : Bool :=
  (decideStarts (pegValues v) cands (pegValues v)).contains n

/-- One cycle's decision (R376): every candidate that starts takes what it takes, all judged on the values the cycle begins
with, and is marked as started until its own command comes. -/
def decideCycle (v : Ashlar) (cands : List (Nat × List Wait)) : Ashlar :=
  let st := decideStarts (pegValues v) cands (pegValues v)
  { (cands.filter fun c => st.contains c.1).foldl (fun u c => takeAll u c.2) v with won := v.won ++ st }

/-- The decision of a cycle in which the Joiner's wait is the one given. -/
def decideNow (v : Ashlar) (jw : List Wait) : Ashlar := decideCycle v (candidates v (engCandidates v) jw)

/-- Whether waiter n goes: a cycle has started it, or this one does (R376). -/
def passes (v : Ashlar) (jw : List Wait) (n : Nat) : Bool :=
  v.won.contains n || startsNow v (candidates v (engCandidates v) jw) n

/-- Waiter n goes: the cycle's decision is made where it has not been made before (R376). -/
def passWaiter (v : Ashlar) (jw : List Wait) (n : Nat) : Ashlar :=
  let u := if v.won.contains n then v else decideNow v jw
  { u with won := u.won.erase n }

/-- The head of an engine that starts now: blocked by nothing, its waits satisfied in its turn (R60, R63, R65). -/
def startable (v : Ashlar) (e : Engine) : Option EngInstr :=
  match candidateOf v e with
  | none => none
  | some i => if passes v (joinerWait v) (engineIx e).val then some i else none

/-! ### Starting, faulting and ending -/

/-- The slot a range samples at the start: a load ring's tail, a store ring's head (R270). -/
def sampleSlot (v : Ashlar) (i : EngInstr) (k : Nat) : Nat :=
  let w := v.win (rangeWin (irange i k))
  if rangeStore v i k then w.head else w.tail.toNat

/-- An instruction as it starts. -/
def started (v : Ashlar) (i : EngInstr) : EngInstr :=
  { i with phase := .running, slotA := sampleSlot v i 0, slotB := sampleSlot v i 1, slotW := sampleSlot v i 2 }

/-- A waiter's watchdog back at 0 (R386): waiter 0 to 3 an engine, 4 the Joiner. -/
def clearDog (v : Ashlar) (n : Nat) : Ashlar := { v with watchdogs := v.watchdogs.set (ix 5 n (by decide)) ⟨0, false⟩ }

/-- The ashlar in which an instruction has just started: the takes of its cycle made, its watchdog at 0 (R60, R374, R376,
R386). -/
def startIn (v : Ashlar) (i : EngInstr) : Ashlar :=
  clearDog (updInstr (passWaiter v (joinerWait v) (engineIx i.engine).val) i.engine i.order fun _ => started v i)
    (engineIx i.engine).val

/-- ASH.FAULT_INFO filled while it holds no fault (R80, R90). -/
def State.faultInfo (s : State) (a : Ash) (e : Engine) (kind rng seq : Nat) : State :=
  if s.fld (.ash a) 0x58 31 1 = 1 then s
  else s.setReg (.ash a) 0x58
    (BitVec.ofNat 32 ((engineIx e).val + kind * 4 + rng * 64 + seq * 256 + 2 ^ 31))

/-- An instruction marked faulted, its engine FAULTED and the fault recorded (R78, R90). -/
def State.markFault (s : State) (a : Ash) (i : EngInstr) (kind rng : Nat) : State :=
  let s1 := s.onAsh a fun v =>
    let u := updInstr v i.engine i.order fun j => { j with faulted := true, phase := .executed }
    u.setEng i.engine { u.eng i.engine with faulted := true }
  s1.faultInfo a i.engine kind rng i.seq.toNat

/-- An instruction's fault raised; of a weight of wrong parity the byte of the buffer goes with the report (R633). -/
def raiseFlt (s : State) (a : Ash) (f : Flt) : State :=
  if f.ev = evMxParity then s.raiseWord (.ash a) f.ev ((s.ash a).active.badParity.headD 0) else s.raise (.ash a) f.ev f.addr

/-- An executing instruction faults: marked, and its event raised (R78). -/
def State.faultInstr (s : State) (a : Ash) (i : EngInstr) (f : Flt) : State :=
  raiseFlt (s.markFault a i f.kind f.rng) a f

/-- A fault of an instruction that goes on: marked and recorded, its phase as it is (R78, R263). -/
def runsOn (s : State) (a : Ash) (i : EngInstr) (f : Flt) : State :=
  let s1 := s.onAsh a fun v =>
    let u := updInstr v i.engine i.order fun j => { j with faulted := true }
    u.setEng i.engine { u.eng i.engine with faulted := true }
  raiseFlt (s1.faultInfo a i.engine f.kind f.rng i.seq.toNat) a f

/-- The pop of a range of a load ring (R271). -/
def popRing (v : Ashlar) (n k : Nat) : Ashlar :=
  let w := v.win n
  v.setWin n { w with
    tail := BitVec.ofNat 4 ((w.tail.toNat + k) % w.nslots), occ := BitVec.ofNat 5 (w.occ.toNat - k) }

/-- The pops due to an instruction: for each load ring it reads with POP 1, once (R271). -/
def popRanges (v : Ashlar) (i : EngInstr) (writesToo : Bool) : Ashlar :=
  let ws := [0, 1, 2].filter fun k => rangeLoad v i k && (v.win (rangeWin (irange i k))).pop
  let rings := (ws.map fun k => rangeWin (irange i k)).eraseDups
  rings.foldl (fun u n =>
    let k := (ws.filter fun k => rangeWin (irange i k) == n).foldl (fun m k => max m (ringSlots v i k)) 0
    if namesWin i 2 n = writesToo then popRing u n k else u) v

/-- The slots an instruction pops or fills in its completion cycle (R271, R272). -/
def completeRings (v : Ashlar) (i : EngInstr) : Ashlar :=
  let u := popRanges v i true
  if rangeStore u i 2 then
    let n := rangeWin (irange i 2)
    let w := u.win n
    u.setWin n { w with occ := BitVec.ofNat 5 (w.occ.toNat + ringSlots u i 2) }
  else u

/-- A faulted instruction has run to its end: its ring slots are popped and filled as at any end, its entry stays. DEDUCED
(log 198): R78 withholds its signals and its later accesses, and no slot. -/
def ranToEnd (v : Ashlar) (i : EngInstr) : Ashlar :=
  updInstr (completeRings (if i.popped then v else popRanges v i false) i) i.engine i.order fun j =>
    { j with phase := .executed, popped := true }

/-- What a run leaves: the ashlar, the error counts, and either an executed instruction or a fault (R78, R80). -/
def State.commitRun (s : State) (a : Ash) (i : EngInstr) (r : Run) : State :=
  let s1 := s.setAsh a r.v
  match r.fault with
  | none =>
    (s1.countRun a r.ce r.ue 0).onAsh a fun v => updInstr v i.engine i.order fun j => { j with phase := .executed }
  | some f =>
    ((s1.countRun a r.ce r.ue (r.ue - (if f.kind = 5 then 1 else 0))).faultInstr a i f).onAsh a fun v => ranToEnd v i

/-- All ones on their way to the register of a scalar result whose instruction has faulted (R247). -/
def noScalar (v : Ashlar) (rd : Reg) : Ashlar :=
  if rd = 0 then v
  else { v with joiner := { v.joiner with results := v.joiner.results ++ [(rd, 0xFFFFFFFF)] } }

/-- The head of an engine whose opcode is one of these starts and does its work; a head that can never have its slots
faults; otherwise nothing happens yet (R60, R275). -/
def startHead (s : State) (a : Ash) (e : Engine) (want : EngInstr → Bool) (body : State → EngInstr → State) : State :=
  let v := s.ash a
  match headOf v e with
  | none => s
  | some h =>
    if !want h then s
    else if ringOverflow v h && !v.frozen && !(v.eng e).faulted then
      (s.faultInstr a h ⟨9, overflowRange v h, 0, evRingFault⟩).onAsh a fun u => noScalar u (rdstOf e h.words)
    else
      match startable v e with
      | none => s
      | some i => body (s.setAsh a (startIn v i)) (started v i)

/-- An instruction's reads retire: its read ranges leave, its ring slots pop, its 0b10 signals are applied unless it
faulted (R62, R66, R78, R271). -/
def retireReads (s : State) (a : Ash) (i : EngInstr) : State :=
  s.onAsh a fun v =>
    let u := if i.faulted then v else popRanges v i false
    let u1 := updInstr u i.engine i.order fun j =>
      { j with phase := .readsRetired, reads := [], popped := true }
    if i.faulted || i.early then u1
    else signalAll 1 (BitVec.ofNat 3 (engineIx i.engine).val) (ashDest s a) (signalsOf i.words 2) [] u1

/-- The first execution cycle of an instruction that makes no scratchpad read, a send or a load program: its 0b10 signals are
applied (R62, R288). -/
def signalEarly (s : State) (a : Ash) (i : EngInstr) : State :=
  if rangeLen (irange i 0) ≠ 0 then s
  else
    s.onAsh a fun v =>
      signalAll 1 (BitVec.ofNat 3 (engineIx i.engine).val) (ashDest s a) (signalsOf i.words 2) []
        (updInstr v i.engine i.order fun j => { j with early := true })

/-- An instruction completes: its 0b01 signals are applied, its ring slots filled or popped, its entry leaves (R62, R66,
R271, R272). -/
def completeInstr (s : State) (a : Ash) (i : EngInstr) : State :=
  s.onAsh a fun v =>
    signalAll 1 (BitVec.ofNat 3 (engineIx i.engine).val) (ashDest s a) (signalsOf i.words 1) []
      (dropInstr (completeRings v i) i.engine i.order)

/-- The oldest instruction in flight with an issue sequence number, in one of the phases wanted. -/
def findSeq (v : Ashlar) (seq : BitVec 5) (want : EngInstr → Bool) : Option EngInstr :=
  (inFlight v).foldl (fun best i =>
    if i.seq = seq && want i then
      match best with
      | some b => if b.order ≤ i.order then best else some i
      | none => some i
    else best) none

/-- The task boundary of R74. -/
def atBoundary (v : Ashlar) : Bool :=
  (v.joiner.state = .ended || v.joiner.state = .halted) && (inFlight v).isEmpty && v.transfer.isNone
    && !(v.progs.toList.any fun p => p.running)

/-- Whether context registers may be written: frozen or at a boundary (R89, R268). -/
def contextWritable (v : Ashlar) : Bool := v.frozen || atBoundary v

/-! ### Waiters as a debugger and the watchdog see them (R386, R388) -/

/-- The waits of waiter n while it is a candidate: an engine's head, or the Joiner's PWAIT given. -/
def waiterWaits (v : Ashlar) (joinerWait : List Wait) (n : Nat) : List Wait :=
  if v.won.contains n then []
  else if n < 4 then
    match candidateOf v (engineOf n) with
    | some i => waitsOf i.words
    | none => []
  else joinerWait

/-- The waits that do not hold, a second one on the same peg judged after the first has taken (R376). -/
def unsatisfied (v : Ashlar) (ws : List Wait) : List Wait := unmet (pegValues v) ws (pegValues v)

/-- The waiter masks of a peg: take bits and watch bits (R388). -/
def waiterMask (v : Ashlar) (joinerWait : List Wait) (p : Nat) (take : Bool) : BitVec 5 :=
  BitVec.ofNat 5 (([0, 1, 2, 3, 4].map fun n =>
    if (unsatisfied v (waiterWaits v joinerWait n)).any (fun w => w.peg == p && w.take == take) then 2 ^ n else 0).sum)

end Sys2Proof.Machine
end

