-- ==== Sys2Proof/Machine/Num.lean ====
section
/-! DEFINITION. Finpex values, exact arithmetic on them, and every rounding and conversion (chapter 05).

A finite value is a sign, a magnitude and a power of two, so sums and products are exact; a quotient or a function value
is carried as the floors of its binary expansion, which is all a rounding reads. -/

namespace Sys2Proof.Machine

/-- The value of an element: NaN, an infinity, or (-1)^neg · m · 2^e, with −0 distinct (R192). -/
inductive Val where
  | nan
  | inf (neg : Bool)
  | fin (neg : Bool) (m : Nat) (e : Int)
  deriving DecidableEq, Repr

/-- The four rounding modes (R198). -/
inductive RMode where
  | rne | rtz | sr | rto
  deriving DecidableEq, Repr

/-- RMODE of a conversion field. -/
def rmodeOf (n : Nat) : RMode :=
  match n with
  | 0 => .rne
  | 1 => .rtz
  | 2 => .sr
  | _ => .rto

namespace Val

def zero : Val := .fin false 0 0

/-- The integer n. -/
def ofInt (n : Int) : Val := .fin (n < 0) n.natAbs 0

def isNan : Val → Bool
  | .nan => true
  | _ => false

def isInf : Val → Bool
  | .inf _ => true
  | _ => false

def isZero : Val → Bool
  | .fin _ 0 _ => true
  | _ => false

/-- The sign bit; false for NaN. -/
def sign : Val → Bool
  | .nan => false
  | .inf n => n
  | .fin n _ _ => n

def neg : Val → Val
  | .nan => .nan
  | .inf n => .inf (!n)
  | .fin n m e => .fin (!n) m e

def abs : Val → Val
  | .nan => .nan
  | .inf _ => .inf false
  | .fin _ m e => .fin false m e

/-- a with the sign s. -/
def withSign (s : Bool) : Val → Val
  | .nan => .nan
  | .inf _ => .inf s
  | .fin _ m e => .fin s m e

/-- m · 2^e as an integer multiple of 2^t, for t ≤ e. -/
def scaleTo (m : Nat) (e t : Int) : Nat := m * 2 ^ (e - t).toNat

/-- The signed integer of a finite magnitude at scale 2^t. -/
def signedAt (n : Bool) (m : Nat) (e t : Int) : Int :=
  if n then -(scaleTo m e t : Int) else (scaleTo m e t : Int)

/-- The exact sum, with IEEE 754 infinities; a zero sum is +0 unless both addends are −0 (R213). -/
def add (a b : Val) : Val :=
  match a, b with
  | .nan, _ => .nan
  | _, .nan => .nan
  | .inf x, .inf y => if x = y then .inf x else .nan
  | .inf x, .fin _ _ _ => .inf x
  | .fin _ _ _, .inf y => .inf y
  | .fin na ma ea, .fin nb mb eb =>
    if ma = 0 ∧ mb = 0 then .fin (na && nb) 0 0
    else
      let t := min ea eb
      let s := signedAt na ma ea t + signedAt nb mb eb t
      .fin (s < 0) s.natAbs (if s = 0 then 0 else t)

def sub (a b : Val) : Val := add a (neg b)

/-- The exact product; 0 · ∞ is NaN (R213). -/
def mul (a b : Val) : Val :=
  match a, b with
  | .nan, _ => .nan
  | _, .nan => .nan
  | .inf x, .inf y => .inf (x ^^ y)
  | .inf x, .fin y m _ => if m = 0 then .nan else .inf (x ^^ y)
  | .fin x m _, .inf y => if m = 0 then .nan else .inf (x ^^ y)
  | .fin x ma ea, .fin y mb eb => .fin (x ^^ y) (ma * mb) (if ma * mb = 0 then 0 else ea + eb)

/-- a · 2^k, exactly. -/
def scale (a : Val) (k : Int) : Val :=
  match a with
  | .fin n m e => .fin n m (if m = 0 then 0 else e + k)
  | v => v

/-- a < b under IEEE 754: false when unordered, −0 = +0 (R211). -/
def lt (a b : Val) : Bool :=
  match a, b with
  | .nan, _ => false
  | _, .nan => false
  | .inf x, .inf y => x && !y
  | .inf x, .fin _ _ _ => x
  | .fin _ _ _, .inf y => !y
  | .fin na ma ea, .fin nb mb eb =>
    let t := min ea eb
    signedAt na ma ea t < signedAt nb mb eb t

/-- a = b under IEEE 754 (R211). -/
def eq (a b : Val) : Bool :=
  match a, b with
  | .nan, _ => false
  | _, .nan => false
  | .inf x, .inf y => x == y
  | .inf _, .fin _ _ _ => false
  | .fin _ _ _, .inf _ => false
  | .fin na ma ea, .fin nb mb eb =>
    let t := min ea eb
    signedAt na ma ea t == signedAt nb mb eb t

def le (a b : Val) : Bool := lt a b || eq a b

/-- The smaller operand, −0 below +0, NaN if either is NaN (R212). -/
def minimum (a b : Val) : Val :=
  if a.isNan || b.isNan then .nan
  else if lt a b then a
  else if lt b a then b
  else if a.sign then a else b

/-- The larger operand, −0 below +0, NaN if either is NaN (R212). -/
def maximum (a b : Val) : Val :=
  if a.isNan || b.isNan then .nan
  else if lt a b then b
  else if lt b a then a
  else if a.sign then b else a

/-- Exact sum of a list; −0 only when every addend is −0, +0 for none (R212, R213). -/
def sum : List Val → Val
  | [] => zero
  | [a] => a
  | a :: rest => add a (sum rest)

/-- The integer part toward minus infinity, 0 for NaN and infinities. -/
def floorInt : Val → Int
  | .fin n m e =>
    let s : Int := if n then -(m : Int) else (m : Int)
    if 0 ≤ e then s * 2 ^ e.toNat else s / (2 ^ (-e).toNat : Int)
  | _ => 0

end Val

/-! ### Formats (R188, R191) -/

/-- Width in bits of a format code; 0 for the reserved code. -/
def fmtWidth (f : Nat) : Nat :=
  match f with
  | 0 => 32 | 1 => 16 | 2 => 16 | 3 => 8 | 4 => 8 | 5 => 6 | 6 => 6 | 7 => 4 | 8 => 3 | 9 => 2
  | 10 => 8 | 11 => 4 | 12 => 32 | 13 => 16 | 14 => 8 | _ => 0

/-- Whether the format is a floating-point format, T2 among them (R284). -/
def fmtIsFloat (f : Nat) : Bool := f ≤ 9

def fmtIsInt (f : Nat) : Bool := 10 ≤ f && f ≤ 14

/-- Whether the format allows block scales (R188). -/
def fmtScalable (f : Nat) : Bool := 3 ≤ f && f ≤ 11

/-- Width m of the significand field (R191). -/
def fmtM (f : Nat) : Nat :=
  match f with
  | 0 => 23 | 1 => 7 | 2 => 10 | 3 => 3 | 4 => 2 | 5 => 3 | 6 => 2 | 7 => 1 | 8 => 1 | _ => 0

def fmtBias (f : Nat) : Int :=
  match f with
  | 0 => 127 | 1 => 127 | 2 => 15 | 3 => 7 | 4 => 15 | 5 => 1 | 6 => 3 | 7 => 1 | 8 => 1 | _ => 0

def fmtEmin (f : Nat) : Int := 1 - fmtBias f

/-- The largest finite magnitude as (m, e) for m · 2^e (R191, R193). -/
def fmtMax (f : Nat) : Nat × Int :=
  match f with
  | 0 => (2 ^ 24 - 1, 104) | 1 => (255, 120) | 2 => (2047, 5) | 3 => (7, 6) | 4 => (7, 13) | 5 => (15, -1)
  | 6 => (7, 2) | 7 => (3, 1) | 8 => (3, -1) | 9 => (1, 0)
  | 10 => (127, 0) | 11 => (7, 0) | 12 => (2 ^ 31 - 1, 0) | 13 => (32767, 0) | 14 => (255, 0) | _ => (0, 0)

/-- The limit for negative values: the magnitude of the smallest value (R200). -/
def fmtNegLim (f : Nat) : Nat × Int :=
  match f with
  | 10 => (128, 0) | 11 => (8, 0) | 12 => (2 ^ 31, 0) | 13 => (32768, 0) | 14 => (0, 0) | g => fmtMax g

/-- Whether the format has infinities (R191). -/
def fmtHasInf (f : Nat) : Bool :=
  match f with
  | 0 => true | 1 => true | 2 => true | 4 => true | _ => false

/-- Whether the format has NaN codes (R191). -/
def fmtHasNan (f : Nat) : Bool := fmtHasInf f || f == 3

/-- The canonical NaN code (R191). -/
def fmtNan (f : Nat) : Nat :=
  match f with
  | 0 => 0x7FC00000 | 1 => 0x7FC0 | 2 => 0x7E00 | 3 => 0x7F | 4 => 0x7E | _ => 0

/-- Exponent of the largest power of two not above the largest finite element (R191, R193, R194). -/
def fmtScaleEmax (f : Nat) : Int :=
  match f with
  | 3 => 8 | 4 => 15 | 5 => 2 | 6 => 4 | 7 => 2 | 8 => 0 | 9 => 0 | 10 => 6 | 11 => 2 | _ => 0

/-- A w-bit code read as a two's complement integer. -/
def signedCode (w c : Nat) : Int :=
  if 2 ^ (w - 1) ≤ c % 2 ^ w then (c % 2 ^ w : Int) - 2 ^ w else (c % 2 ^ w : Int)

/-- elem(f, c): the value of code c in format f (R192, R193). -/
def elem (f c : Nat) : Val :=
  if f = 9 then
    match c % 4 with
    | 0 => .fin false 0 0
    | 1 => .fin false 1 0
    | 2 => .fin true 0 0
    | _ => .fin true 1 0
  else if f = 14 then .fin false (c % 256) 0
  else if fmtIsInt f then Val.ofInt (signedCode (fmtWidth f) c)
  else
    let w := fmtWidth f
    let m := fmtM f
    let sgn := (c / 2 ^ (w - 1)) % 2 == 1
    let ee := (c / 2 ^ m) % 2 ^ (w - 1 - m)
    let mm := c % 2 ^ m
    let top := 2 ^ (w - 1 - m) - 1
    if ee = top ∧ fmtHasInf f then if mm = 0 then .inf sgn else .nan
    else if f = 3 ∧ ee = top ∧ mm = 7 then .nan
    else if ee = 0 then .fin sgn mm (if mm = 0 then 0 else fmtEmin f - m)
    else .fin sgn (2 ^ m + mm) ((ee : Int) - fmtBias f - m)

/-- floor(log2 (m · 2^e)) for m > 0. -/
def log2Of (m : Nat) (e : Int) : Int := (Nat.log2 m : Int) + e

/-- m · 2^e as an integer multiple of 2^t, with what is cut off: floor and exactness. -/
def floorAt (m : Nat) (e t : Int) : Nat × Bool :=
  if t ≤ e then (m * 2 ^ (e - t).toNat, true)
  else
    let d := 2 ^ (t - e).toNat
    (m / d, m % d == 0)

/-- The code of a value that format f holds exactly (code_of of R203); a zero keeps its sign where the format has −0. -/
def codeOf (f : Nat) (v : Val) : Nat :=
  let w := fmtWidth f
  match v with
  | .nan => fmtNan f
  | .inf n =>
    let m := fmtM f
    (if n then 2 ^ (w - 1) else 0) + (2 ^ (w - 1 - m) - 1) * 2 ^ m
  | .fin n mag e =>
    if f = 9 then
      if mag = 0 then (if n then 2 else 0) else (if n then 3 else 1)
    else if fmtIsInt f then
      let k := (floorAt mag e 0).1
      if n then (2 ^ w - k % 2 ^ w) % 2 ^ w else k % 2 ^ w
    else
      let m := fmtM f
      let s := if n then 2 ^ (w - 1) else 0
      if mag = 0 then s
      else
        let ex := log2Of mag e
        if ex < fmtEmin f then s + (floorAt mag e (fmtEmin f - m)).1
        else s + (ex + fmtBias f).toNat * 2 ^ m + ((floorAt mag e (ex - m)).1 - 2 ^ m)

/-! ### Rounding (R199, R200) -/

/-- round_grid of R199 on a value y given by k16 = floor(y · 2^16) and whether that floor is exact. -/
def roundGrid (k16 : Nat) (exact : Bool) (mode : RMode) (u : Nat) : Nat :=
  let f := k16 / 65536
  let r := k16 % 65536
  if r = 0 ∧ exact then f
  else
    match mode with
    | .rne => if r > 32768 ∨ (r = 32768 ∧ (!exact ∨ f % 2 = 1)) then f + 1 else f
    | .rtz => f
    | .rto => if f % 2 = 1 then f else f + 1
    | .sr => if r + u ≥ 65536 then f + 1 else f

/-- a · 2^ea > b · 2^eb. -/
def magGt (a : Nat) (ea : Int) (b : Nat) (eb : Int) : Bool :=
  let t := min ea eb
  Val.scaleTo a ea t > Val.scaleTo b eb t

/-- round_to of R200 on a positive real given by e = floor(log2) and by the floors of its binary expansion: `fl t` is
floor(x / 2^t) with whether it is exact. Answers the value and the saturation flag. -/
def roundPos (neg : Bool) (e : Int) (fl : Int → Nat × Bool) (f : Nat) (mode : RMode) (u : Nat) (block : Bool) :
    Val × Bool :=
  let q : Int := if fmtIsInt f || f == 9 then 0 else max e (fmtEmin f) - fmtM f
  let lim := if neg then fmtNegLim f else fmtMax f
  let k := fl (q - 16)
  let v := roundGrid k.1 k.2 mode u
  if magGt v q lim.1 lim.2 then
    if fmtHasInf f && (mode == .rne || mode == .sr) && !block then (.inf neg, false)
    else if lim.1 = 0 then (.fin false 0 0, true)
    else (.fin neg lim.1 lim.2, true)
  else if v = 0 then (.fin (neg && !fmtIsInt f) 0 0, false)
  else (.fin neg v q, false)

/-- round_to of R200 on a finite value; special values by R202. The flags are saturation and "NaN written as 0". -/
def convertVal (x : Val) (f : Nat) (mode : RMode) (u : Nat) (block : Bool) : Val × Bool × Bool :=
  match x with
  | .nan => if fmtHasNan f then (.nan, false, false) else (.fin false 0 0, false, true)
  | .inf n =>
    if fmtHasInf f then (.inf n, false, false)
    else
      let lim := if n then fmtNegLim f else fmtMax f
      if lim.1 = 0 then (.fin false 0 0, true, false) else (.fin n lim.1 lim.2, true, false)
  | .fin n 0 _ => (.fin (n && !fmtIsInt f) 0 0, false, false)
  | .fin n m e =>
    let r := roundPos n (log2Of m e) (floorAt m e) f mode u block
    (r.1, r.2, false)

/-- The FP32 value of x under RNE (rne32 of R164). -/
def rne32 (x : Val) : Val := (convertVal x 0 .rne 0 false).1

/-- The FP32 code of x under RNE. -/
def rne32Code (x : Val) : Word := BitVec.ofNat 32 (codeOf 0 (rne32 x))

/-- The value of an FP32 code. -/
def fp32 (w : Word) : Val := elem 0 w.toNat

/-! ### Block scales (R195, R196, R203) -/

/-- The value of element code e in a block with scale code c (R196); every element of a NaN block is NaN (R195). -/
def scaledElem (f c scale : Nat) : Val :=
  if scale = 0xFF then .nan else (elem f c).scale ((scale : Int) - 127)

/-- What quantise_block answers, with what R215 counts of it. -/
structure Quantised where
  scale : Nat
  codes : List Nat
  sat : Bool
  nan : Bool
  sclamp : Bool
  deriving DecidableEq, Repr

/-- The larger magnitude of two finite values. -/
def maxMag (a b : Val) : Val := if Val.lt a.abs b.abs then b.abs else a.abs

/-- quantise_block of R203: `xs` the block's source values, none outside the extent, `us` one generator value each. -/
def quantiseBlock (xs : List (Option Val)) (f : Nat) (mode : RMode) (us : List Nat) : Quantised :=
  let vs := xs.filterMap id
  if vs.any Val.isNan then ⟨0xFF, xs.map fun _ => codeOf f Val.zero, false, true, false⟩
  else
    let amax := (vs.filter fun v => !v.isInf).foldl maxMag Val.zero
    let raw : Int :=
      match amax with
      | .fin _ m e => if m = 0 then 127 else log2Of m e - fmtScaleEmax f + 127
      | _ => 127
    let c : Int := min (max raw 0) 254
    let rs := (xs.zip us).map fun p =>
      match p.1 with
      | none => (Val.zero, false, false)
      | some x => convertVal (x.scale (127 - c)) f mode p.2 true
    ⟨c.toNat, rs.map fun r => codeOf f r.1, rs.any fun r => r.2.1, false, raw < 0 || 254 < raw⟩

/-! ### The rounding generator (R208) -/

def rgenK1 : DWord := 0x8F3D2B61C4E97A15
def rgenK2 : DWord := 0xB2E7594D0A63F1C9
def rgenK3 : DWord := 0xE4C17A9B3D2586F3

def rgenMix (z : DWord) : DWord :=
  let a := (z ^^^ (z >>> 31)) * rgenK1
  let b := (a ^^^ (a >>> 29)) * rgenK2
  b ^^^ (b >>> 32)

def rgen (seed epoch step index : DWord) : DWord :=
  let key := rgenMix (seed ^^^ rgenK1 ^^^ (epoch * rgenK3))
  let z := rgenMix (key ^^^ index)
  let y := rgenMix (z ^^^ key.rotateLeft 32 ^^^ (step * rgenK3))
  rgenMix (y + key)

/-- The 16-bit value u of a rounding (R208). -/
def rbits (seed epoch step index : DWord) (lane : Nat) : Nat :=
  ((rgen seed epoch step index) >>> (16 * lane)).toNat % 65536

/-! ### Bit streams (R149) -/

/-- Element e of width b in a little-endian bit stream of 64-bit words: bits e·b to e·b + b − 1. -/
def streamBits (words : List DWord) (o b : Nat) : Nat :=
  let lo := (words.getD (o / 64) 0).toNat
  let hi := (words.getD (o / 64 + 1) 0).toNat
  ((lo + hi * 2 ^ 64) / 2 ^ (o % 64)) % 2 ^ b

/-- The words of a bit stream of codes of width b, `n` words long; unused bits are 0. -/
def packCodes (b : Nat) (codes : List Nat) (n : Nat) : List DWord :=
  let big := codes.reverse.foldl (fun acc c => acc * 2 ^ b + c % 2 ^ b) 0
  (List.range n).map fun i => BitVec.ofNat 64 (big / 2 ^ (64 * i))

/-! ### Quotients and roots, as floors of their expansions -/

/-- floor(log2 (a/b)) for a, b > 0 (as m · 2^e each). -/
def log2Quot (ma : Nat) (ea : Int) (mb : Nat) (eb : Int) : Int :=
  let g := log2Of ma ea - log2Of mb eb
  -- a/b lies in (2^(g-1), 2^(g+1)); it is at least 2^g exactly when a ≥ b · 2^g
  if magGt mb (eb + g) ma ea then g - 1 else g

/-- floor((ma · 2^ea / (mb · 2^eb)) / 2^t), and whether it is exact. -/
def floorQuot (ma : Nat) (ea : Int) (mb : Nat) (eb : Int) (t : Int) : Nat × Bool :=
  let s := ea - eb - t
  if 0 ≤ s then
    let n := ma * 2 ^ s.toNat
    (n / mb, n % mb == 0)
  else
    let d := mb * 2 ^ (-s).toNat
    (ma / d, ma % d == 0)

/-- One bit of an integer square root per step of fuel, from bit `k` downward. -/
def isqrtGo (n : Nat) : Nat → Nat → Nat
  | 0, r => r
  | k + 1, r => if (r + 2 ^ k) * (r + 2 ^ k) ≤ n then isqrtGo n k (r + 2 ^ k) else isqrtGo n k r

/-- floor(sqrt n). -/
def isqrt (n : Nat) : Nat := isqrtGo n (Nat.log2 n / 2 + 1) 0

/-- floor(sqrt(m · 2^e) / 2^t), and whether it is exact. -/
def floorSqrt (m : Nat) (e : Int) (t : Int) : Nat × Bool :=
  let s := e - 2 * t
  if 0 ≤ s then
    let n := m * 2 ^ s.toNat
    let r := isqrt n
    (r, r * r == n)
  else
    let d := 2 ^ (-s).toNat
    let r := isqrt (m / d)
    (r, r * r * d == m)

/-- floor(log2 (sqrt(m · 2^e))). -/
def log2Sqrt (m : Nat) (e : Int) : Int := (log2Of m e).fdiv 2

end Sys2Proof.Machine
end

