-- ==== Sys2Proof/Machine/Matrix.lean ====
section
/-! DEFINITION. The matrix engine: operand layout (R146 to R152), stationary weights (R157 to R161), passes and their
arithmetic (R162 to R167, R171), extents (R165, R169, R170), weight parity (R617) and Plumb samples (R217 to R219). -/

namespace Sys2Proof.Machine

/-- Class of a matrix operand format, 0 for a format that is none (R146, R147). -/
def matClass (f : Nat) : Nat :=
  if f = 1 ∨ f = 2 then 1
  else if 3 ≤ f ∧ f ≤ 6 ∨ f = 10 then 2
  else if f = 7 ∨ f = 11 then 8
  else if f = 8 ∨ f = 9 then 16
  else 0

/-- Native chunk of a class (R146). -/
def chunkOf (cls : Nat) : Nat := 8 * cls

/-- Block size of a BLK field (R154). -/
def blkSize (b : Nat) : Nat :=
  match b with
  | 1 => 16
  | 2 => 32
  | _ => 0

/-- 0 means `z` (R154). -/
def orFull (x z : Nat) : Nat := if x = 0 then z else x

/-- The decoded fields of an MMA (R154). -/
structure Mma where
  aFmt : Nat
  wFmt : Nat
  aBlk : Nat
  wBlk : Nat
  aSrc : Nat
  wMode : Nat
  acc : Bool
  plumb : Bool
  bucket : Bool
  mrows : Nat
  mext : Nat
  next : Nat
  kcnt : Nat
  ncnt : Nat
  bcnt : Nat
  kext : Nat
  wtag : Nat
  deriving DecidableEq, Repr

def mmaOf (i : EngInstr) : Mma where
  aFmt := bits (iw i 6) 0 4
  wFmt := bits (iw i 6) 4 4
  aBlk := bits (iw i 6) 8 2
  wBlk := bits (iw i 6) 10 2
  aSrc := bits (iw i 6) 12 2
  wMode := bits (iw i 6) 14 2
  acc := bit (iw i 6) 16
  plumb := bit (iw i 6) 17
  bucket := bit (iw i 6) 18
  mrows := orFull (bits (iw i 7) 0 8) 256
  mext := bits (iw i 7) 8 9
  next := orFull (bits (iw i 7) 17 4) 8
  kcnt := orFull (bits (iw i 7) 21 6) 64
  ncnt := orFull (bits (iw i 7) 27 5) 32
  bcnt := orFull (bits (iw i 8) 0 8) 256
  kext := bits (iw i 8) 8 8
  wtag := bits (iw i 8) 16 16

/-- Pair mode: class 2 with a block size of 32 (R148). -/
def Mma.pair (m : Mma) : Bool := matClass m.aFmt == 2 && (m.aBlk == 2 || m.wBlk == 2)

/-- Positions of one pass (R146, R148). -/
def Mma.kc (m : Mma) : Nat := if m.pair then 32 else chunkOf (matClass m.aFmt)

/-- Positions of one group: a block, or the whole chunk (R164). -/
def Mma.group (m : Mma) : Nat :=
  if m.aBlk ≠ 0 then blkSize m.aBlk else if m.wBlk ≠ 0 then blkSize m.wBlk else m.kc

/-- The two offsets of body word k (R154). -/
def offLo (i : EngInstr) (k : Nat) : Nat := bits (iw i k) 0 13
def offHi (i : EngInstr) (k : Nat) : Nat := bits (iw i k) 13 13

/-- The words of a list as one little-endian bit stream (R149). -/
def bigOf : List Nat → Nat
  | [] => 0
  | w :: r => w % 2 ^ 64 + 2 ^ 64 * bigOf r

/-- Element e of width b of a bit stream. -/
def elemAt (big b e : Nat) : Nat := big / 2 ^ (e * b) % 2 ^ b

/-- Byte k of a bit stream. -/
def byteAt (big k : Nat) : Nat := big / 2 ^ (8 * k) % 256

def wordsFor (nbits : Nat) : Nat := (nbits + 63) / 64

/-- Words o to o + n − 1 of a range, those not needed left unread as 0. -/
def readSome (r : Run) (i : EngInstr) (k o : Nat) (need : Nat → Bool) : Nat → List Nat × Run
  | 0 => ([], r)
  | n + 1 =>
    let x := readSome r i k o need n
    if need n then
      let y := readWord x.2 i k (o + n)
      (x.1 ++ [y.1], y.2)
    else (x.1 ++ [0], x.2)

/-! ### Weight tiles -/

/-- A tile read from RANGE_B at an offset: positions at or beyond `kext` are not read and hold +0 (R151, R159, R165). -/
def loadTile (r : Run) (i : EngInstr) (m : Mma) (at' kext tag : Nat) : Tile × Run :=
  let b := fmtWidth m.wFmt
  let kc := m.kc
  let nd := kc * b / 8
  let needD := fun w => (List.range 8).any fun j => 0 < kext && decide (j * kc * b < 64 * w + 64)
    && decide (64 * w < (j * kc + kext) * b)
  let d := readSome r i 1 at' needD nd
  let bs := blkSize m.wBlk
  let nb := if bs = 0 then 0 else kc / bs
  let needS := fun w => (List.range 8).any fun k =>
    decide (8 * w + k < 8 * nb) && decide ((8 * w + k) % (max 1 nb) * bs < kext)
  let s := readSome d.2 i 1 (at' + nd) needS ((8 * nb + 7) / 8)
  let big := bigOf d.1
  let sbig := bigOf s.1
  ({ valid := true, wfmt := BitVec.ofNat 4 m.wFmt, wblk := BitVec.ofNat 2 m.wBlk, pair := m.pair,
     tag := BitVec.ofNat 16 tag
     codes := (List.range (8 * kc)).map fun e => if e % kc < kext then elemAt big b e else 0
     scales := (List.range (8 * nb)).map fun e => if e % (max 1 nb) * bs < kext then byteAt sbig e else 0
     badParity := [] }, s.2)

/-- A tile's element code with every byte of wrong parity read as 0 (R617). -/
def tileCode (t : Tile) (b e : Nat) : Nat :=
  let c := t.codes.getD e 0
  (List.range b).foldl (fun acc k => if t.badParity.contains ((e * b + k) / 8) then acc - acc / 2 ^ k % 2 * 2 ^ k else acc) c

/-- A tile's scale byte; the scale bytes follow the data bytes (R617). -/
def tileScale (t : Tile) (b kc k : Nat) : Nat := if t.badParity.contains (kc * b + k) then 0 else t.scales.getD k 0

/-- Whether the active tile serves an instruction that keeps it (R158). -/
def tileMatches (t : Tile) (m : Mma) : Bool :=
  t.valid && t.wfmt.toNat == m.wFmt && t.wblk.toNat == m.wBlk && t.pair == m.pair

/-- Whether an instruction loads before its first pass (R158); MWLOAD always does. -/
def willLoad (v : Ashlar) (i : EngInstr) : Bool :=
  let m := mmaOf i
  opcodeOf i == 2 || m.wMode == 0 || (m.wMode == 2 && !(tileMatches v.active m && v.active.tag.toNat == m.wtag))

def dropTiles (v : Ashlar) : Ashlar :=
  { v with active := Tile.reset, shadow := Tile.reset, shadowFor := none }

/-! ### Extents -/

/-- Valid positions of a pass (R165, R170, R171). -/
def Mma.ext (m : Mma) (lastPass : Bool) : Nat :=
  if m.bucket || !lastPass then m.kc else orFull m.kext m.kc

/-- Rows read and written per pass (R169, R171). -/
def validRows (m : Mma) (i : EngInstr) : Nat :=
  if m.bucket then m.mrows
  else if m.mext ≠ 0 then min m.mext m.mrows
  else min m.mrows (rangeLen (irange i 0) / max 1 (offHi i 9))

def Mma.cols (m : Mma) (lastBlock : Bool) : Nat := if m.bucket || !lastBlock then 8 else m.next

/-! ### Arithmetic -/

/-- One row-chunk as the array uses it: element values, scale codes by block (none where A carries none), and the exact
values before conversion, for Plumb. -/
structure RowChunk where
  elems : List Val
  scales : List Nat
  src : List Val
  sats : List SatCounter
  deriving DecidableEq, Repr

/-- A row-chunk at an offset of RANGE_A with `ext` valid positions, converted on the way where A_SRC asks (R150, R165,
R167). -/
def readRow (r : Run) (i : EngInstr) (m : Mma) (at' ext : Nat) : RowChunk × Run :=
  let kc := m.kc
  let bs := blkSize m.aBlk
  if m.aSrc = 0 then
    let b := fmtWidth m.aFmt
    let d := readWords r i 0 at' (wordsFor (ext * b))
    let big := bigOf d.1
    let elems := (List.range kc).map fun k => if k < ext then elem m.aFmt (elemAt big b k) else Val.zero
    if bs = 0 then (⟨elems, [], elems, []⟩, d.2)
    else
      let s := if 0 < ext then readWord d.2 i 0 (at' + wordsFor (kc * b)) else (0, d.2)
      let scales := (List.range (kc / bs)).map fun g => byteAt s.1 g
      let src := (List.range kc).map fun k =>
        if k < ext then scaledElem m.aFmt (elemAt big b k) (scales.getD (k / bs) 127) else Val.zero
      (⟨elems, scales, src, []⟩, s.2)
  else
    let f := if m.aSrc = 1 then 1 else 0
    let b := fmtWidth f
    let d := readWords r i 0 at' (wordsFor (ext * b))
    let big := bigOf d.1
    let src := (List.range kc).map fun k => if k < ext then elem f (elemAt big b k) else Val.zero
    if bs = 0 then
      let cs := (src.take ext).map fun x => convertVal x m.aFmt .rne 0 false
      let sats := (if cs.any fun c => c.2.1 then [SatCounter.mx] else [])
        ++ (if cs.any fun c => c.2.2 then [SatCounter.nan] else [])
      (⟨(cs.map fun c => c.1) ++ List.replicate (kc - ext) Val.zero, [], src, sats⟩, d.2)
    else
      let qs := (List.range (kc / bs)).map fun g =>
        quantiseBlock ((List.range bs).map fun k => if g * bs + k < ext then src[g * bs + k]? else none)
          m.aFmt .rne (List.replicate bs 0)
      let used := (qs.zipIdx).filter fun q => decide (q.2 * bs < ext)
      let sats := used.flatMap fun q =>
        (if q.1.sat then [SatCounter.mx] else []) ++ (if q.1.nan then [SatCounter.nan] else [])
          ++ (if q.1.sclamp then [SatCounter.sclamp] else [])
      (⟨qs.flatMap fun q => q.codes.map fun c => elem m.aFmt c, qs.map fun q => q.scale, src, sats⟩, d.2)

/-- The exact scaled value of group g of one row and column (group_sum and v of R164). -/
def groupVal (m : Mma) (row : RowChunk) (t : Tile) (j ext g : Nat) : Val :=
  let gs := m.group
  let kc := m.kc
  let b := fmtWidth m.wFmt
  let nb := if m.wBlk = 0 then 0 else kc / blkSize m.wBlk
  let ca := if m.aBlk = 0 then 127 else row.scales.getD g 0
  let cw := if m.wBlk = 0 then 127 else tileScale t b kc (j * nb + g)
  if ca = 0xFF ∨ cw = 0xFF then .nan
  else
    (Val.sum ((List.range gs).map fun k =>
      let p := g * gs + k
      if p < ext then (row.elems.getD p Val.zero).mul (elem m.wFmt (tileCode t b (j * kc + p))) else Val.zero)).scale
      ((ca : Int) - 127 + ((cw : Int) - 127))

/-- pass_result of R164: groups in ascending K, one rounding each; groups wholly beyond the extent skipped. -/
def passResult (m : Mma) (row : RowChunk) (t : Tile) (j ext : Nat) (start : Val) : Val :=
  (List.range (m.kc / m.group)).foldl (fun acc g =>
    if ext ≤ g * m.group then acc else rne32 (acc.add (groupVal m row t j ext g))) start

/-! ### Plumb (R217 to R219) -/

/-- |q − ref| / |ref| as a bin (R218). -/
def plumbBin (ref q : Val) : Nat :=
  match ref, q with
  | .fin _ mr er, .fin _ mq _ =>
    if mr = 0 then (if mq = 0 then 0 else 15)
    else
      match (q.sub ref).abs with
      | .fin _ md ed =>
        if md = 0 then 0
        else
          let l := log2Quot md ed mr er
          if l < -14 then 0 else if 0 ≤ l then 15 else (l + 15).toNat
      | _ => 15
  | _, _ => 15

/-- The bin of one column of a sampled row-chunk (R218). -/
def plumbColumn (m : Mma) (row : RowChunk) (t : Tile) (ext j : Nat) : Nat :=
  let kc := m.kc
  let b := fmtWidth m.wFmt
  let nb := if m.wBlk = 0 then 0 else kc / blkSize m.wBlk
  let wv := fun k =>
    let c := tileCode t b (j * kc + k)
    if m.wBlk = 0 then elem m.wFmt c
    else scaledElem m.wFmt c (tileScale t b kc (j * nb + k / blkSize m.wBlk))
  let ref := rne32 (Val.sum ((List.range ext).map fun k => (row.src.getD k Val.zero).mul (wv k)))
  let q := rne32 (Val.sum (((List.range (kc / m.group)).filter fun g => decide (g * m.group < ext)).map fun g =>
    groupVal m row t j ext g))
  plumbBin ref q

/-- An eligible row-chunk counted, and sampled at its turn (R217, R219). -/
def plumbRow (v : Ashlar) (m : Mma) (row : RowChunk) (t : Tile) (ext cols : Nat) : Ashlar :=
  if !m.plumb || !v.slot.plumbEn || decide (32 ≤ v.slot.slot) then v
  else
    let n := 2 ^ v.slot.rateLog2
    let u := { v with plumbCount := v.plumbCount + 1 }
    if v.plumbCount % n ≠ n - 1 then u
    else if 2 ≤ v.plumbDone.length then { u with plumbSkipped := u.plumbSkipped + 1 }
    else { u with plumbDone := u.plumbDone ++ [(List.range cols).map fun j => plumbColumn m row t ext j] }

/-! ### Passes (R162, R163) -/

/-- The two FP32 values of an output word. -/
def outHalf (w j : Nat) : Val := elem 0 (w / 2 ^ (32 * (j % 2)) % 2 ^ 32)

/-- One output word of a row: columns 2w and 2w + 1, those below `cols` written (R152, R162, R170). -/
def outWord (r : Run) (i : EngInstr) (m : Mma) (row : RowChunk) (t : Tile) (ext cols cAt w : Nat) (fresh : Bool) : Run :=
  let mask := (if 2 * w < cols then 2 ^ 32 - 1 else 0) + (if 2 * w + 1 < cols then (2 ^ 32 - 1) * 2 ^ 32 else 0)
  if mask = 0 then r
  else
    let old := if fresh then ((0, true), r) else readRmw r i 2 (cAt + w)
    let res := fun j =>
      codeOf 0 (passResult m row t j ext (if fresh then .fin true 0 0 else outHalf old.1.1 j))
    let data := res (2 * w) + res (2 * w + 1) * 2 ^ 32
    if fresh then writeWord r i (cAt + w) data mask else writeRmw old.2 i 2 (cAt + w) old.1 data mask

/-- One row of a pass. -/
def passRow (r : Run) (i : EngInstr) (m : Mma) (t : Tile) (ext cols aAt cAt : Nat) (fresh : Bool) : Run :=
  let x := readRow r i m aAt ext
  let r1 := { x.2 with v := plumbRow { x.2.v with satOut := x.2.v.satOut ++ x.1.sats } m x.1 t ext cols }
  (List.range 4).foldl (fun u w => outWord u i m x.1 t ext cols cAt w fresh) r1

/-- One pass: the tile loaded where the mode loads it, its parity checked, its rows run (R158, R162, R617). -/
def runPass (r : Run) (i : EngInstr) (m : Mma) (load : Bool) (b n k : Nat) : Run :=
  let last := k == m.kcnt - 1
  let ext := m.ext last
  let at' := offLo i 11 + k * offHi i 11 + n * offLo i 12 + b * offHi i 12
  let r1 :=
    if load then
      let l := loadTile r i m at' (if m.wMode = 0 then ext else m.kc) (if m.wMode = 2 then m.wtag else 0)
      { l.2 with v := { l.2.v with active := l.1 } }
    else r
  let t := r1.v.active
  let r2 := if t.badParity.isEmpty then r1 else r1.fail ⟨6, 3, 0, evMxParity⟩
  (List.range (validRows m i)).foldl (fun u row =>
    passRow u i m t ext (m.cols (n == m.ncnt - 1))
      (offLo i 9 + row * offHi i 9 + k * offLo i 10 + b * offHi i 10)
      (offLo i 13 + row * offHi i 13 + n * offLo i 14 + b * offHi i 14) (!m.acc && k == 0)) r2

/-- Batch, N-block and pass of pass number p, in the order of R162. -/
def passIndex (m : Mma) (p : Nat) : Nat × Nat × Nat := (p / (m.kcnt * m.ncnt), p / m.kcnt % m.ncnt, p % m.kcnt)

/-- A whole MMA; `ready` when its first tile is already the active one, by a preload (R158, R161, R162). -/
def runMma (v : Ashlar) (i : EngInstr) (ready : Bool) : Run :=
  let m := mmaOf i
  let r0 := Run.start v
  if m.wMode = 1 ∧ !tileMatches v.active m then r0.fail ⟨3, 3, 0, evDescFault⟩
  else
    (List.range (m.bcnt * m.ncnt * m.kcnt)).foldl (fun r p =>
      let x := passIndex m p
      let load := if p = 0 then !ready && willLoad v i else m.wMode == 0
      runPass r i m load x.1 x.2.1 x.2.2) r0

/-- A whole MWLOAD (R159). -/
def runMwload (v : Ashlar) (i : EngInstr) (ready : Bool) : Run :=
  let m := mmaOf i
  if ready then Run.start v
  else
    let l := loadTile (Run.start v) i m (offLo i 11) m.kc m.wtag
    { l.2 with v := { l.2.v with active := l.1 } }

/-- A run's end: a faulted MMA or MWLOAD leaves no tile (R160). -/
def settleTiles (r : Run) : Run := if r.fault.isSome then { r with v := dropTiles r.v } else r

/-- The matrix instruction that a preload has started and whose turn has come: the one before it has completed. A fault of
its own load does not hold it back (R78, R161). -/
def preloaded (v : Ashlar) : Option EngInstr :=
  if v.frozen || (v.eng .matrix).queue.any (fun i => i.phase = .executed || i.phase = .readsRetired) then none
  else (v.eng .matrix).queue.find? fun i => decide (i.phase = .running) && (i.faulted || !(v.eng .matrix).faulted)

/-- The preloaded tile becomes the active one. -/
def swapTiles (v : Ashlar) : Ashlar := { v with active := v.shadow, shadow := Tile.reset, shadowFor := none }

/-- What a preloaded instruction leaves: as any run, but where its load has faulted already its further faults only count,
and no tile stays (R78, R160). -/
def commitPreloaded (s : State) (a : Ash) (i : EngInstr) (r : Run) : State :=
  if i.faulted then
    ((s.setAsh a (dropTiles r.v)).countRun a r.ce r.ue r.ue).onAsh a fun v =>
      ranToEnd v i
  else s.commitRun a i (settleTiles r)

/-- A matrix instruction that runs at its turn: preloaded, its tile loaded anew where the preload has been lost since, or
from the head of the queue (R60, R158, R160, R161). -/
def matrixTurn (s : State) (a : Ash) (opc : Nat) (run : Ashlar → EngInstr → Bool → Run) : State :=
  let v := s.ash a
  match preloaded v with
  | some i =>
    if opcodeOf i = opc then
      commitPreloaded s a i (if v.shadowFor = some (BitVec.ofNat 5 i.order) then run (swapTiles v) i true else run v i false)
    else s
  | none =>
    startHead s a .matrix (fun i => opcodeOf i == opc) fun t i => t.commitRun a i (settleTiles (run (t.ash a) i false))

/-- MMA (R162): the whole instruction, its loads, passes and writes. -/
def execMma (a : Ash) (s : State) : Host.Outcome State Fault Refusal :=
  atAsh s a (.next (matrixTurn s a 1 runMma))

/-- MWLOAD (R159). -/
def execMwload (a : Ash) (s : State) : Host.Outcome State Fault Refusal :=
  atAsh s a (.next (matrixTurn s a 2 runMwload))

/-- MWDROP (R160, R181): both tiles invalid in its first execution cycle. -/
def execMwdrop (a : Ash) (s : State) : Host.Outcome State Fault Refusal :=
  atAsh s a <|
    .next (startHead s a .matrix (fun i => opcodeOf i == 3) fun t i =>
      t.commitRun a i { Run.start (t.ash a) with v := dropTiles (t.ash a) })

/-- The candidates of the cycle of a preload: the next instruction stands for the matrix engine (R161, R376). -/
def preloadCandidates (v : Ashlar) (i : EngInstr) : List (Nat × List Wait) :=
  candidates v ((0, waitsOf i.words) :: ([Engine.vector, .stream, .send].filterMap fun e =>
    (candidateOf v e).map fun i => ((engineIx e).val, waitsOf i.words))) (joinerWait v)

/-- The ashlar in which a preload has started its instruction (R161, R376). -/
def preloadStart (v : Ashlar) (i : EngInstr) : Ashlar :=
  let u := decideCycle v (preloadCandidates v i)
  clearDog (updInstr { u with won := u.won.erase 0 } .matrix i.order fun _ => started v i) 0

/-- The next MMA or MWLOAD of the queue while its predecessor streams, where it may be preloaded: not one in pair mode,
whose tile takes both buffers (R148, R161). -/
def preloadable (v : Ashlar) : Option EngInstr :=
  if v.frozen || (v.eng .matrix).faulted || (v.eng .matrix).queue.any (fun i => i.phase = .running) then none
  else if !(v.eng .matrix).queue.any (fun i => (i.phase = .executed || i.phase = .readsRetired) && opcodeOf i == 1) then none
  else
    match headOf v .matrix with
    | none => none
    | some i =>
      if (opcodeOf i == 1 || opcodeOf i == 2) && !(mmaOf i).pair && willLoad v i && eligible v i
          && startsNow v (preloadCandidates v i) 0 then some i else none

/-- WEIGHT_PRELOAD (R161): the next instruction's start, and its first tile into the shadow buffer. -/
def weightPreload (s : State) (a : Ash) : State :=
  let v := s.ash a
  if v.active.pair then s
  else
    match preloadable v with
    | none => s
    | some i =>
      let u := preloadStart v i
      let m := mmaOf i
      let ext := if opcodeOf i = 1 ∧ m.wMode = 0 then m.ext (m.kcnt == 1) else m.kc
      let l := loadTile (Run.start u) (started v i) m (offLo i 11) ext
        (if opcodeOf i = 1 ∧ m.wMode = 0 then 0 else m.wtag)
      let r := { l.2 with v := { l.2.v with shadow := l.1, shadowFor := some i.order } }
      match r.fault with
      | none => (s.setAsh a r.v).countRun a r.ce r.ue 0
      | some f => runsOn ((s.setAsh a r.v).countRun a r.ce r.ue (r.ue - (if f.kind = 5 then 1 else 0))) a i f

def execWeightPreload (a : Ash) (s : State) : Host.Outcome State Fault Refusal :=
  atAsh s a (.next (weightPreload s a))

/-- Whether every reserved bit of body words 6 to 15 of an MMA or MWLOAD is 0 (R154). -/
def mmaReserved (i : EngInstr) : Bool :=
  bits (iw i 6) 19 13 == 0 && (List.range 6).all (fun k => bits (iw i (9 + k)) 26 6 == 0) && iw i 15 == 0

/-- The further decode conditions of the matrix engine: true where one fails (R156, R171). -/
def matrixIllegal (v : Ashlar) (i : EngInstr) : Bool :=
  let m := mmaOf i
  if opcodeOf i = 3 then iw i 6 != 0 || iw i 7 != 0
  else
    let base := matClass m.aFmt == 0 || matClass m.wFmt != matClass m.aFmt || m.aBlk == 3 || m.wBlk == 3
      || (matClass m.aFmt == 1 && (m.aBlk != 0 || m.wBlk != 0))
      || (m.aBlk != 0 && m.wBlk != 0 && m.aBlk != m.wBlk) || !mmaReserved i
    if opcodeOf i = 2 then base || m.wtag == 0
    else
      base || m.aSrc == 3 || m.wMode == 3 || (m.wMode == 2 && m.wtag == 0)
        || ((m.wMode == 1 || m.wMode == 2) && (decide (1 < m.kcnt * m.ncnt) || (decide (1 < m.bcnt) && offHi i 12 != 0)))
        || (!m.bucket && (decide (m.kc < m.kext) || decide (m.mrows < m.mext) || (m.mext == 0 && offHi i 9 == 0)))
        || (v.win (rangeWin (irange i 2))).cls != 1
        || (m.bucket && (!(m.aFmt == 1 || m.aFmt == 2 || m.aFmt == 10) || !(m.wFmt == 1 || m.wFmt == 2 || m.wFmt == 10)
            || m.aBlk != 0 || m.wBlk != 0))

end Sys2Proof.Machine
end

