-- ==== Sys2Proof/Machine/Encoding.lean ====
section
/-! DEFINITION. The words of the Joiner's instructions (R100 to R102) and which words are legal (R103). -/

namespace Sys2Proof.Machine

/-- Format R: opcode, rd, rs1, rs2, FUNC (R100). -/
def encR (opc : Nat) (rd rs1 rs2 : Reg) (func : Nat) : Word :=
  BitVec.ofNat 32 (opc * 2 ^ 26 + rd.toNat * 2 ^ 21 + rs1.toNat * 2 ^ 16 + rs2.toNat * 2 ^ 11 + func)

/-- Formats I, S and B: opcode, the fields [25:21] and [20:16], and imm16 or off16 (R100). -/
def encI (opc : Nat) (f25 f20 : Reg) (imm : Half) : Word :=
  BitVec.ofNat 32 (opc * 2 ^ 26 + f25.toNat * 2 ^ 21 + f20.toNat * 2 ^ 16 + imm.toNat)

/-- ALU group word (R102). -/
def encAlu (func : Nat) (rd rs1 rs2 : Reg) : Word := encR 0x00 rd rs1 rs2 func

/-- SLLI, SRLI, SRAI: the shift in imm16[4:0] (R101). -/
def encShift (opc : Nat) (rd rs1 : Reg) (sh : BitVec 5) : Word := encI opc rd rs1 (BitVec.ofNat 16 sh.toNat)

def encLoop (rs1 : Reg) (body : Byte) : Word := encI 0x20 0 rs1 (BitVec.ofNat 16 body.toNat)

def encLoopi (count : BitVec 12) (body : Byte) : Word :=
  BitVec.ofNat 32 (0x21 * 2 ^ 26 + count.toNat * 2 ^ 8 + body.toNat)

def encLoopt (rs2 rs1 : Reg) (alsel : BitVec 2) (tlog2 : BitVec 5) (body : Byte) : Word :=
  encI 0x22 rs2 rs1 (BitVec.ofNat 16 (alsel.toNat * 2 ^ 14 + tlog2.toNat * 2 ^ 8 + body.toNat))

def encIssue (rsA rs1 : Reg) (widxA : BitVec 4) (rsB : Reg) (widxB : BitVec 4) : Word :=
  encI 0x24 rsA rs1 (BitVec.ofNat 16 (widxA.toNat * 2 ^ 12 + rsB.toNat * 2 ^ 7 + widxB.toNat * 2 ^ 3))

def encPsig (inc : Byte) (peg : BitVec 6) : Word := BitVec.ofNat 32 (0x28 * 2 ^ 26 + inc.toNat * 2 ^ 8 + peg.toNat)

def encPwait (rs1 : Reg) (mode : BitVec 2) (peg : BitVec 6) : Word :=
  encI 0x29 0 rs1 (BitVec.ofNat 16 (mode.toNat * 2 ^ 6 + peg.toNat))

def encPtest (rd rs1 : Reg) (peg : BitVec 6) : Word := encI 0x2A rd rs1 (BitVec.ofNat 16 peg.toNat)

def encPrd (rd : Reg) (peg : BitVec 6) : Word := encI 0x2B rd 0 (BitVec.ofNat 16 peg.toNat)

def encEprd (rd : Reg) (word : BitVec 2) (ep : BitVec 3) : Word :=
  encI 0x30 rd 0 (BitVec.ofNat 16 (word.toNat * 2 ^ 3 + ep.toNat))

def encEppop (ep : BitVec 3) : Word := encI 0x31 0 0 (BitVec.ofNat 16 ep.toNat)

/-- BEPE (0x32) and BEPNE (0x33): EP in [18:16] (R101). -/
def encBep (opc : Nat) (ep : BitVec 3) (off : Half) : Word := encI opc 0 (BitVec.ofNat 5 ep.toNat) off

def encCsrr (rd : Reg) (csr : Byte) : Word := encI 0x34 rd 0 (BitVec.ofNat 16 csr.toNat)

def encCsrw (rs1 : Reg) (csr : Byte) : Word := encI 0x35 0 rs1 (BitVec.ofNat 16 csr.toNat)

def encFence (mask : BitVec 4) : Word := encI 0x3C 0 0 (BitVec.ofNat 16 mask.toNat)

/-- The bits of each opcode's word that hold named fields, opcode apart; none for an undefined opcode (R101). The ALU
group and PFADD are judged by FUNC. -/
def opcodeFields (opc : Nat) : Option Nat :=
  match opc with
  | 0x00 => some 0x03FFF83F
  | 0x01 => some 0x03FFFFFF
  | 0x02 => some 0x03FFFFFF
  | 0x03 => some 0x03FFFFFF
  | 0x04 => some 0x03FFFFFF
  | 0x05 => some 0x03FF001F
  | 0x06 => some 0x03FF001F
  | 0x07 => some 0x03FF001F
  | 0x08 => some 0x03FFFFFF
  | 0x09 => some 0x03FFFFFF
  | 0x0A => some 0x03E0FFFF
  | 0x10 => some 0x03FFFFFF
  | 0x11 => some 0x03FFFFFF
  | 0x12 => some 0x03FFFFFF
  | 0x13 => some 0x03FFFFFF
  | 0x14 => some 0x03FFFFFF
  | 0x15 => some 0x03FFFFFF
  | 0x16 => some 0x03FFFFFF
  | 0x17 => some 0x03FFFFFF
  | 0x18 => some 0x03FFFFFF
  | 0x19 => some 0x03FFFFFF
  | 0x1A => some 0x03FFFFFF
  | 0x1B => some 0x03FFFFFF
  | 0x1C => some 0x03FFFFFF
  | 0x1D => some 0x03FFFFFF
  | 0x1E => some 0x03E0FFFF
  | 0x1F => some 0x03FFFFFF
  | 0x20 => some 0x001F00FF
  | 0x21 => some 0x000FFFFF
  | 0x22 => some 0x03FFDFFF
  | 0x24 => some 0x03FFFFF8
  | 0x28 => some 0x0000FF3F
  | 0x29 => some 0x001F00FF
  | 0x2A => some 0x03FF003F
  | 0x2B => some 0x03E0003F
  | 0x2C => some 0x03FFF83F
  | 0x30 => some 0x03E0001F
  | 0x31 => some 0x00000007
  | 0x32 => some 0x0007FFFF
  | 0x33 => some 0x0007FFFF
  | 0x34 => some 0x03E000FF
  | 0x35 => some 0x001F00FF
  | 0x38 => some 0x001F0000
  | 0x39 => some 0
  | 0x3A => some 0x0000FFFF
  | 0x3B => some 0
  | 0x3C => some 0x0000000F
  | 0x3D => some 0
  | _ => none

/-- Whether FUNC is defined, and rs2 is 0 where R102 reserves it. -/
def funcLegal (func rs2 : Nat) : Bool :=
  func ≤ 0x0D || (0x10 ≤ func && func ≤ 0x12) || (0x20 ≤ func && func ≤ 0x22)
    || ((func == 0x23 || func == 0x24) && rs2 == 0)

/-- Whether a word is a defined instruction with every reserved field 0 (R103). -/
def jLegal (w : Word) : Bool :=
  let opc := bits w 26 6
  match opcodeFields opc with
  | none => false
  | some m =>
    (w.toNat % 2 ^ 26 &&& m) == w.toNat % 2 ^ 26
      && (opc != 0x00 || funcLegal (bits w 0 6) (bits w 11 5))
      && (opc != 0x2C || bits w 0 6 == 0)

end Sys2Proof.Machine
end

