-- ==== Sys2Proof/Machine/Endpoints.lean ====
section
/-! DEFINITION. Inbound endpoints and message rings as their ashlar sees them (R123, R124, R332 to R334, R341 to R345,
R358). -/

namespace Sys2Proof.Machine

def epIx (n : Nat) : Fin 8 := ⟨n % 8, Nat.mod_lt n (by decide)⟩

def Ashlar.ep (v : Ashlar) (n : Nat) : Endpoint := v.endpoints[epIx n]

def Ashlar.setEp (v : Ashlar) (n : Nat) (e : Endpoint) : Ashlar := { v with endpoints := v.endpoints.set (epIx n) e }

/-- The physical word at an offset of a message ring (R341). -/
def ringPhys (w : Window) (o : Nat) : Nat := w.base.toNat + o % (max 1 w.size.toNat)

/-- The word a message ring's reader sees: corrected where it can be, otherwise as it is stored. -/
def peekWord (v : Ashlar) (w : Window) (o : Nat) : Nat :=
  let p := ringPhys w o
  let d := spadRaw v p
  match classDecode w.cls.toNat d.1 d.2 with
  | .corrected x => x
  | _ => d.1

/-- Fields of a record header (R341). -/
def hdrLen (h : Nat) : Nat := h % 2 ^ 13
def hdrPad (h : Nat) : Bool := h / 2 ^ 13 % 2 == 1
def hdrTag (h : Nat) : Nat := h / 2 ^ 16 % 2 ^ 16
def hdrSrc (h : Nat) : Nat := h / 2 ^ 32 % 2 ^ 17

/-- A ring after a pop or a commit: its window, the credits it returns and the headers it has read. -/
structure RingStep where
  win : Window
  credits : List Nat
  heads : List Nat
  deriving DecidableEq, Repr

/-- Pads at the head of a ring skipped, with the credits they return (R343). -/
def skipPads (v : Ashlar) : Nat → RingStep → RingStep
  | 0, x => x
  | n + 1, x =>
    if 0 < x.win.used.toNat then
      let y := { x with heads := x.heads ++ [x.win.rd.toNat] }
      if hdrPad (peekWord v x.win x.win.rd.toNat) then
        let k := x.win.size.toNat - x.win.rd.toNat
        skipPads v n { y with
          win := { x.win with rd := 0, used := BitVec.ofNat 13 (x.win.used.toNat - k) }, credits := x.credits ++ [k] }
      else y
    else x

/-- The headers read: one whose word is corrected counts its error and queues its write-back (R262). -/
def noteHeads (s : State) (a : Ash) (x : RingStep) : State :=
  let r := x.heads.foldl (fun r o => (readPhys r 0 x.win.cls.toNat (ringPhys x.win o)).2) (Run.start (s.ash a))
  (s.setAsh a r.v).countRun a r.ce 0 0

/-- The head record of a ring consumed, with the credits returned (R343). -/
def popRecord (v : Ashlar) (w : Window) : RingStep :=
  let n := 1 + hdrLen (peekWord v w w.rd.toNat)
  let w1 := { w with
    rd := BitVec.ofNat 13 ((w.rd.toNat + n) % max 1 w.size.toNat)
    used := BitVec.ofNat 13 (w.used.toNat - n)
    recs := w.recs - 1
    vcs := w.vcs.drop 1 }
  skipPads v 4 ⟨w1, [n], [w.rd.toNat]⟩

/-- Flits or records waiting at an endpoint, 0 to 4 (R344, R358). -/
def epCount (v : Ashlar) (n : Nat) : Nat :=
  let e := v.ep n
  if e.ring then min 4 (v.win e.rwin.toNat).recs.toNat else e.flits.length

/-- The endpoint's status word (R358). -/
def epStatus (s : State) (a : Ash) (n : Nat) : Word :=
  let v := s.ash a
  let e := v.ep n
  BitVec.ofNat 32 (min 4 (epCount v n) + b2n e.peerValid * 8 + b2n (fenced s a) * 16 + b2n e.overrun * 32
    + b2n e.poison * 64 + e.arrivals.toNat * 2 ^ 16)

/-- Word k of the head flit or head record of an endpoint that holds one (R124, R344): the tuple that the reads of R343 have
formed, which EPRD does not read again. -/
def epWord (v : Ashlar) (n k : Nat) : Word :=
  let e := v.ep n
  if e.ring then
    let w := v.win e.rwin.toNat
    let h := peekWord v w w.rd.toNat
    match k with
    | 0 => BitVec.ofNat 32 (w.rd.toNat + 1)
    | 1 => BitVec.ofNat 32 (hdrLen h)
    | 2 => BitVec.ofNat 32 (hdrTag h)
    | _ => BitVec.ofNat 32 (hdrSrc h)
  else if e.tlen.toNat < k then 0
  else
    match e.flits with
    | [] => 0
    | f :: _ => BitVec.ofNat 32 (f.toNat / 2 ^ (32 * k))

/-- A CRET of an endpoint to its peer, on the virtual channel of what it answers, VC1 for VC0 (R314, R333); none where the
peer is not valid, or names nothing (R308). -/
def cretTo (s : State) (a : Ash) (e : Endpoint) (vc : BitVec 2) (count : Nat) : List Packet :=
  if e.peerValid && !destMissing s e.peer then
    [⟨if vc = 0 then 1 else vc, e.peer, ashDest s a, false, .cret e.pchan (BitVec.ofNat 16 count)⟩]
  else []

/-- The virtual channel of the oldest flit or record of a queue; of one whose arrival the ashlar does not remember, as after
a restore or a write of the ring's state, that of its class (DESIGN CHOICE, log 184). -/
def oldestVc (v : Ashlar) (vcs : List (BitVec 2)) : BitVec 2 := vcs.headD (ashVc v)

/-- A closed endpoint that has become empty forgets its peer (R331). -/
def settleEp (v : Ashlar) (n : Nat) : Ashlar :=
  let e := v.ep n
  if e.closing && epCount v n == 0 then v.setEp n { e with peerValid := false, closing := false } else v

/-- The head of a non-empty endpoint released, its credit returned; after a disconnect none is (R124, R331, R333,
R343). -/
def popEndpoint (s : State) (a : Ash) (n : Nat) : State :=
  let v := s.ash a
  let e := v.ep n
  if e.ring then
    let r := popRecord v (v.win e.rwin.toNat)
    let cs := if e.closing then [] else r.credits.flatMap (cretTo s a e (oldestVc v (v.win e.rwin.toNat).vcs))
    ((noteHeads s a r).onAsh a fun u => settleEp (u.setWin e.rwin.toNat r.win) n).sendAll cs
  else
    let cs := if e.closing then [] else cretTo s a e (oldestVc v e.vcs) 1
    (s.setAsh a (settleEp (v.setEp n { e with flits := e.flits.drop 1, vcs := e.vcs.drop 1 }) n)).sendAll cs

/-- Whether an EPPOP on a ring endpoint waits for an instruction that uses the window (R344). -/
def ringInUse (v : Ashlar) (n : Nat) : Bool :=
  let e := v.ep n
  e.ring && (inFlight v ++ v.transfer.toList).any fun i =>
    ((namesWin i 0 e.rwin.toNat || namesWin i 1 e.rwin.toNat) && i.phase != .readsRetired)
      || namesWin i 2 e.rwin.toNat

/-- An arrival at an endpoint: ARRIVALS and the arrival peg (R334). -/
def arrive (s : State) (a : Ash) (n : Nat) : State :=
  s.onAsh a fun v =>
    let e := v.ep n
    let u := v.setEp n { e with arrivals := e.arrivals + 1 }
    if e.apegEn then signalPeg u e.apeg.toNat 1 3 (BitVec.ofNat 3 n) (ashDest s a) else u

end Sys2Proof.Machine
end

