-- ==== Sys2Proof/Machine/JoinerCore.lean ====
section
/-! DEFINITION. How the Joiner runs one instruction: fetch (R51, R98, R138), interlocks (R108, R109), retirement with its
loops (R106, R115, R116), traps (R133 to R137), and its control and status registers (R127, R144). -/

namespace Sys2Proof.Machine

def Ashlar.onJ (v : Ashlar) (f : Joiner → Joiner) : Ashlar := { v with joiner := f v.joiner }

def State.onJ (s : State) (a : Ash) (f : Joiner → Joiner) : State := s.onAsh a fun v => v.onJ f

/-! ### Registers (R97, R109) -/

def Joiner.wr (j : Joiner) (r : Reg) (x : Word) : Joiner :=
  if r = 0 then j else { j with regs := j.regs.set r.toFin x }

def Joiner.isPending (j : Joiner) (r : Reg) : Bool := r != 0 && bit j.pending r.toNat

def Joiner.setPending (j : Joiner) (r : Reg) : Joiner :=
  if r = 0 then j else { j with pending := setBits j.pending r.toNat 1 1 }

def Joiner.clearPending (j : Joiner) (r : Reg) : Joiner :=
  if r = 0 then j else { j with pending := setBits j.pending r.toNat 1 0 }

/-! ### Traps -/

/-- The event of a trap cause (R133); ISSUE_DECODE's is the one its check gave. -/
def trapEvent (cause : Byte) : Ev :=
  match cause.toNat with
  | 0x01 => evJnrIllegal
  | 0x02 => evJnrIllegal
  | 0x03 => evJnrAccess
  | 0x04 => evJnrAccess
  | 0x05 => evDmemEcc
  | 0x06 => evJnrAccess
  | 0x07 => evJnrLoop
  | 0x09 => evJnrContext
  | 0x0A => evDescFault
  | 0x0B => evNak
  | _ => evJnrTrap

/-- The state a Joiner stops in or goes on with after an instruction: halted where it stepped (R141). -/
def Joiner.goOn (j : Joiner) : Joiner :=
  { j with state := if j.step then .halted else .running, step := false, stall := 0, bkptPass := false }

/-- What a trap does to the Joiner (R135, R136): a double trap halts it faulted with the first trap kept; otherwise EPC,
TCAUSE and TVAL are written and the handler entered, or the Joiner halts faulted. -/
def Joiner.trap (j : Joiner) (cause : Byte) (val : Word) (epc : BitVec 11) : Joiner :=
  let j1 := { j with lastCause := cause, lastVal := val, stall := 0 }
  if j.handler then { j1 with double := true, state := .faulted, step := false }
  else
    let j2 := { j1 with epc := epc, tcause := cause, tval := val }
    if j.handlerEn then { j2 with handler := true, pc := j.hentry }.goOn
    else { j2 with pc := epc, state := .faulted, step := false }

/-- A trap taken whose event has been raised: the Joiner moved, JNR_DOUBLE raised for a double trap (R135, R136). -/
def jTrapGo (s : State) (a : Ash) (cause : Byte) (val : Word) (epc : BitVec 11) : State :=
  let s2 := s.onJ a fun j => j.trap cause val epc
  if (s.ash a).joiner.handler then s2.raise (.ash a) evJnrDouble 0 else s2

/-- A trap taken: its event raised, the Joiner moved (R133). -/
def jTrapEv (s : State) (a : Ash) (cause : Byte) (val : Word) (ev : Ev) (epc : BitVec 11) : State :=
  jTrapGo (s.raiseWord (.ash a) ev (val.toNat / 4)) a cause val epc

/-- A precise trap of the instruction at PC (R134). -/
def jTrap (s : State) (a : Ash) (cause : Byte) (val : Word) : State :=
  jTrapEv s a cause val (trapEvent cause) (s.ash a).joiner.pc

/-- Whether the Joiner is at a boundary where it would go on: running or stalled, and not frozen (R139, R142). -/
def jRuns (v : Ashlar) : Bool := !v.frozen && (v.joiner.state = .running || v.joiner.state = .stalled)

/-! ### Fetch -/

/-- What the Joiner finds at its next instruction. -/
inductive Fetch where
  /-- it does not run -/
  | idle
  /-- an armed breakpoint stands here (R138) -/
  | breakpoint
  /-- the word cannot be read (R51) -/
  | ue
  /-- the instruction word, and whether reading it corrected an error -/
  | word (w : Word) (corrected : Bool)
  deriving DecidableEq, Repr

/-- Whether an armed breakpoint names PC and has not halted here already (R138). -/
def Joiner.atBreak (j : Joiner) : Bool :=
  !j.bkptPass && ((j.bkpt0En && j.bkpt0 == j.pc) || (j.bkpt1En && j.bkpt1 == j.pc))

/-- The word of instruction memory at PC: of bank B, those from 2048 on (R633). -/
def imemPlace (v : Ashlar) : Nat := v.joiner.pc.toNat + 2048 * b2n v.joiner.active

def fetch (v : Ashlar) : Fetch :=
  let j := v.joiner
  if !jRuns v then .idle
  else if j.atBreak then .breakpoint
  else
    let h := readHalf (j.bank j.active) j.pc.toNat
    match h.2 with
    | .ue => .ue
    | .clean => .word h.1 false
    | .corrected _ => .word h.1 true

/-! ### Retirement -/

/-- Levels that stay when control goes to t: a body that t leaves ends (R115, R116). -/
def leaveDepth (loops : Vector LoopLevel 4) (t : Nat) : Nat → Nat
  | 0 => 0
  | d + 1 =>
    let l := loops[ix 4 d (by decide)]
    if t < l.lstart.toNat ∨ l.lend.toNat < t then leaveDepth loops t d else d + 1

/-- The loop stack as an instruction retires without transferring control, and a back edge's target (R115). -/
def loopEnd (loops : Vector LoopLevel 4) (retired : Nat) : Nat → Vector LoopLevel 4 × Nat × Option (BitVec 11)
  | 0 => (loops, 0, none)
  | d + 1 =>
    let l := loops[ix 4 d (by decide)]
    if retired = l.lend.toNat then
      if l.lidx.toNat + 1 < l.lcnt.toNat then
        (loops.set (ix 4 d (by decide)) { l with lidx := l.lidx + 1 }, d + 1, some l.lstart)
      else loopEnd loops retired d
    else (loops, d + 1, none)

/-- How a retiring instruction goes on. -/
inductive Kont where
  /-- to the next instruction -/
  | seq
  /-- to a legal target -/
  | jump (t : BitVec 11)
  /-- into a loop body -/
  | loop (first : BitVec 11)
  /-- past a loop body that is not entered: its last instruction counts as retired -/
  | skip (last : Nat)
  /-- back from the handler -/
  | reth
  /-- halt after retiring -/
  | halt
  /-- the end of the task -/
  | tend
  deriving DecidableEq, Repr

/-- What an instruction does at its turn. -/
inductive JRes where
  /-- it stalls under a STALL code (R142) -/
  | stall (code : BitVec 4)
  /-- it traps (R133) -/
  | trap (cause : Byte) (val : Word)
  /-- it has had its effects and retires -/
  | done (s : State) (k : Kont)
  deriving Repr

/-- Sequential retirement of the instruction at `retired` (R106, R115); past 2,047 it traps after retiring. -/
def retireSeq (s : State) (a : Ash) (retired : Nat) : State :=
  let j := (s.ash a).joiner
  if j.handler then
    if retired = 2047 then jTrapEv s a 0x02 2048 evJnrIllegal 2047
    else s.onJ a fun j => { j with pc := BitVec.ofNat 11 (retired + 1) }.goOn
  else
    let e := loopEnd j.loops retired j.depth
    let s1 := s.onJ a fun j => { j with loops := e.1, depth := e.2.1 }
    match e.2.2 with
    | some t => s1.onJ a fun j => { j with pc := t }.goOn
    | none =>
      if retired = 2047 then jTrapEv s1 a 0x02 2048 evJnrIllegal 2047
      else s1.onJ a fun j => { j with pc := BitVec.ofNat 11 (retired + 1) }.goOn

/-- An instruction retires (R106, R115, R116, R128, R137, R138). A TEND that STEP has started ends its task as R128 has it:
the Joiner stands ended, not halted, and AUTORUN restarts it at the boundary (DESIGN CHOICE, log 200). -/
def retire (s : State) (a : Ash) (k : Kont) : State :=
  let pc := (s.ash a).joiner.pc
  match k with
  | .seq => retireSeq s a pc.toNat
  | .jump t =>
    s.onJ a fun j =>
      { j with pc := t, depth := if j.handler then j.depth else leaveDepth j.loops t.toNat j.depth }.goOn
  | .loop first => s.onJ a fun j => { j with pc := first }.goOn
  | .skip last => retireSeq s a last
  | .reth => s.onJ a fun j => { j with handler := false, pc := j.epc }.goOn
  | .halt =>
    let s1 := retireSeq s a pc.toNat
    let s2 := s1.onJ a fun j => if j.state = .faulted then j else { j with state := .halted }
    s2.raise (.ash a) evJnrHalt 0
  | .tend => s.onJ a fun j =>
      { j with depth := 0, state := .ended, taskEnd := true, step := false, stall := 0, bkptPass := false, pc := j.pc + 1 }

/-! ### Traps held for a boundary (R114, R134) -/

/-- A PWAIT that has started retires, its take made, before the Joiner leaves it (R376). -/
def settlePwait (s : State) (a : Ash) : State :=
  if (s.ash a).won.contains 4 then retire (s.onAsh a fun v => clearDog { v with won := v.won.erase 4 } 4) a .seq else s

/-- The held trap that is taken now: the oldest where the Joiner runs or stalls, and an ISSUE_DECODE also where the
instruction before has halted it or ended its task; none while it is frozen or faulted (R114, R134, R139). -/
def heldNow (v : Ashlar) : Option (Byte × Word) :=
  if v.frozen then none
  else match v.joiner.state with
    | .running => v.joiner.held.head?
    | .stalled => v.joiner.held.head?
    | .halted => v.joiner.held.find? fun h => h.1 == 0x08
    | .ended => v.joiner.held.find? fun h => h.1 == 0x08
    | .faulted => none

/-- The trap taken: a Joiner that stood halted stands halted at its handler, and one that had ended its task runs it
(R114, R135; DESIGN CHOICE, log 199). The event of an ISSUE_DECODE was raised when its check failed. -/
def takeHeld (s : State) (a : Ash) : State :=
  match heldNow (s.ash a) with
  | none => s
  | some h =>
    let u := settlePwait s a
    let t := u.onJ a fun j =>
      { j with held := j.held.erase h, step := j.step || j.state == .halted, taskEnd := j.taskEnd && j.state != .ended }
    if h.1 = 0x08 then jTrapGo t a h.1 h.2 (t.ash a).joiner.pc else jTrap t a h.1 h.2

/-- One turn of the Joiner on an instruction whose word is w: it stands at PC and does what `body` says, once none of
the registers it reads or writes is pending (R108, R109). A fetch that fails halts the Joiner (R51, R138); an illegal word
traps (R103); another word, a breakpoint or a Joiner that does not run leaves everything as it is. -/
def jTurn (s : State) (a : Ash) (w : Word) (uses : List Reg) (body : State → JRes) : State :=
  match fetch (s.ash a) with
  | .idle => s
  | .breakpoint => s
  | .ue => (s.onJ a fun j => { j with state := .faulted, step := false, stall := 0 }).raiseWord (.ash a) evImemEcc (imemPlace (s.ash a))
  | .word x corrected =>
    let s1 := if corrected then s.countErr (.ash a) else s
    if (s.ash a).joiner.held ≠ [] then takeHeld s a
    else if !jLegal x then jTrap s1 a 0x01 x
    else if x ≠ w then s
    else if uses.any (fun r => (s.ash a).joiner.isPending r) then
      s1.onJ a fun j => { j with state := .stalled, stall := 1 }
    else
      match body s1 with
      | .stall code => s1.onJ a fun j => { j with state := .stalled, stall := code }
      | .trap cause val => jTrap s1 a cause val
      | .done t k => takeHeld (retire t a k) a

/-- A Joiner command of an ashlar: a turn of its Joiner. -/
def jExec (s : State) (a : Ash) (w : Word) (uses : List Reg) (body : State → JRes) : Host.Outcome State Fault Refusal :=
  atAsh s a (.next (jTurn s a w uses body))

/-- An instruction that only writes rd (R97). -/
def jWrite (s : State) (a : Ash) (rd : Reg) (x : Word) : JRes := .done (s.onJ a fun j => j.wr rd x) .seq

/-- Register r of the Joiner. -/
def State.jr (s : State) (a : Ash) (r : Reg) : Word := (s.ash a).joiner.rd r

/-- The target PC + off of a taken branch or JAL; one outside 0 to 2,047 traps (R106). -/
def jTarget (s : State) (t : Word) (go : State → State) : JRes :=
  if t.toNat ≤ 2047 then .done (go s) (.jump (BitVec.ofNat 11 t.toNat)) else .trap 0x02 t

def jBranch (s : State) (a : Ash) (taken : Bool) (off : Half) : JRes :=
  if taken then jTarget s ((s.ash a).joiner.pc.zeroExtend 32 + off.signExtend 32) id else .done s .seq

/-! ### Control and status registers -/

/-- The extent of the current tile of the innermost tile loop, or 0 (R115). -/
def lext (j : Joiner) : Nat → Nat
  | 0 => 0
  | d + 1 =>
    let l := j.loops[ix 4 d (by decide)]
    if l.tile then
      let t := 2 ^ l.ltlog2.toNat
      min t (l.lrem.toNat - l.lidx.toNat * t)
    else lext j d

/-- Coordinates in the layout of BAYORG: X in [8:0], Y in [23:16] (R127). -/
def xyWord (x : BitVec 9) (y : Byte) : Word := BitVec.ofNat 32 (x.toNat + y.toNat * 2 ^ 16)

/-- ASH.ENGINE_STATUS (R86). -/
def engineStatus (v : Ashlar) : Word :=
  let per := fun (e : Engine) (k : Nat) => (min 4 (engDepth v e) + b2n (engExecuting v e) * 8) * 2 ^ (4 * k)
  let busy := per .matrix 0 + per .vector 1 + per .stream 2 + per .send 3
  let flt := fun (e : Engine) (k : Nat) => b2n (v.eng e).faulted * 2 ^ (16 + k)
  BitVec.ofNat 32 (busy + flt .matrix 0 + flt .vector 1 + flt .stream 2 + flt .send 3
    + min 16 (inFlight v).length * 2 ^ 20 + b2n (atBoundary v) * 2 ^ 25)

/-- A loop level as the CSRs show it: 0 at or above the depth (R127). -/
def shownLevel (j : Joiner) (n : Nat) (f : LoopLevel → Word) : Word :=
  if n < j.depth then f j.loops[ix 4 n (by decide)] else 0

def lspanWord (l : LoopLevel) : Word :=
  BitVec.ofNat 32 (l.lstart.toNat + l.ltlog2.toNat * 2 ^ 11 + l.lend.toNat * 2 ^ 16 + b2n l.tile * 2 ^ 27)

/-- The value of a CSR, or none where the index is not listed (R127). -/
def csrRead (s : State) (a : Ash) (c : Nat) : Option Word :=
  let v := s.ash a
  let j := v.joiner
  if c = 0x00 then some (s.reg (.ash a) 0x60)
  else if c = 0x01 then some (xyWord j.bayX j.bayY)
  else if c = 0x02 then
    let d := ashDest s a
    some (xyWord (BitVec.ofNat 9 (destX d) - j.bayX) (BitVec.ofNat 8 (destY d) - j.bayY))
  else if c = 0x03 then some (BitVec.ofNat 32 (bits (engineStatus v) 0 16))
  else if c = 0x04 then some j.pending
  else if 0x08 ≤ c ∧ c ≤ 0x0F then some (epStatus s a (c - 0x08))
  else if 0x10 ≤ c ∧ c ≤ 0x13 then some j.al[ix 4 (c - 0x10) (by decide)]
  else if c = 0x14 then some (BitVec.ofNat 32 (lext j j.depth))
  else if c = 0x15 then some (BitVec.ofNat 32 j.depth)
  else if 0x18 ≤ c ∧ c ≤ 0x1B then some (shownLevel j (c - 0x18) fun l => l.lidx)
  else if 0x1C ≤ c ∧ c ≤ 0x1F then some (shownLevel j (c - 0x1C) fun l => l.lcnt)
  else if 0x20 ≤ c ∧ c ≤ 0x23 then some (shownLevel j (c - 0x20) lspanWord)
  else if 0x24 ≤ c ∧ c ≤ 0x27 then some (shownLevel j (c - 0x24) fun l => l.lrem)
  else if c = 0x30 then some (BitVec.ofNat 32 j.epc.toNat)
  else if c = 0x31 then some (BitVec.ofNat 32 j.tcause.toNat)
  else if c = 0x32 then some j.tval
  else if c = 0x33 then some j.hscratch
  else none

/-- A CSRW of the Joiner: none where the index is not writable (R127). -/
def csrWrite (j : Joiner) (c : Nat) (x : Word) : Option Joiner :=
  if 0x10 ≤ c ∧ c ≤ 0x13 then some { j with al := j.al.set (ix 4 (c - 0x10) (by decide)) x }
  else if c = 0x30 then some { j with epc := BitVec.ofNat 11 x.toNat }
  else if c = 0x33 then some { j with hscratch := x }
  else none

/-- One loop level changed. -/
def Joiner.onLevel (j : Joiner) (n : Nat) (f : LoopLevel → LoopLevel) : Joiner :=
  { j with loops := j.loops.set (ix 4 n (by decide)) (f j.loops[ix 4 n (by decide)]) }

/-- A CSR written through ASH.JREG_DATA, RO entries included, derived ones not (R144). -/
def csrRestore (j : Joiner) (c : Nat) (x : Word) : Joiner :=
  match csrWrite j c x with
  | some j' => j'
  | none =>
    if c = 0x15 then (if x.toNat ≤ 4 then { j with depth := x.toNat } else j)
    else if 0x18 ≤ c ∧ c ≤ 0x1B then j.onLevel (c - 0x18) fun l => { l with lidx := x }
    else if 0x1C ≤ c ∧ c ≤ 0x1F then j.onLevel (c - 0x1C) fun l => { l with lcnt := x }
    else if 0x20 ≤ c ∧ c ≤ 0x23 then j.onLevel (c - 0x20) fun l =>
      { l with lstart := BitVec.ofNat 11 (bits x 0 11), ltlog2 := BitVec.ofNat 5 (bits x 11 5),
               lend := BitVec.ofNat 11 (bits x 16 11), tile := bit x 27 }
    else if 0x24 ≤ c ∧ c ≤ 0x27 then j.onLevel (c - 0x24) fun l => { l with lrem := x }
    else if c = 0x31 then { j with tcause := BitVec.ofNat 8 x.toNat }
    else if c = 0x32 then { j with tval := x }
    else j

/-- ASH.JREG_DATA read: the register that ASH.JREG_SEL names; 0 for an unlisted index (R143, R144). -/
def jregRead (s : State) (a : Ash) : Word :=
  let i := s.fld (.ash a) 0x134 0 9
  if i < 32 then s.jr a (BitVec.ofNat 5 i)
  else if i = 0x1F0 then BitVec.ofNat 32 (s.ash a).joiner.pc.toNat
  else if 0x100 ≤ i then (csrRead s a (i - 0x100)).getD 0 else 0

/-- Whether JREG_DATA is open: halted, ended, faulted or frozen (R144). -/
def jregOpen (v : Ashlar) : Bool := !jRuns v

/-- ASH.JREG_DATA written (R144). -/
def jregWrite (s : State) (a : Ash) (x : Word) : State :=
  if !jregOpen (s.ash a) then s.record (.ash a) evErrAccess 0
  else
    let i := s.fld (.ash a) 0x134 0 9
    if i < 32 then s.onJ a fun j => j.wr (BitVec.ofNat 5 i) x
    else if i = 0x1F0 then s.onJ a fun j => { j with pc := BitVec.ofNat 11 x.toNat, bkptPass := false }
    else if i = 0x115 ∧ 4 < x.toNat then s.record (.ash a) evErrRange 0
    else if 0x100 ≤ i then s.onJ a fun j => csrRestore j (i - 0x100) x
    else s

end Sys2Proof.Machine
end

