-- ==== Sys2Proof/Machine/JoinerSys.lean ====
section
/-! DEFINITION. The Joiner's instructions that reach outside it: issue (R111 to R114), pegs (R119 to R122), endpoints
(R123, R124), the Mason (R125), fences, control registers and ends of tasks (R126 to R138), and its own events. -/

namespace Sys2Proof.Machine

/-! ### ISSUE -/

/-- A descriptor's words read from data memory: the replaced ones are not read (R112, R113). -/
structure DescRead where
  words : List Word
  corrected : Nat
  /-- byte address of the first uncorrectable word -/
  bad : Option Nat
  deriving DecidableEq, Repr

/-- One descriptor word: as it stands, corrected, or replaced. -/
def descWord (m : Mem) (addr k : Nat) (sub : Option Word) (d : DescRead) : DescRead :=
  match sub with
  | some w => { d with words := d.words ++ [w] }
  | none =>
    let h := readHalf m ((addr + 4 * k) / 4)
    match h.2 with
    | .clean => { d with words := d.words ++ [h.1] }
    | .corrected _ => { d with words := d.words ++ [h.1], corrected := d.corrected + 1 }
    | .ue => { d with words := d.words ++ [h.1], bad := d.bad.or (some (addr + 4 * k)) }

/-- The value that replaces word k, if any; rsB wins (R112). -/
def replaced (s : State) (a : Ash) (rsA : Reg) (widxA : BitVec 4) (rsB : Reg) (widxB : BitVec 4) (k : Nat) :
    Option Word :=
  if k = 0 then none
  else if widxB.toNat = k then some (s.jr a rsB)
  else if widxA.toNat = k then some (s.jr a rsA)
  else none

/-- The instruction a transfer hands over (R54, R112). -/
def transferred (v : Ashlar) (words : List Word) : EngInstr where
  engine := engineOf (bits (words.getD 0 0) 30 2)
  seq := BitVec.ofNat 5 v.joiner.issued
  order := v.joiner.issued
  words := words
  pc := v.joiner.pc
  phase := .transferred
  faulted := false
  reads := []
  write := none
  slotA := 0
  slotB := 0
  slotW := 0
  popped := false
  sent := 0
  wait := .none
  early := false

/-- The end of a transfer: the instruction waits to be decoded, and its reduction destination is pending (R54, R110). -/
def endTransfer (s : State) (a : Ash) (words : List Word) : State :=
  s.onAsh a fun v =>
    let i := transferred v words
    { v with
      transfer := some i
      joiner := { v.joiner.setPending (rdstOf i.engine words) with issued := v.joiner.issued + 1 } }

/-- The body of ISSUE (R111 to R113, R53, R110). While an earlier transfer is not yet decoded the transfer port is taken
(R142's code 8). -/
def issueBody (rsA rs1 : Reg) (widxA : BitVec 4) (rsB : Reg) (widxB : BitVec 4) (a : Ash) (s : State) : JRes :=
  let v := s.ash a
  let j := v.joiner
  let addr := (s.jr a rs1).toNat
  if v.transfer.isSome then .stall 8
  else if !v.ctxValid then .trap 0x09 (BitVec.ofNat 32 j.pc.toNat)
  else if addr % 16 ≠ 0 ∨ 0xFFF < addr then .trap 0x0A (s.jr a rs1)
  else
    let d0 := descWord j.dmem addr 0 none ⟨[], 0, none⟩
    let len := 6 + bits (d0.words.getD 0 0) 20 4
    if d0.bad.isSome then .trap 0x05 (s.jr a rs1)
    else if 0x1000 < addr + 4 * len ∨ len ≤ widxA.toNat ∨ len ≤ widxB.toNat then .trap 0x0A (s.jr a rs1)
    else
      let d := (List.range (len - 1)).foldl (fun d k =>
        descWord j.dmem addr (k + 1) (replaced s a rsA widxA rsB widxB (k + 1)) d) d0
      let e := engineOf (bits (d.words.getD 0 0) 30 2)
      if j.isPending (rdstOf e d.words) then .stall 1
      else if 4 ≤ engDepth v e then .stall 2
      else
        let s1 := (List.range d.corrected).foldl (fun u _ => u.countErr (.ash a)) s
        match d.bad with
        | some x => .trap 0x05 (BitVec.ofNat 32 x)
        | none => .done (endTransfer s1 a d.words) .seq

/-- ISSUE, opcode 0x24 (R111 to R113). -/
def execIssue (a : Ash) (rsA rs1 : Reg) (widxA : BitVec 4) (rsB : Reg) (widxB : BitVec 4) (s : State) :
    Host.Outcome State Fault Refusal :=
  jExec s a (encIssue rsA rs1 widxA rsB widxB)
    ([rs1] ++ (if widxA = 0 then [] else [rsA]) ++ (if widxB = 0 then [] else [rsB]))
    (issueBody rsA rs1 widxA rsB widxB a)

/-! ### Pegs (R119 to R122) -/

/-- PSIG, opcode 0x28 (R119). -/
def execPsig (a : Ash) (inc : Byte) (peg : BitVec 6) (s : State) : Host.Outcome State Fault Refusal :=
  jExec s a (encPsig inc peg) [] fun t =>
    if inc = 0 ∨ 48 ≤ peg.toNat then .trap 0x01 (encPsig inc peg)
    else .done (t.signal a peg.toNat (inc.zeroExtend 16) 2 0) .seq

/-- The wait of a PWAIT. -/
def pwaitOf (s : State) (a : Ash) (rs1 : Reg) (mode : BitVec 2) (peg : BitVec 6) : Wait :=
  ⟨mode == 1, peg.toNat, bits (s.jr a rs1) 0 16, false⟩

/-- PWAIT, opcode 0x29 (R120, R375, R376): the Joiner ranks after the four engines; it passes where a cycle has already
started it. -/
def execPwait (a : Ash) (rs1 : Reg) (mode : BitVec 2) (peg : BitVec 6) (s : State) :
    Host.Outcome State Fault Refusal :=
  jExec s a (encPwait rs1 mode peg) [rs1] fun t =>
    let w := pwaitOf t a rs1 mode peg
    if mode = 0 ∨ mode = 3 ∨ 48 ≤ peg.toNat then .trap 0x01 (encPwait rs1 mode peg)
    else if mode = 1 ∧ (w.th = 0 ∨ 0x7FFF < w.th) then .trap 0x01 (encPwait rs1 mode peg)
    else if passes (t.ash a) [w] 4 then .done (t.onAsh a fun v => clearDog (passWaiter v [w] 4) 4) .seq
    else .stall 3

/-- PTEST, opcode 0x2A (R121). -/
def execPtest (a : Ash) (rd rs1 : Reg) (peg : BitVec 6) (s : State) : Host.Outcome State Fault Refusal :=
  jExec s a (encPtest rd rs1 peg) [rd, rs1] fun t =>
    if 48 ≤ peg.toNat then .trap 0x01 (encPtest rd rs1 peg)
    else jWrite t a rd (b2w (holds ((t.ash a).peg peg.toNat).value.toNat (bits (t.jr a rs1) 0 16)))

/-- PRD, opcode 0x2B (R121). -/
def execPrd (a : Ash) (rd : Reg) (peg : BitVec 6) (s : State) : Host.Outcome State Fault Refusal :=
  jExec s a (encPrd rd peg) [rd] fun t =>
    if 48 ≤ peg.toNat then .trap 0x01 (encPrd rd peg)
    else jWrite t a rd (((t.ash a).peg peg.toNat).value.zeroExtend 32)

/-- Whether a target word breaks the layout of R122; `pegUsed` is false where PEG is reserved (R336). -/
def targetBroken (w : Word) : Bool :=
  bits w 24 8 != 0 || (bit w 23 && decide (0xC0 ≤ bits w 15 8))
    || ((bit w 23 || decide (bits w 15 8 < 0xC0)) && decide (48 ≤ bits w 0 6))

/-- The destination a target word names, the bay origin added for REL; none where the coordinate lies beyond what a
destination can hold, so beyond the grid (R122, R307, R308). -/
def targetDest (v : Ashlar) (w : Word) : Option Dest :=
  if bit w 23 then
    let x := bits w 6 9 + v.joiner.bayX.toNat
    let y := bits w 15 8 + v.joiner.bayY.toNat
    if x < 512 ∧ y < 0xC0 then some (mkDest x y) else none
  else some (mkDest (bits w 6 9) (bits w 15 8))

/-- A FADD_NAK: all ones into rd, its pending bit cleared, the trap held for the next boundary (R122, R134). -/
def faddNak (s : State) (a : Ash) (rd : Reg) (rs1 : Word) : State :=
  s.onJ a fun j => { (j.wr rd 0xFFFFFFFF).clearPending rd with held := j.held ++ [(0x0B, rs1)] }

/-- A PFADD on its way: rd pending, the FADD sent; a missing destination refused before anything is sent (R122, R308). -/
def pfaddSend (s : State) (a : Ash) (rd : Reg) (w : Word) (delta : Half) : State :=
  let v := s.ash a
  match targetDest v w with
  | none => faddNak s a rd w
  | some d =>
    if destMissing s d then faddNak s a rd w
    else
      let peg := BitVec.ofNat 6 (bits w 0 6)
      (s.onJ a fun j => { j.setPending rd with fadds := j.fadds ++ [(rd, peg, d, w)] }).send
        (ashPacket s a d (.fadd peg delta v.job))

/-- PFADD, opcode 0x2C (R122). -/
def execPfadd (a : Ash) (rd rs1 rs2 : Reg) (s : State) : Host.Outcome State Fault Refusal :=
  jExec s a (encR 0x2C rd rs1 rs2 0) [rd, rs1, rs2] fun t =>
    if targetBroken (t.jr a rs1) then .trap 0x01 (encR 0x2C rd rs1 rs2 0)
    else .done (pfaddSend t a rd (t.jr a rs1) (BitVec.ofNat 16 (bits (t.jr a rs2) 0 16))) .seq

/-! ### Endpoints (R123, R124) -/

/-- EPRD, opcode 0x30 (R124). -/
def execEprd (a : Ash) (rd : Reg) (word : BitVec 2) (ep : BitVec 3) (s : State) : Host.Outcome State Fault Refusal :=
  jExec s a (encEprd rd word ep) [rd] fun t =>
    if epCount (t.ash a) ep.toNat = 0 then .trap 0x06 (ep.zeroExtend 32)
    else jWrite t a rd (epWord (t.ash a) ep.toNat word.toNat)

/-- EPPOP, opcode 0x31 (R124, R344). -/
def execEppop (a : Ash) (ep : BitVec 3) (s : State) : Host.Outcome State Fault Refusal :=
  jExec s a (encEppop ep) [] fun t =>
    if epCount (t.ash a) ep.toNat = 0 then .trap 0x06 (ep.zeroExtend 32)
    else if ringInUse (t.ash a) ep.toNat then .stall 0
    else .done (popEndpoint t a ep.toNat) .seq

/-- BEPE, opcode 0x32 (R123). -/
def execBepe (a : Ash) (ep : BitVec 3) (off : Half) (s : State) : Host.Outcome State Fault Refusal :=
  jExec s a (encBep 0x32 ep off) [] fun t => jBranch t a (epCount (t.ash a) ep.toNat == 0) off

/-- BEPNE, opcode 0x33 (R123). -/
def execBepne (a : Ash) (ep : BitVec 3) (off : Half) (s : State) : Host.Outcome State Fault Refusal :=
  jExec s a (encBep 0x33 ep off) [] fun t => jBranch t a (epCount (t.ash a) ep.toNat != 0) off

/-! ### Control and status registers, the Mason, ends (R125 to R138) -/

/-- CSRR, opcode 0x34 (R127). -/
def execCsrr (a : Ash) (rd : Reg) (csr : Byte) (s : State) : Host.Outcome State Fault Refusal :=
  jExec s a (encCsrr rd csr) [rd] fun t =>
    match csrRead t a csr.toNat with
    | some x => jWrite t a rd x
    | none => .trap 0x01 (encCsrr rd csr)

/-- CSRW, opcode 0x35 (R127). -/
def execCsrw (a : Ash) (rs1 : Reg) (csr : Byte) (s : State) : Host.Outcome State Fault Refusal :=
  jExec s a (encCsrw rs1 csr) [rs1] fun t =>
    match csrWrite (t.ash a).joiner csr.toNat (t.jr a rs1) with
    | some j => .done (t.onJ a fun _ => j) .seq
    | none => .trap 0x01 (encCsrw rs1 csr)

/-- MSG, opcode 0x38: posted until the inbox accepts it (R125, R492). -/
def execMsg (a : Ash) (rs1 : Reg) (s : State) : Host.Outcome State Fault Refusal :=
  jExec s a (encI 0x38 0 rs1 0) [rs1] fun t =>
    if (t.ash a).joiner.msg.isSome then .stall 5
    else
      let x := t.jr a rs1
      let t1 := t.onJ a fun j => { j with msg := some x }
      .done { t1 with reports := t1.reports ++ [⟨.ash a, ashDest t a, x, (t.ash a).job, false, t.time, 0⟩] } .seq

/-- TEND, opcode 0x39 (R128). -/
def execTend (a : Ash) (s : State) : Host.Outcome State Fault Refusal :=
  jExec s a (encI 0x39 0 0 0) [] fun t =>
    if (t.ash a).joiner.pending = 0 then .done t .tend else .stall 6

/-- TRAP, opcode 0x3A (R133). -/
def execTrap (a : Ash) (code : Half) (s : State) : Host.Outcome State Fault Refusal :=
  jExec s a (encI 0x3A 0 0 code) [] fun _ => .trap 0x0C (code.zeroExtend 32)

/-- RETH, opcode 0x3B (R133, R137). -/
def execReth (a : Ash) (s : State) : Host.Outcome State Fault Refusal :=
  jExec s a (encI 0x3B 0 0 0) [] fun t =>
    if (t.ash a).joiner.handler then .done t .reth else .trap 0x01 (encI 0x3B 0 0 0)

/-- Whether every engine a mask names has an empty queue (R126). -/
def queuesEmpty (v : Ashlar) (mask : BitVec 4) : Bool :=
  [Engine.matrix, .vector, .stream, .send].all fun e =>
    mask.toNat / 2 ^ (engineIx e).val % 2 == 0 || engDepth v e == 0

/-- FENCE, opcode 0x3C (R126). -/
def execFence (a : Ash) (mask : BitVec 4) (s : State) : Host.Outcome State Fault Refusal :=
  jExec s a (encFence mask) [] fun t =>
    if (t.ash a).joiner.pending = 0 ∧ queuesEmpty (t.ash a) mask then .done t .seq else .stall 4

/-- HALT, opcode 0x3D (R138). -/
def execHalt (a : Ash) (s : State) : Host.Outcome State Fault Refusal :=
  jExec s a (encI 0x3D 0 0 0) [] fun t => .done t .halt

/-! ### The Joiner's own events -/

/-- A fetch meets an armed breakpoint: the Joiner halts before the instruction (R138); an unreadable word halts it
faulted (R51). -/
def breakTurn (s : State) (a : Ash) : State :=
  match fetch (s.ash a) with
  | .breakpoint =>
    (s.onJ a fun j => { j with state := .halted, step := false, stall := 0, bkptPass := true }).raise (.ash a) evJnrBreak 0
  | .ue => (s.onJ a fun j => { j with state := .faulted, step := false, stall := 0 }).raiseWord (.ash a) evImemEcc (imemPlace (s.ash a))
  | _ => s

/-- BREAKPOINT (R138). -/
def execBreakpoint (a : Ash) (s : State) : Host.Outcome State Fault Refusal :=
  atAsh s a (.next (breakTurn s a))

/-- The task boundary after TEND: an armed swap, PC at ENTRY, AUTORUN, and the mask buffers cleared (R129, R242). -/
def taskBoundary (v : Ashlar) : Ashlar :=
  let j := v.joiner
  { v with
    masks := Vector.replicate 4 0
    joiner := { j with
      active := if j.armed then !j.active else j.active
      armed := false
      taskEnd := false
      pc := j.entry
      state := if j.autorun then .running else .ended } }

/-- TASK_BOUNDARY (R129): takes place once the boundary of R74 is reached after TEND. -/
def execTaskBoundary (a : Ash) (s : State) : Host.Outcome State Fault Refusal :=
  atAsh s a <|
    let v := s.ash a
    if v.joiner.taskEnd && v.joiner.state = .ended && atBoundary v && !v.frozen then .next (s.onAsh a taskBoundary)
    else .next s

/-- A scalar result written to its register: the pending bit clears, even while the ashlar is frozen (R139, R247). -/
def reductionWrite (j : Joiner) (rd : Reg) : Joiner :=
  match j.results.find? fun r => decide (r.1 = rd) with
  | some r => { (j.wr rd r.2).clearPending rd with results := j.results.erase r }
  | none => j

/-- REDUCTION_WRITE (R247). -/
def execReductionWrite (a : Ash) (rd : Reg) (s : State) : Host.Outcome State Fault Refusal :=
  atAsh s a (.next (s.onJ a fun j => reductionWrite j rd))

end Sys2Proof.Machine
end

