-- ==== Sys2Proof/Machine/Conv.lean ====
section
/-! DEFINITION. What conversions share: the CONV field (R198), rows of packed elements with their block scales (R149, R150,
R235), reads of the words they touch and masked writes of them. -/

namespace Sys2Proof.Machine

/-- The conversion field of R198. -/
structure Conv where
  fmt : Nat
  blk : Nat
  mode : RMode
  lane : Nat
  deriving DecidableEq, Repr

def convOf (f : Nat) : Conv := ⟨f % 16, f / 16 % 4, rmodeOf (f / 64 % 4), f / 256 % 4⟩

/-- Whether a conversion field breaks R188, R189 or R198. -/
def convBad (f : Nat) : Bool :=
  let c := convOf f
  f / 1024 % 64 != 0 || c.fmt == 15 || c.blk == 3 || (c.blk != 0 && !fmtScalable c.fmt)

/-- Block size of a conversion, 0 without scales. -/
def Conv.bs (c : Conv) : Nat :=
  match c.blk with
  | 1 => 16
  | 2 => 32
  | _ => 0

def Conv.width (c : Conv) : Nat := fmtWidth c.fmt

def ceilDiv (a b : Nat) : Nat := (a + b - 1) / b

/-- Data words of a row of n elements (R149, R235). -/
def Conv.dataWords (c : Conv) (n : Nat) : Nat := ceilDiv (n * c.width) 64

/-- Scale words of a row of n elements (R150, R235). -/
def Conv.scaleWords (c : Conv) (n : Nat) : Nat := if c.bs = 0 then 0 else ceilDiv (ceilDiv n c.bs) 8

/-- The words, counted from its row's first word, that hold element e of a row of n: data, then its scale (R149,
R150). -/
def Conv.wordsOf (c : Conv) (n e : Nat) : List Nat :=
  let lo := e * c.width / 64
  let hi := (e * c.width + c.width - 1) / 64
  (if lo = hi then [lo] else [lo, hi]) ++ (if c.bs = 0 then [] else [c.dataWords n + e / c.bs / 8])

/-- n bits at bit offset o of words listed by offset; unlisted words read 0. -/
def bitsAt (ws : List (Nat × Nat)) (o n : Nat) : Nat :=
  let at' := fun k => match ws.find? fun w => w.1 == k with
    | some w => w.2
    | none => 0
  (at' (o / 64) + at' (o / 64 + 1) * 2 ^ 64) / 2 ^ (o % 64) % 2 ^ n

/-- The exact value of element e of a row of n from the row's words (R192, R195, R196). -/
def Conv.elemOf (c : Conv) (n : Nat) (ws : List (Nat × Nat)) (e : Nat) : Val :=
  let code := bitsAt ws (e * c.width) c.width
  if c.bs = 0 then elem c.fmt code
  else scaledElem c.fmt code (bitsAt ws (64 * c.dataWords n + 8 * (e / c.bs)) 8)

/-- Words of declared range k, at offsets from `base`, read once each. -/
def readAt (r : Run) (i : EngInstr) (k base : Nat) : List Nat → List (Nat × Nat) × Run
  | [] => ([], r)
  | o :: rest =>
    let x := readWord r i k (base + o)
    let y := readAt x.2 i k base rest
    ((o, x.1) :: y.1, y.2)

/-- Bits to be written: a mask and the data under it, as one long little-endian number. -/
structure Bits where
  mask : Nat
  data : Nat
  deriving DecidableEq, Repr

def Bits.none : Bits := ⟨0, 0⟩

/-- n bits of code put at bit offset o. -/
def Bits.put (b : Bits) (o n code : Nat) : Bits :=
  ⟨b.mask ||| ((2 ^ n - 1) <<< o), b.data ||| ((code % 2 ^ n) <<< o)⟩

/-- The bits written through RANGE_W to the words from offset `base`, `first` to `first + n − 1` of them. -/
def writeBits (r : Run) (i : EngInstr) (base first : Nat) (b : Bits) : Nat → Run
  | 0 => r
  | n + 1 =>
    let w := first
    let m := b.mask / 2 ^ (64 * w) % 2 ^ 64
    let r1 := if m = 0 then r else writeWord r i (base + w) (b.data / 2 ^ (64 * w) % 2 ^ 64) m
    writeBits r1 i base (first + 1) b n

end Sys2Proof.Machine
end

