-- ==== Sys2Proof/Machine/Ways.lean ====
section
/-! DEFINITION. The Mortar as packets see it: routers, rails and ports (R304, R306, R307, R309), the way of a packet (R305,
R316), the buffers on it and what they hold back (R312, R313, R319, R351 to R353, R355), and packets leaving it.

A step is not a cycle, so the model places no packet that is free to go on; one that something holds stands in the buffers
before it, and holds in turn what comes behind it (log 184). -/

namespace Sys2Proof.Machine

/-! ### Routers and ports -/

/-- An output port of a router: its local port, the four links (of a rail router the inner and outer port), the attach ports
A and B of a rail router (R304); `inject` stands for the entry at the source, `queue` for the far end of a lintel queue. -/
inductive Port where
  | inject | local | north | east | south | west | attachA | attachB | queue
  deriving DecidableEq, Repr

/-- A port of a router of a die: column and router row, 0 for the north rail, p + 1 for physical row p, 99 for the south rail
(R304). Of a lintel queue `col` is its column or logical row (R305) and `row` the side it leaves its die by. -/
structure Hop where
  die : Nat
  col : Nat
  row : Nat
  port : Port
  deriving DecidableEq, Repr

/-- Router row of a logical row (R304). -/
def rho (s : State) (die lrow : Nat) : Nat := (physicalRow s die lrow).getD 97 + 1

/-- Where a block attaches: its columns, whether on the south rail, and its port (R307). -/
def blockPlace (code inst : Nat) : Nat × Nat × Bool × Port :=
  match code with
  | 0 => (0, 127, inst == 1, .attachA)
  | 1 => (0, 31, true, .attachB)
  | 2 => (32, 39, true, .attachB)
  | 3 => (40, 55, true, .attachB)
  | 4 => (0, 7, false, .attachB)
  | 5 => if inst = 0 then (8, 15, false, .attachB) else (16, 23, false, .attachB)
  | 6 => (24, 31, false, .attachB)
  | 7 => (32, 47, false, .attachB)
  | 8 => (48, 51, false, .attachB)
  | _ => (52, 55, false, .attachB)

/-- Router row of a rail. -/
def railRow (south : Bool) : Nat := if south then 99 else 0

/-- Logical row in which a rail's flits make their row moves (R316). -/
def railLogical (south : Bool) : Nat := if south then 95 else 0

/-- min(max(x − 128·k, c0), c1) of R309, for a global column x and a die of die column k. -/
def clampCol (part : Part) (die x c0 c1 : Nat) : Nat := min (max (x - 128 * (die % part.dieCols)) c0) c1

/-- The global column by which the other end reckons with an address (R309): an ashlar's own; of a block, whose column
depends on its partner in turn, the first of its columns (DESIGN CHOICE, log 184). -/
def columnOf (part : Part) (d : Dest) : Nat :=
  if isBlock d then
    let b := blockOf d
    128 * (b.2.1 % part.dieCols) + (blockPlace b.1 b.2.2).1
  else destX d

/-- An end of a way: die, local column, router row, logical row of its row moves, its port there, and whether on a rail. -/
structure WayEnd where
  die : Nat
  col : Nat
  row : Nat
  lrow : Nat
  port : Port
  rail : Bool
  deriving DecidableEq, Repr

/-- The end at an address for a partner at a global column (R307, R309). -/
def wayEnd (s : State) (d : Dest) (other : Nat) : WayEnd :=
  if isBlock d then
    let b := blockOf d
    let p := blockPlace b.1 b.2.2
    ⟨b.2.1, clampCol s.part b.2.1 other p.1 p.2.1, railRow p.2.2.1, railLogical p.2.2.1, p.2.2.2, true⟩
  else
    let die := dieOf s.part (destX d) (destY d)
    ⟨die, destX d % 128, rho s die (destY d % 96), destY d % 96, .local, false⟩

/-- Global column of an end. -/
def WayEnd.global (part : Part) (e : WayEnd) : Nat := 128 * (e.die % part.dieCols) + e.col

/-- The end a packet starts from: a timed event leaves the Ethernet block by the attach column of its route (R309, R475). -/
def srcEnd (s : State) (p : Packet) : WayEnd :=
  let e := wayEnd s p.src (columnOf s.part p.dest)
  if p.vc = 0 ∧ isBlock p.src ∧ (blockOf p.src).1 = 4 then
    match (s.die e.die).ing.routes.toList.find? fun r => r.entry.valid && r.entry.vc == 0 && r.entry.dest == p.dest with
    | some r => { e with col := r.attach.toNat }
    | none => e
  else e

def dstEnd (s : State) (p : Packet) : WayEnd := wayEnd s p.dest ((srcEnd s p).global s.part)

/-! ### Ways (R305, R316) -/

/-- Outputs of the routers along a row of one die, from a column up to another one. -/
def rowHops (die r x0 x1 : Nat) : List Hop :=
  if x0 < x1 then (List.range (x1 - x0)).map fun i => ⟨die, x0 + i, r, .east⟩
  else (List.range (x0 - x1)).map fun i => ⟨die, x0 - i, r, .west⟩

/-- Outputs of the routers along a column of one die. -/
def colHops (die x r0 r1 : Nat) : List Hop :=
  if r0 < r1 then (List.range (r1 - r0)).map fun i => ⟨die, x, r0 + i, .south⟩
  else (List.range (r0 - r1)).map fun i => ⟨die, x, r0 - i, .north⟩

/-- A row move in a logical row to a global column, across vertical edges (R305): its outputs, and the die it ends on. -/
def rowMove (s : State) (lrow X : Nat) : Nat → Nat → Nat → List Hop × Nat
  | 0, die, _ => ([], die)
  | n + 1, die, x =>
    let r := rho s die lrow
    let k := die % s.part.dieCols
    if X / 128 = k then (rowHops die r x (X % 128), die)
    else if k < X / 128 then
      let y := rowMove s lrow X n (die + 1) 0
      (rowHops die r x 127 ++ [⟨die, 127, r, .east⟩, ⟨die, lrow, 1, .queue⟩] ++ y.1, y.2)
    else
      let y := rowMove s lrow X n (die - 1) 127
      (rowHops die r x 0 ++ [⟨die, 0, r, .west⟩, ⟨die, lrow, 3, .queue⟩] ++ y.1, y.2)

/-- A column move to a router row of a die-row, through the rails and across horizontal edges (R305): its outputs, and the
die it ends on. -/
def colMove (part : Part) (x ty : Nat) (target : Nat → Nat) : Nat → Nat → Nat → List Hop × Nat
  | 0, die, _ => ([], die)
  | n + 1, die, r =>
    let k := die / part.dieCols
    if k = ty then (colHops die x r (target die), die)
    else if k < ty then
      let y := colMove part x ty target n (die + part.dieCols) 0
      (colHops die x r 99 ++ [⟨die, x, 99, .south⟩, ⟨die, x, 2, .queue⟩] ++ y.1, y.2)
    else
      let y := colMove part x ty target n (die - part.dieCols) 99
      (colHops die x r 0 ++ [⟨die, x, 0, .north⟩, ⟨die, x, 0, .queue⟩] ++ y.1, y.2)

/-- The outputs between two ends, the last the destination's own (R316). -/
def wayBetween (s : State) (a b : WayEnd) (yx : Bool) : List Hop :=
  let w := s.part.dieCols
  let X := b.global s.part
  let last : Hop := ⟨b.die, b.col, b.row, b.port⟩
  let ty := b.die / w
  if yx then
    -- the row move runs in the destination's logical row, or in the row beside its rail
    let c := colMove s.part a.col ty (fun d => if !b.rail || decide (X ≠ a.global s.part) then rho s d b.lrow else b.row)
      4 a.die a.row
    if X = a.global s.part then c.1 ++ [last]
    else
      let r := rowMove s b.lrow X 8 c.2 a.col
      c.1 ++ r.1 ++ (if b.rail then colHops b.die b.col (rho s b.die b.lrow) b.row else []) ++ [last]
  else
    let target := fun d => if b.rail then b.row else rho s d b.lrow
    if X = a.global s.part then (colMove s.part a.col ty target 4 a.die a.row).1 ++ [last]
    else
      -- from a rail the row move is made in the row beside it
      let enter := if a.rail then colHops a.die a.col a.row (rho s a.die a.lrow) else []
      let r := rowMove s a.lrow X 8 a.die a.col
      enter ++ r.1 ++ (colMove s.part b.col ty target 4 r.2 (rho s r.2 a.lrow)).1 ++ [last]

/-- A response, which a block sends on the reply lane (R315). -/
def isReply (b : Body) : Bool :=
  match b with
  | .connReply _ _ _ _ _ _ _ => true
  | .nak _ _ => true
  | .cret _ _ => true
  | .faddReply _ _ => true
  | .mresp _ _ _ _ _ _ => true
  | .mack _ _ => true
  | .kgrant _ _ => true
  | .scaf _ c =>
    (match c with
     | .readReply _ _ => true
     | .bcastDone _ => true
     | .loadDone _ => true
     | .saveDone _ => true
     | _ => false)
  | _ => false

/-- Whether a packet is on the reply lane: the responses a block sends (R315). -/
def replyLane (p : Packet) : Bool := isBlock p.src && isReply p.body

/-- YX of a packet (R315): 1 on the reply lane, of a VC0 channel flit that of its channel or route, else 0. -/
def yxFirst (p : Packet) : Bool :=
  match p.body with
  | .chan _ _ yx => yx && p.vc == 0
  | _ => replyLane p

/-- The way of a packet: its entry, and every output it takes. -/
def way (s : State) (p : Packet) : List Hop :=
  let a := srcEnd s p
  ⟨a.die, a.col, a.row, .inject⟩ :: wayBetween s a (dstEnd s p) (yxFirst p)

/-- The lintel queues on a way. -/
def lintelHops (l : List Hop) : List Hop := l.filter fun h => h.port == .queue

/-- Changes of direction along a way within a die (R317). -/
def turnsOf : List Hop → Nat
  | a :: b :: r =>
    (if a.port ≠ b.port ∧ [Port.north, .east, .south, .west].contains b.port ∧ a.port ≠ .inject ∧ a.port ≠ .queue then 1 else 0)
      + turnsOf (b :: r)
  | _ => 0

/-- The far end of a lintel queue as the direction in which a flit comes from it. -/
def entryHop (h : Hop) : Hop :=
  { h with port := match h.row with
    | 0 => .north
    | 1 => .east
    | 2 => .south
    | _ => .west }

/-- A way cut at its lintels, each segment but the last ending with its edge output and each but the first beginning with the
entry from its lintel, so that a turn at the first router after it counts (R317). -/
def segments : List Hop → List (List Hop)
  | [] => [[]]
  | h :: r =>
    match segments r with
    | [] => [[h]]
    | x :: xs => if h.port = .queue then [] :: (entryHop h :: x) :: xs else (h :: x) :: xs

/-- D of a way (R320, R321): within a die hops and turns, 1 from an ashlar to itself; across lintels the sum over the dies,
the edge hops, which the crossings stand for, left out. -/
def planD (l : List Hop) : Nat :=
  if l.length ≤ 1 then 1
  else
    match segments l with
    | [] => 0
    | x :: xs => x.length - 1 + turnsOf x + (xs.map fun y => y.length - 2 + turnsOf y).sum

/-! ### Lintels on the way, by dies (R28, R316, R352) -/

/-- The die a packet's address lies on (R307). -/
def destDie (part : Part) (d : Dest) : Nat :=
  if isBlock d then (blockOf d).2.1 else dieOf part (destX d) (destY d)

/-- Lintel sides crossed along a die-row, from a die to a die column. -/
def crossRow (part : Part) (d tx : Nat) : Nat → List (Nat × Side)
  | 0 => []
  | n + 1 =>
    if d % part.dieCols < tx then (d, .east) :: crossRow part (d + 1) tx n
    else if tx < d % part.dieCols then (d, .west) :: crossRow part (d - 1) tx n
    else []

/-- Lintel sides crossed along a die-column, from a die to a die-row. -/
def crossCol (part : Part) (d ty : Nat) : List (Nat × Side) :=
  if d / part.dieCols < ty then [(d, .south)] else if ty < d / part.dieCols then [(d, .north)] else []

/-- The lintel sides a packet leaves dies by, in order (R316). -/
def crossings (part : Part) (p : Packet) : List (Nat × Side) :=
  let w := part.dieCols
  let a := destDie part p.src
  let b := destDie part p.dest
  if yxFirst p then crossCol part a (b / w) ++ crossRow part (b / w * w + a % w) (b % w) 4
  else crossRow part a (b % w) 4 ++ crossCol part (a / w * w + b % w) (b / w)

def opposite (side : Side) : Side :=
  match side with
  | .north => .south
  | .east => .west
  | .south => .north
  | .west => .east

def sideOf (k : Nat) : Side :=
  match k with
  | 0 => .north
  | 1 => .east
  | 2 => .south
  | _ => .west

/-- Whether a lintel side is UP (R352). -/
def edgeUp (s : State) (die : Nat) (side : Side) : Bool := s.fld (.lin die side) 0x44 0 1 == 1

/-- JHL.STATE: 0 down, 1 training, 2 UP, 3 keep-alive, 4 FAILED (R578). -/
def jhlState (s : State) (d k : Nat) : Nat := s.fld (.jhl d k) 0x40 0 3

/-- Whether a Jeham port holds a flit that comes to it: every one while it is not UP, in keep-alive those of VC1 and VC2
(R555, R565). -/
def portHolds (s : State) (p : Packet) : Bool :=
  let b := blockOf p.dest
  isBlock p.dest && b.1 == 5 &&
  (match jhlState s b.2.1 b.2.2 with
   | 2 => false
   | 3 => p.vc != 3
   | _ => true)

/-- Whether every lintel on a packet's way is UP, its die runs, and its Jeham port takes it; VC0 crosses no lintel (R28, R352,
R555). -/
def lintelsUp (s : State) (p : Packet) : Bool :=
  !portHolds s p && !dieAsleep s (destDie s.part p.dest) && (crossings s.part p).all fun c => p.vc != 0 && edgeUp s c.1 c.2

/-! ### Fences (R354, R355) -/

/-- Whether an address lies in a rectangle of a die (R354). -/
def inFence (s : State) (die : Nat) (w : Word) (d : Dest) : Bool :=
  bit w 31 &&
  (match ashOf s d with
   | some a =>
     a.die == die &&
     (match logicalRow s a.die a.row with
      | some r => inRect w a.col r
      | none => false)
   | none => false)

/-- Whether a fence never holds a packet but has it discarded (R355). -/
def fenceDrops (p : Packet) : Bool :=
  match p.body with
  | .connReply _ _ _ _ _ _ _ => true
  | .nak _ _ => true
  | .cret _ _ => true
  | .faddReply _ _ => true
  | .mresp _ _ _ _ _ _ => true
  | .mack _ _ => true
  | .kgrant _ _ => true
  | .rwrite _ => isBlock p.src && (blockOf p.src).1 == 7
  | _ => false

/-- Whether a fence in force keeps a packet out: its destination inside, its source outside, on VC0 to VC2, and it had not passed
the border when the fence applied, which helps none of those that a fence discards (R355). -/
def fencedOff (s : State) (p : Packet) : Bool :=
  let d := destDie s.part p.dest
  p.vc != 3 && !isBlock p.dest && (fenceDrops p || !s.past.contains p)
    && (s.die d).fences.toList.any fun w => inFence s d w p.dest && !inFence s d w p.src

/-- Whether a router lies in a fence's rectangle. -/
def hopInside (s : State) (w : Word) (h : Hop) : Bool :=
  decide (1 ≤ h.row) && decide (h.row ≤ 98) &&
  (match logicalRow s h.die (h.row - 1) with
   | some r => inRect w h.col r
   | none => false)

/-! ### Buffers and what stands in them (R312, R313, R351) -/

/-- An input buffer: named by the output that feeds it, with its VC and lane; a lintel queue by its far end, both lanes sharing
it (R351). -/
structure Buf where
  hop : Hop
  vc : BitVec 2
  reply : Bool
  deriving DecidableEq, Repr

/-- Flits that a buffer holds (R312, R351, R364). -/
def Buf.depth (b : Buf) : Nat :=
  if b.hop.port = .queue then
    match b.vc.toNat with
    | 1 => 16
    | 2 => 32
    | 3 => 8
    | _ => 0
  else
    match b.vc.toNat with
    | 2 => 8
    | 3 => 2
    | _ => 4

/-- Flits each buffer holds of packets that are held. -/
abbrev Held := List (Buf × Nat)

def Held.at (h : Held) (b : Buf) : Nat :=
  match h.find? fun x => x.1 == b with
  | some x => x.2
  | none => 0

def Held.add (h : Held) (b : Buf) (n : Nat) : Held := (b, h.at b + n) :: h.filter fun x => x.1 != b

/-- A buffer on a packet's way with the exit from it: whether the exit is shut to the packet, and whether by a fence. -/
structure Stage where
  buf : Buf
  shut : Bool
  border : Bool
  deriving DecidableEq, Repr

/-- Whether the local output is shut to a packet: a channel flit for a frozen ashlar's endpoint (R75), a fifth fetch-and-add
at one (R383). -/
def localShut (s : State) (p : Packet) : Bool :=
  match ashOf s p.dest with
  | none => false
  | some a =>
    let v := s.ash a
    v.frozen &&
    (match p.body with
     | .chan _ _ _ => true
     | .fadd _ _ _ => decide (4 ≤ v.faddQueue.length)
     | _ => false)

/-- A way without the edge outputs, each of which feeds the lintel queue after it. -/
def withoutEdges : List Hop → List Hop
  | h :: n :: r => if n.port = .queue then withoutEdges (n :: r) else h :: withoutEdges (n :: r)
  | l => l

/-- The buffers of a way without edge outputs, from the source on: each is fed by one output and left by the next (R312). A
lintel queue is the input buffer of the edge port it feeds, and nothing enters it while the lintel is not UP (R351, R352). A
fence stands where the next router lies inside it and this one does not (R355). -/
def stagesOf (s : State) (p : Packet) (fences : List Word) : List Hop → List Stage
  | h :: n :: r =>
    { buf := ⟨h, p.vc, replyLane p && h.port != .queue⟩
      shut := if n.port = .queue then !edgeUp s n.die (sideOf n.row)
        else r.isEmpty && (dieAsleep s n.die || portHolds s p || localShut s p)
      border := fences.any fun w => (n.port == .queue || !hopInside s w n) && (match r with
        | m :: _ => hopInside s w m
        | [] => false) } :: stagesOf s p fences (n :: r)
  | _ => []

/-- The fences whose border a packet has to pass. -/
def bordersOf (s : State) (p : Packet) : List Word :=
  let d := destDie s.part p.dest
  if p.vc = 3 ∨ isBlock p.dest ∨ fenceDrops p ∨ s.past.contains p then []
  else (s.die d).fences.toList.filter fun w => inFence s d w p.dest && !inFence s d w p.src

/-- How far a packet comes. -/
inductive Reach where
  | arrives
  /-- it is the head at a fence's border -/
  | border
  | held
  deriving DecidableEq, Repr

/-- How far a packet comes with these flits held before it, and the buffers up to where it stops, the last first: it stops in
a buffer that holds flits, or whose exit is shut. -/
def advance (held : Held) : List Stage → List Stage → Reach × List Stage
  | [], acc => (.arrives, acc)
  | b :: r, acc =>
    if held.at b.buf ≠ 0 then (.held, b :: acc)
    else if b.border then (.border, b :: acc)
    else if b.shut then (.held, b :: acc)
    else advance held r (b :: acc)

/-- n flits put in buffers from the foremost backwards; what finds no room has not left its source. -/
def fillBack (held : Held) (n : Nat) : List Stage → Held × Nat
  | [] => (held, n)
  | b :: r =>
    let k := min (b.buf.depth - held.at b.buf) n
    fillBack (if k = 0 then held else held.add b.buf k) (n - k) r

/-- Flits of a packet (R311, R349, R405, R449, R603). -/
def flitsOf (b : Body) : Nat :=
  match b with
  | .rwrite w => 1 + (w.words.length + 1) / 2
  | .mlookup _ _ _ _ => 2
  | .mresp _ _ _ _ _ data => 1 + (data.length + 1) / 2
  | .mwrite _ _ data _ => 1 + (data.length + 1) / 2
  | .kreq _ => 2
  | .scaf _ c =>
    (match c with
     | .bcast _ _ _ => 2
     | .loadOrder _ _ _ _ _ => 2
     | .saveOrder _ _ _ _ _ => 2
     | .mason body => 1 + (body.length + 1) / 2
     | _ => 1)
  | _ => 1

def packetStages (s : State) (p : Packet) : List Stage := stagesOf s p (bordersOf s p) (withoutEdges (way s p))

/-- Whether nothing on a packet's own way holds it. -/
def clear (s : State) (p : Packet) : Bool := lintelsUp s p && (bordersOf s p).isEmpty && !localShut s p

/-- The held flits with one more packet, the next in order of sending: nothing more where it is free to arrive. The second
component lists the packets whose tail is still at the source. -/
def standOne (s : State) (x : Held × List Packet) (p : Packet) : Held × List Packet :=
  match advance x.1 (packetStages s p) [] with
  | (.arrives, _) => x
  | (_, back) =>
    let f := fillBack x.1 (flitsOf p.body) back
    (f.1, if f.2 = 0 then x.2 else x.2 ++ [p])

/-- The flits that packets sent in this order leave standing; where every way is clear, none. -/
def standing (s : State) (l : List Packet) : Held × List Packet :=
  if l.all (clear s) then ([], []) else l.foldl (standOne s) ([], [])

/-- The packets in flight that have passed the border of a rectangle as its fence applies: those that something
holds inside. Of one that is free to arrive the place is open: a free value, one bit for each
(R355; log 184). -/
def passedBorder (s : State) (w : Word) (open_ : Nat) : List Packet :=
  let go := fun (x : (Held × List Packet) × List Packet × Nat) (p : Packet) =>
    let r := advance x.1.1 (packetStages s p) []
    let left := (stagesOf s p [w] (withoutEdges (way s p))).drop (r.2.length - 1)
    let inside := if r.1 = .arrives then open_ / 2 ^ (x.2.2 % 64) % 2 == 1 else left.all fun b => !b.border
    let mine := inFence s (destDie s.part p.dest) w p.dest && !inFence s (destDie s.part p.dest) w p.src
    (standOne s x.1 p, if mine && inside then x.2.1 ++ [p] else x.2.1, x.2.2 + 1)
  (s.net.foldl go (([], []), [], 0)).2.1

/-- The packets sent before a packet that is in flight: the first like it, one poisoned on its way standing for the packet
that was sent. One that is not in flight comes from an agent outside the model. -/
def aheadOf (s : State) (p : Packet) : List Packet :=
  let q := if p.poisoned && !s.net.contains p then { p with poisoned := false } else p
  if s.net.contains q then s.net.takeWhile fun x => x != q else []

/-- Whether two packets follow one path in order: one source port, one destination port, one VC, one lane (R319). -/
def sameStream (s : State) (p q : Packet) : Bool :=
  p.vc == q.vc && replyLane p == replyLane q && destDie s.part p.dest == destDie s.part q.dest
    && destDie s.part p.src == destDie s.part q.src && decide (srcEnd s p = srcEnd s q) && decide (dstEnd s p = dstEnd s q)

/-- Whether a packet comes to its destination, or to the fence around it: it is the first of its stream, nothing before it
stands in its way, and its lintels are UP (R28, R319, R352). -/
def routeUp (s : State) (p : Packet) : Bool :=
  let l := aheadOf s p
  lintelsUp s p && !(l.any fun q => sameStream s q p)
    && (l.all (clear s) || (advance (standing s l).1 (packetStages s p) []).1 != .held)

/-- Whether an ashlar's local port takes no flit of its engines on a VC: inside a fence in force, in a row without a
logical row, or with its input buffer full; on VC0 three flits raise stop (R306, R313, R355). -/
def portBusy (s : State) (a : Ash) (vc : BitVec 2) : Bool :=
  (vc != 3 && fenced s a) || (logicalRow s a.die a.row).isNone
    || (let b : Buf := ⟨⟨a.die, a.col, a.row + 1, .inject⟩, vc, false⟩
        decide ((if vc = 0 then 3 else b.depth) ≤ (standing s s.net).1.at b))

/-- Whether a packet of an ashlar has flits that have not entered its router yet. -/
def tailWaits (s : State) (a : Ash) (vc : BitVec 2) : Bool :=
  (standing s s.net).2.any fun p => p.vc == vc && decide (p.src = ashDest s a)

/-! ### Packets taken off the Mortar (R353, R364) -/

def Die.onEdge (d : Die) (side : Side) (f : Edge → Edge) : Die :=
  let i := ix 4 (sideIndex side) (by decide)
  { d with edges := d.edges.set i (f d.edges[i]) }

/-- Flits that a die's links have carried: what LINK_ERRS and the LIN pages may count of them (R353, R364). -/
def State.onEdge (s : State) (die : Nat) (side : Side) (n : Nat) : State :=
  s.setDie die ((s.die die).onEdge side fun e => ⟨e.crossed + n, e.checked + n⟩)

/-- The flits of a packet counted at each lintel it crossed, and on the links of its destination's die (R353, R364). -/
def State.countCrossings (s : State) (p : Packet) : State :=
  let n := flitsOf p.body
  let b := destDie s.part p.dest
  let t := s.setDie b { s.die b with linkFlits := (s.die b).linkFlits + n }
  (crossings s.part p).foldl (fun t c =>
    let u := t.perfAdd (.lin c.1 c.2) 0x50 n
    match neighbour s.part c.1 c.2 with
    | some d => (u.perfAdd (.lin d (opposite c.2)) 0x58 n).onEdge d (opposite c.2) n
    | none => u) t

/-- The lintel that found a poisoned packet uncorrectable counts it, where one did: which link did is a free value (R353). -/
def State.countUe (s : State) (p : Packet) : State :=
  let l := crossings s.part p
  if !p.poisoned || l.isEmpty then s
  else
    let x := s.free
    match l[x.1.toNat % (l.length + 1)]? with
    | none => x.2
    | some c =>
      match neighbour s.part c.1 c.2 with
      | some d => x.2.count16 (.lin d (opposite c.2)) 0x60 16 1
      | none => x.2

/-- The packets in flight without one: the first like it leaves, one poisoned on its way standing for the packet that was
sent; one that is not in flight comes from an agent outside the model. -/
def netWithout (net : List Packet) (p : Packet) : List Packet :=
  if p.poisoned && !net.contains p then net.erase { p with poisoned := false } else net.erase p

/-- A packet taken off the Mortar at its destination, the lintels it crossed counting it. -/
def State.take (s : State) (p : Packet) : State :=
  { ((s.countCrossings p).countUe p) with net := netWithout s.net p, past := netWithout s.past p }

/-! ### What the error counters and a LIN page show (R353, R364)

How many of the flits a link has carried it has had to correct, and how long each crossing took, are values that the spec
leaves open: free values, drawn where a read shows them. -/

/-- LATENCY of a LIN page, of the crossings since its last read: 14 to 22 cycles each, MIN not above MAX (R28, R364). -/
def latencyWord (s : State) (die : Nat) (side : Side) : Word × State :=
  let e := (s.die die).edges[ix 4 (sideIndex side) (by decide)]
  if e.crossed = 0 then (31, s)
  else
    let x := s.free
    let lo := 14 + x.1.toNat % 9
    let hi := if e.crossed = 1 then lo else lo + x.1.toNat / 16 % (23 - lo)
    (BitVec.ofNat 32 (lo + hi * 2 ^ 8), x.2)

/-- Corrected errors among n flits: a count that saturates at 0xFFFF. -/
def correctedCount (s : State) (n : Nat) : Nat × State :=
  if n = 0 then (0, s) else (let x := s.free; (min 0xFFFF (x.1.toNat % (n + 1)), x.2))

/-- Whether a packet's way leads over a lintel, in one direction or the other. -/
def usesLintel (s : State) (die : Nat) (side : Side) (p : Packet) : Bool :=
  (crossings s.part p).any fun c =>
    c == (die, side) || (match neighbour s.part c.1 c.2 with
      | some d => d == die && opposite c.2 == side
      | none => false)

/-- LIN.STATUS.EMPTY (R364): 1 while no packet in flight leads over the lintel, 0 while a held one stands in a queue of it;
else a packet may be anywhere on its way, and the bit is a free value. -/
def lintelEmpty (s : State) (die : Nat) (side : Side) : Nat × State :=
  if !(s.net.any (usesLintel s die side)) then (1, s)
  else
    let here := fun (h : Hop) => h.port == .queue
      && ((h.die == die && h.row == sideIndex side)
        || neighbour s.part h.die (sideOf h.row) == some die && opposite (sideOf h.row) == side)
    if (standing s s.net).1.any fun x => here x.1.hop && decide (x.2 ≠ 0) then (0, s)
    else (let x := s.free; (x.1.toNat % 2, x.2))

end Sys2Proof.Machine
end

