-- ==== Sys2Proof/Machine/Tiers.lean ====
section
/-! DEFINITION. The memory tiers: frame descriptors (R399, R400), words with their check bits (R409 to R411), the Hod's tables
and lookups (R402 to R404), and what a tier controller does with a request (R405 to R407, R415, R445). -/

namespace Sys2Proof.Machine

/-! ### Frame descriptors and frames -/

def fdTier (fd : Word) : Nat := bits fd 0 2
def fdDie (fd : Word) : Nat := bits fd 2 3
def fdFrame (fd : Word) : Nat := bits fd 5 17
def fdGen (fd : Word) : Nat := bits fd 22 8

def mkFd (tier die frame gen : Nat) : Word :=
  BitVec.ofNat 32 (tier % 4 + die % 8 * 4 + frame % 2 ^ 17 * 2 ^ 5 + gen % 256 * 2 ^ 22)

def tierIx (tier : Nat) : Fin 3 := ⟨(tier - 1) % 3, Nat.mod_lt _ (by decide)⟩

def ctlIx (c : Ctl) : Fin 4 := ⟨ctlIndex c % 4, Nat.mod_lt _ (by decide)⟩

/-- Frames of a DIMM (R397, R400). -/
def dimmFrames (d : Dimm) : Nat :=
  match d.cap.toNat with
  | 1 => 32768
  | 2 => 65536
  | 3 => 131072
  | _ => 0

/-- Frames of a tier on a die (R400). -/
def frameCount (s : State) (die tier : Nat) : Nat :=
  match tier with
  | 1 => 49152
  | 2 => 98304
  | 3 => match (s.die die).socket.dimm with
    | some d => dimmFrames d
    | none => 0
  | _ => 0

/-- A frame that holds a segment of a tensor. -/
def holdsSeg (u : FrameUse) : Bool :=
  match u with
  | .seg _ _ _ => true
  | _ => false

def State.frame (s : State) (die tier f : Nat) : Frame := tget (s.die die).frames (tier, f) Frame.reset

def State.setFrame (s : State) (die tier f : Nat) (v : Frame) : State :=
  s.setDie die { s.die die with frames := tset (s.die die).frames (tier, f) v }

def State.onFrame (s : State) (die tier f : Nat) (g : Frame → Frame) : State :=
  s.setFrame die tier f (g (s.frame die tier f))

/-- The controller that holds byte offset `off` of a frame of a tier (R400). -/
def ctlOf (tier off : Nat) : Ctl :=
  match tier with
  | 1 => if off / 512 % 2 = 0 then .stack0 else .stack1
  | 2 => .lpddr
  | _ => .dimm

/-- The page of a controller (R430). -/
def ctlPage (die : Nat) (c : Ctl) : Page :=
  match c with
  | .stack0 => .hbc die 0
  | .stack1 => .hbc die 1
  | .lpddr => .lpc die
  | .dimm => .dmc die

/-- The destination of a controller and its Plane (R307). -/
def ctlDest (die : Nat) (c : Ctl) : Dest :=
  match c with
  | .stack0 => blockDest 0 die 0
  | .stack1 => blockDest 0 die 1
  | .lpddr => blockDest 1 die 0
  | .dimm => blockDest 2 die 0

/-- The controller a block destination names (R307). -/
def ctlOfDest (d : Dest) : Option (Nat × Ctl) :=
  let b := blockOf d
  if !isBlock d then none
  else
    match b.1 with
    | 0 => if b.2.2 = 0 then some (b.2.1, .stack0) else if b.2.2 = 1 then some (b.2.1, .stack1) else none
    | 1 => if b.2.2 = 0 then some (b.2.1, .lpddr) else none
    | 2 => if b.2.2 = 0 then some (b.2.1, .dimm) else none
    | _ => none

/-! ### Words -/

/-- Data and check bits of word w of a frame. -/
def State.tierRaw (s : State) (die tier f w : Nat) : Nat × Nat :=
  let m := (s.die die).tiers[tierIx tier]
  let a := 9 * (f * 2 ^ 18 + w)
  (mreadN m a 8, (mread m (a + 8)).toNat)

def State.tierPut (s : State) (die tier f w data check : Nat) : State :=
  let d := s.die die
  let m := d.tiers[tierIx tier]
  s.setDie die { d with
    tiers := d.tiers.set (tierIx tier) (mwriteN m (9 * (f * 2 ^ 18 + w)) 9 (data % 2 ^ 64 + check % 256 * 2 ^ 64)) }

/-- A whole word with valid check bits (R409, R410). -/
def State.tierStore (s : State) (die tier f w data : Nat) : State :=
  s.tierPut die tier f w data (checkBits cols72 (data % 2 ^ 64))

/-- A poisoned word: its check bits complemented (R411). -/
def State.tierPoison (s : State) (die tier f w data : Nat) : State :=
  s.tierPut die tier f w data (255 - checkBits cols72 (data % 2 ^ 64))

/-- Who reads, as SRC of TC_UE_INFO has it (R431). -/
inductive TierSrc where
  | request | scrub | plane | copy
  deriving DecidableEq, Repr

def tierSrcCode (x : TierSrc) : Nat :=
  match x with
  | .request => 0
  | .scrub => 1
  | .plane => 2
  | .copy => 3

/-- An uncorrectable word counted and, if it is the first, held (R410, R431). -/
def State.noteUe (s : State) (die tier f w : Nat) (src : TierSrc) : State :=
  let p := ctlPage die (ctlOf tier (8 * w))
  let t := s.count16 p 0x48 16 1
  if t.fld p 0x4C 31 1 = 1 then t
  else t.setReg p 0x4C (BitVec.ofNat 32 (f % 2 ^ 17 + w / 64 % 2 ^ 12 * 2 ^ 17 + tierSrcCode src * 2 ^ 29 + 2 ^ 31))

/-- Words w to w + n − 1 read: corrected ones counted and written back, uncorrectable ones counted and held; the data
where every word is good (R410). -/
def State.tierWords (s : State) (die tier f w : Nat) (src : TierSrc) : Nat → Bool × List DWord × State
  | 0 => (true, [], s)
  | n + 1 =>
    let d := s.tierRaw die tier f w
    match secded cols72 8 d.1 d.2 with
    | .clean =>
      let r := s.tierWords die tier f (w + 1) src n
      (r.1, BitVec.ofNat 64 d.1 :: r.2.1, r.2.2)
    | .corrected x =>
      let t := (s.tierStore die tier f w x).count16 (ctlPage die (ctlOf tier (8 * w))) 0x48 0 1
      let r := t.tierWords die tier f (w + 1) src n
      (r.1, BitVec.ofNat 64 x :: r.2.1, r.2.2)
    | .ue =>
      let r := (s.noteUe die tier f w src).tierWords die tier f (w + 1) src n
      (false, 0 :: r.2.1, r.2.2)

/-- A controller's read: none where a word is uncorrectable, with MEM_UE raised once (R410). -/
def State.tierRead (s : State) (die tier f w n : Nat) (src : TierSrc) : Option (List DWord) × State :=
  let r := s.tierWords die tier f w src n
  if r.1 then (some r.2.1, r.2.2) else (none, r.2.2.raise (ctlPage die (ctlOf tier (8 * w))) evMemUe 0)

/-- One word written, the bits of `keep` left as the tier holds them: such a word is read first, for every write is of a whole
word, and one that cannot be read stays poisoned (R283, R410; DESIGN CHOICE, log 205). -/
def State.tierPlace (s : State) (die tier f w x keep : Nat) (src : TierSrc) : State :=
  if keep = 0 then s.tierStore die tier f w x
  else
    match s.tierRead die tier f w 1 src with
    | (some d, t) => t.tierStore die tier f w (mergeBits x (d.headD 0).toNat keep)
    | (none, t) => t.tierPoison die tier f w (mergeBits x (s.tierRaw die tier f w).1 keep)

/-- Words written from w on; a migrating frame marks the lines dirty (R407, R409, R420). -/
def State.tierWrite (s : State) (die tier f w : Nat) (data keep : List DWord) : State :=
  let t := (data.zipIdx).foldl (fun u q =>
    u.tierPlace die tier f (w + q.2) q.1.toNat (keep.getD q.2 0).toNat .request) s
  let fr := t.frame die tier f
  if fr.migrating && !data.isEmpty then
    let lines := (List.range ((w + data.length - 1) / 64 - w / 64 + 1)).map fun k => w / 64 + k
    t.setFrame die tier f { fr with dirty := fr.dirty ++ lines.filter fun l => !fr.dirty.contains l }
  else t

/-! ### Tensor tables and lookups (R402 to R404) -/

/-- A tensor's table entry (R402). -/
structure Tensor where
  length : Nat
  tmin : Nat
  tmax : Nat
  pin : Bool
  pinDie : Nat
  seglist : Word
  deriving DecidableEq, Repr

/-- What a walk of the tables finds: the thing, nothing, or an uncorrectable word on the way. -/
inductive Found (α : Type) where
  | found (x : α)
  | missing
  | poison
  deriving DecidableEq, Repr

/-- Whether what a controller of a die holds is lost: its clock has stopped, or its DIMM is gone (R429, R665). -/
def memoryGone (s : State) (die : Nat) (c : Ctl) : Bool :=
  (s.die die).stopped.contains c || (c == .dimm && (s.die die).socket.gone)

/-- One word of a Mason structure in a frame named by a descriptor, as the Hod reads it. -/
def State.tableWord (s : State) (fd : Word) (byte : Nat) : Found Nat :=
  if fdTier fd = 0 then .missing
  else if memoryGone s (fdDie fd) (ctlOf (fdTier fd) byte) then .poison
  else
    let d := s.tierRaw (fdDie fd) (fdTier fd) (fdFrame fd) (byte / 8)
    match secded cols72 8 d.1 d.2 with
    | .clean => .found d.1
    | .corrected x => .found x
    | .ue => .poison

/-- TSEGk of a job in the directory of a die's Hod (R402). -/
def State.tableSegment (s : State) (die : Nat) (job : Half) (k : Nat) : Found Word :=
  match s.tableWord (s.reg (.hod die) 0x4C) (32 * job.toNat + 4 * k) with
  | .found w => .found (BitVec.ofNat 32 (w / 2 ^ (32 * (k % 2))))
  | .missing => .missing
  | .poison => .poison

/-- A tensor's entry, by the Hod of a die; missing where the job or the handle is not valid (R402, R404). -/
def State.tensor (s : State) (die : Nat) (job : Half) (handle : BitVec 20) : Found Tensor :=
  match s.tableSegment die job 0 with
  | .missing => .missing
  | .poison => .poison
  | .found t0 =>
    if fdTier t0 = 0 then .missing
    else
      match s.tableSegment die job (handle.toNat / 131072) with
      | .missing => .missing
      | .poison => .poison
      | .found t =>
        match s.tableWord t (16 * (handle.toNat % 131072)), s.tableWord t (16 * (handle.toNat % 131072) + 8) with
        | .found a, .found b =>
          if a / 2 ^ 63 % 2 = 1 then
            .found ⟨a % 2 ^ 40, a / 2 ^ 40 % 4, a / 2 ^ 42 % 4, a / 2 ^ 44 % 2 == 1, a / 2 ^ 45 % 8, BitVec.ofNat 32 b⟩
          else .missing
        | .missing, _ => .missing
        | _, .missing => .missing
        | _, _ => .poison

/-- The words that a walk of the tables reads, one after the other as far as it goes: frame and word (R404, R410). -/
def State.walkReads (s : State) (die : Nat) (job : Half) (handle : BitVec 20) (seg : Nat) : List (Word × Nat) :=
  let dir := s.reg (.hod die) 0x4C
  let entry := fun (k : Nat) => (dir, (32 * job.toNat + 4 * k) / 8)
  let k := handle.toNat / 131072
  match s.tableSegment die job 0, s.tableSegment die job k with
  | .found t0, .found t =>
    if fdTier t0 = 0 ∨ fdTier t = 0 then [entry 0, entry k]
    else
      let h := 2 * (handle.toNat % 131072)
      [entry 0, entry k, (t, h), (t, h + 1)] ++ (match s.tensor die job handle with
        | .found x => if (x.length + 2 ^ 21 - 1) / 2 ^ 21 ≤ seg then [] else [(x.seglist, seg / 2)]
        | _ => [])
  | .found t0, _ => if fdTier t0 = 0 then [entry 0] else [entry 0, entry k]
  | _, _ => [entry 0]

/-- The descriptor of a segment in the tables (R404). -/
def State.walk (s : State) (die : Nat) (job : Half) (handle : BitVec 20) (seg : Nat) : Found Word :=
  match s.tensor die job handle with
  | .missing => .missing
  | .poison => .poison
  | .found t =>
    if (t.length + 2 ^ 21 - 1) / 2 ^ 21 ≤ seg then .missing
    else
      match s.tableWord t.seglist (4 * seg) with
      | .missing => .missing
      | .poison => .poison
      | .found w =>
        let fd := BitVec.ofNat 32 (w / 2 ^ (32 * (seg % 2)))
        if fdTier fd = 0 then .missing else .found fd

/-- A cached translation. -/
def cached (h : Hod) (job : Half) (handle : BitVec 20) (seg : Nat) : Option Word :=
  (h.cache.find? fun e => e.1 == (job, handle, seg)).map fun e => e.2

/-- The words of the tables read by the Hod, as a controller reads them: corrected ones counted and written back, uncorrectable
ones counted, held, and raised; from a memory whose clock has stopped nothing is read, and MEM_UE is raised (R410, R665). -/
def State.tableReads (s : State) (l : List (Word × Nat)) : State :=
  (l.filter fun x => fdTier x.1 != 0).foldl (fun t x =>
    let c := ctlOf (fdTier x.1) (8 * x.2)
    if memoryGone t (fdDie x.1) c then t.raise (ctlPage (fdDie x.1) c) evMemUe 0
    else (t.tierRead (fdDie x.1) (fdTier x.1) (fdFrame x.1) x.2 1 .request).2) s

/-- A tensor's entry read by a die's Hod: its directory and table words are read as any other (R404, R410). -/
def State.readTensor (s : State) (die : Nat) (job : Half) (handle : BitVec 20) : Found Tensor × State :=
  (s.tensor die job handle, s.tableReads (s.walkReads die job handle (2 ^ 19)))

/-- A half of a word of a frame written, the word read first, for every write is of a whole word (R410): one that cannot be read
stays poisoned. -/
def State.tierHalf (s : State) (fd : Word) (byte : Nat) (v : Word) (src : TierSrc) : State :=
  let up := byte % 8 == 4
  s.tierPlace (fdDie fd) (fdTier fd) (fdFrame fd) (byte / 8) (if up then v.toNat * 2 ^ 32 else v.toNat)
    (if up then 0xFFFFFFFF else 0xFFFFFFFF00000000) src

/-- A segment's translation forgotten in every map cache (R421). -/
def State.forget (s : State) (job : Half) (handle : BitVec 20) (seg : Nat) : State :=
  { s with dies := s.dies.map fun d => { d with hod := { d.hod with
      cache := d.hod.cache.filter fun e => e.1 != (job, handle, seg) } } }

/-- A lookup at a die's Hod (R404): answered from the cache, or from the tables and then cached; NOTFOUND raises MEM_MAP.
The words of the tables are read as any other (R410). -/
def State.lookup (s : State) (die : Nat) (job : Half) (handle : BitVec 20) (seg : Nat) : Found Word × State :=
  let p := Page.hod die
  let count := fun (t : State) (off : Nat) => if perfFrozen t p 0x80 then t else t.perfAdd p off 1
  let s1 := count s 0x70
  match cached (s1.die die).hod job handle seg with
  | some fd => (.found fd, s1)
  | none =>
    let s2 := count s1 0x78
    let s3 := s2.tableReads (s2.walkReads die job handle seg)
    match s2.walk die job handle seg with
    | .found fd =>
      let d := s3.die die
      let c := d.hod.cache ++ [((job, handle, seg), fd)]
      (.found fd, s3.setDie die { d with hod := { d.hod with cache := c.drop (c.length - 4096) } })
    | .missing => (.missing, s3.raise p evMemMap 0)
    | .poison => (.poison, s3)

/-! ### Requests (R405 to R407) -/

/-- STATUS of R406. -/
inductive TierStatus where
  | ok | moved | poison | refused
  deriving DecidableEq, Repr

def statusCode (x : TierStatus) : BitVec 2 :=
  match x with
  | .ok => 0
  | .moved => 1
  | .poison => 2
  | .refused => 3

/-- What a controller makes of a request before it touches memory: anything but `ok` is its answer. What is lost is answered
POISON; of the rest an old GEN is answered MOVED at any time, also where the DIMM is now a smaller one or none (R406, R420,
R429, R665). -/
def requestStatus (s : State) (die : Nat) (c : Ctl) (fd : Word) (off nw : Nat) : TierStatus :=
  let tier := fdTier fd
  let fr := s.frame die tier (fdFrame fd)
  let sv := (s.die die).socket.svc
  if tier = 0 ∨ fdDie fd ≠ die ∨ ctlOf tier off ≠ c ∨ off % 8 ≠ 0 ∨ 64 < off / 8 % 64 + nw then .refused
  else if memoryGone s die c then .poison
  else if fr.gen.toNat ≠ fdGen fd then .moved
  else if frameCount s die tier ≤ fdFrame fd then .refused
  else if tier = 3 ∧ !(sv = .online ∨ sv = .evacuating) then .refused
  else .ok

/-- The frame's access counter, raised by a request of class S or T (R415). -/
def State.heat (s : State) (die tier f off : Nat) : State :=
  s.onFrame die tier f fun fr =>
    if tier = 1 ∧ off / 512 % 2 = 1 then { fr with heat1 := if fr.heat1 = 255 then 255 else fr.heat1 + 1 }
    else { fr with heat0 := if fr.heat0 = 255 then 255 else fr.heat0 + 1 }

/-- A response of the block a packet was sent to, on the packet's virtual channel (R314). -/
def replyTo (p : Packet) (body : Body) : Packet := ⟨p.vc, p.src, p.dest, false, body⟩

/-- The events of a request that is not served: MEM_ACCESS for a refusal, MEM_UE for a lost DIMM (R406, R429). -/
def State.turnAway (s : State) (die : Nat) (c : Ctl) (st : TierStatus) : State :=
  match st with
  | .refused => s.raise (ctlPage die c) evMemAccess 0
  | .poison => s.raise (ctlPage die c) evMemUe 0
  | _ => s

/-- The 64-byte slots that n words from word w take. -/
def slotCount (w n : Nat) : Nat := if n = 0 then 0 else (w + n - 1) / 8 - w / 8 + 1

/-- Slots counted at a controller, in one of its three counters (R431). -/
def State.tcSlots (s : State) (die : Nat) (c : Ctl) (off n : Nat) : State :=
  let p := ctlPage die c
  if perfFrozen s p 0x70 then s else s.perfAdd p off n

/-- Whether an ashlar lies inside a fence whose LIFT bit is 1 (R609). -/
def lifted (s : State) (a : Ash) : Bool :=
  match logicalRow s a.die a.row with
  | some r => (s.die a.die).fences.toList.zipIdx.any fun w => bit (s.reg (.cfgDie a.die) 0x44) w.2 && inRect w.1 a.col r
  | none => false

/-- Whether a request is scheduled as class S: those on VC1, and the self-load requests from inside a lifted fence (R408,
R609). -/
def State.asS (s : State) (p : Packet) : Bool :=
  p.vc == 1 || p.vc == 3 && (match ashOf s p.src with
    | some a => lifted s a
    | none => false)

/-- The slots of a request, by its class (R408, R431). -/
def State.requestSlots (s : State) (die : Nat) (c : Ctl) (p : Packet) (w n : Nat) : State :=
  if s.asS p then s.tcSlots die c 0x58 (slotCount w n)
  else if p.vc = 2 then s.tcSlots die c 0x60 (slotCount w n)
  else s

/-- The source class is S or T (R415). -/
def classST (p : Packet) : Bool := p.vc == 1 || p.vc == 2

/-- A read request served: its answer put on the Mortar (R406, R407, R410). -/
def serveRead (s : State) (die : Nat) (c : Ctl) (p : Packet) (r : TierReq) : State :=
  let n := r.nw.toNat + 1
  let st := requestStatus s die c r.fd r.off.toNat n
  let answer := fun (x : TierStatus) (d : List DWord) => replyTo p (.mresp r.tag (statusCode x) r.nw r.off 0 d)
  if st ≠ .ok then (s.turnAway die c st).send (answer st [])
  else
    let tier := fdTier r.fd
    let f := fdFrame r.fd
    let t := (if classST p then s.heat die tier f r.off.toNat else s).requestSlots die c p (r.off.toNat / 8) n
    match t.tierRead die tier f (r.off.toNat / 8) n .request with
    | (some d, u) => u.send (answer .ok d)
    | (none, u) => u.send (answer .poison [])

/-- A write request served: ordered, and acknowledged (R406, R407, R445). -/
def serveWrite (s : State) (die : Nat) (c : Ctl) (p : Packet) (r : TierReq) (unit : Bool)
    (data keep : List DWord) : State :=
  let st := if unit then TierStatus.refused else requestStatus s die c r.fd r.off.toNat (r.nw.toNat + 1)
  let answer := fun (x : TierStatus) => replyTo p (.mack r.tag (statusCode x))
  if st ≠ .ok then (s.turnAway die c st).send (answer st)
  else
    let tier := fdTier r.fd
    let f := fdFrame r.fd
    let t := (if classST p then s.heat die tier f r.off.toNat else s).requestSlots die c p (r.off.toNat / 8)
      (r.nw.toNat + 1)
    (t.tierWrite die tier f (r.off.toNat / 8) (data.take (r.nw.toNat + 1)) keep).send (answer .ok)

/-! ### Input queues and slots (R413, R414) -/

def State.tierQueue (s : State) (die : Nat) (c : Ctl) : TierQueue := (s.die die).queues[ctlIx c]

def State.onTierQueue (s : State) (die : Nat) (c : Ctl) (f : TierQueue → TierQueue) : State :=
  let d := s.die die
  s.setDie die { d with queues := d.queues.set (ctlIx c) (f d.queues[ctlIx c]) }

/-- One slot given out: class S slots are counted in each window of 16. -/
def TierQueue.step (q : TierQueue) (clsS : Bool) : TierQueue :=
  { q with slot := (q.slot + 1) % 16, sUsed := (if q.slot = 0 then 0 else q.sUsed) + b2n clsS }

/-- n slots given to one request. -/
def TierQueue.steps (q : TierQueue) (clsS : Bool) : Nat → TierQueue
  | 0 => q
  | n + 1 => (q.step clsS).steps clsS n

/-- Slots that a source without a request packet takes in its turn: a Plane, the Hod, the scrubber or a port block, class T. The
scrubber and the Planes go by their controller's destination (R408, R412, R413). -/
def State.slotsT (s : State) (die : Nat) (c : Ctl) (src : Dest) (n : Nat) : State :=
  s.onTierQueue die c fun q => { q.steps false n with turn := src }

/-- Requests that an input queue holds (R413). -/
def queueDepth (clsS : Bool) : Nat := if clsS then 64 else 192

/-- The packets of one class that a controller has accepted and not served, oldest first. -/
def State.queued (s : State) (die : Nat) (c : Ctl) (clsS : Bool) : List Packet :=
  ((s.tierQueue die c).reqs.map fun x => x.1).filter fun p => s.asS p == clsS

/-- REQ_MAX (R431). -/
def reqMax (s : State) (die : Nat) (c : Ctl) : Nat := max 1 (s.fld (ctlPage die c) 0x40 8 4)

/-- The line that a request of memory names: tier, frame, line (R407). -/
def memLine (p : Packet) : Option (Nat × Nat × Nat) :=
  match p.body with
  | .mread r => some (fdTier r.fd, fdFrame r.fd, r.off.toNat / 512)
  | .mwrite r _ _ _ => some (fdTier r.fd, fdFrame r.fd, r.off.toNat / 512)
  | _ => none

/-- Whether a request accepted and not served names the line at byte offset `off` of a frame: a later access waits for it
(R407). -/
def State.lineHeld (s : State) (die : Nat) (c : Ctl) (fd : Word) (off : Nat) : Bool :=
  (s.tierQueue die c).reqs.any fun x => memLine x.1 == some (fdTier fd, fdFrame fd, off / 512)

/-- Whether an admitted request can be taken: a work item waits for room in its Plane (R450). -/
def takeable (room : Bool) (p : Packet) : Bool :=
  match p.body with
  | .plane _ => room
  | _ => true

/-- The requests of a queue that are ready, `seen` standing before them: of each source the first n are admitted, none goes
before an earlier request to its line, and the device can take it (R407, R413, R414). -/
def readyIn (n : Nat) (room : Bool) : List Packet → List Packet → List Packet
  | _, [] => []
  | seen, p :: r =>
    if (seen.filter fun q => decide (q.src = p.src)).length < n
        ∧ (seen.any fun q => (memLine p).isSome && memLine q == memLine p) = false ∧ takeable room p then
      p :: readyIn n room (p :: seen) r
    else readyIn n room (p :: seen) r

/-- Every request of a controller that is ready. -/
def readyAll (s : State) (die : Nat) (c : Ctl) : List Packet :=
  readyIn (reqMax s die c) (decide (((s.die die).planes[ctlIx c]).items.length < 64)) []
    ((s.tierQueue die c).reqs.map fun x => x.1)

/-- The slots that a request in a queue has still to be given. -/
def TierQueue.left (q : TierQueue) (p : Packet) : Nat := ((q.reqs.find? fun x => x.1 == p).map fun x => x.2).getD 0

/-- The requests of one class that are ready for a slot. -/
def readyOf (s : State) (die : Nat) (c : Ctl) (clsS : Bool) : List Packet :=
  (readyAll s die c).filter fun p => s.asS p == clsS && (s.tierQueue die c).left p != 0

/-- The next source in turn after one: the lowest address above it, else the lowest. -/
def nextSource (turn : Dest) (l : List Packet) : Option Dest :=
  let low := fun (x : List Dest) => x.foldl (fun (b : Option Dest) d => match b with
    | some e => if d.toNat < e.toNat then some d else some e
    | none => some d) none
  match low ((l.map fun p => p.src).filter fun d => decide (turn.toNat < d.toNat)) with
  | some d => some d
  | none => low (l.map fun p => p.src)

/-- assign_slot of R413: class S within its share, the oldest first, else every ready source in turn. -/
def assignSlot (s : State) (die : Nat) (c : Ctl) : Option (Bool × Packet) :=
  let q := s.tierQueue die c
  let ss := readyOf s die c true
  let ts := readyOf s die c false
  let used := if q.slot = 0 then 0 else q.sUsed
  if !ss.isEmpty && decide (used < s.fld (ctlPage die c) 0x40 0 4) then ss.head?.map fun p => (true, p)
  else
    (nextSource q.turn (ss ++ ts)).bind fun d =>
      match ss.find? fun p => decide (p.src = d) with
      | some p => some (true, p)
      | none => (ts.find? fun p => decide (p.src = d)).map fun p => (false, p)

/-- A request served: a read or write of memory, a work item taken into its Plane (R407, R450). -/
def serveRequest (s : State) (die : Nat) (c : Ctl) (p : Packet) : State :=
  match p.body with
  | .mread r => serveRead s die c p r
  | .mwrite r unit data keep => serveWrite s die c p r unit data keep
  | _ =>
    let d := s.die die
    let pl := d.planes[ctlIx c]
    s.setDie die { d with planes := d.planes.set (ctlIx c) { pl with items := pl.items ++ [p] } }

/-- Slots of a request at the device: none for a work item, nor for a request that moves no data (R406, R413). -/
def requestSize (s : State) (die : Nat) (c : Ctl) (p : Packet) : Nat :=
  let size := fun (r : TierReq) =>
    if requestStatus s die c r.fd r.off.toNat (r.nw.toNat + 1) = .ok then slotCount (r.off.toNat / 8) (r.nw.toNat + 1) else 0
  match p.body with
  | .mread r => size r
  | .mwrite r unit _ _ => if unit then 0 else size r
  | _ => 0

/-- A slot given to a request of a queue. -/
def spendSlot (p : Packet) : List (Packet × Nat) → List (Packet × Nat)
  | [] => []
  | x :: r => if x.1 = p then (p, x.2 - 1) :: r else x :: spendSlot p r

/-- A request leaves its queue and is served. -/
def takeRequest (s : State) (die : Nat) (c : Ctl) (p : Packet) : State :=
  serveRequest (s.onTierQueue die c fun q => { q with reqs := q.reqs.eraseP fun x => x.1 == p }) die c p

/-- What a controller does next: the oldest ready request that needs no slot served, else one slot given, its request served
with its last; none where nothing is ready (R413). -/
def tierStep (s : State) (die : Nat) (c : Ctl) : Option State :=
  let q := s.tierQueue die c
  match (readyAll s die c).find? fun p => q.left p == 0 with
  | some p => some (takeRequest s die c p)
  | none =>
    match assignSlot s die c with
    | none => none
    | some (clsS, p) =>
      let t := s.onTierQueue die c fun q => { (q.step clsS) with reqs := spendSlot p q.reqs, turn := p.src }
      some (if q.left p ≤ 1 then takeRequest t die c p else t)

/-- A controller goes on as long as a request is ready, n steps at most. -/
def tierRun (die : Nat) (c : Ctl) : Nat → State → State
  | 0, s => s
  | n + 1, s =>
    match tierStep s die c with
    | none => s
    | some t => tierRun die c n t

/-- Every request that can be served now. -/
def tierServe (s : State) (die : Nat) (c : Ctl) : State :=
  tierRun die c (((s.tierQueue die c).reqs.map fun x => x.2 + 1).sum) s

/-- A request accepted into the queue of its class and served in its turn; where the queue is full it waits in the Mortar. -/
def tierAccept (s : State) (die : Nat) (c : Ctl) (p : Packet) : State :=
  if queueDepth (s.asS p) ≤ (s.queued die c (s.asS p)).length then s
  else
    let t := s.take p
    tierServe (t.onTierQueue die c fun q => { q with reqs := q.reqs ++ [(p, requestSize t die c p)] }) die c

/-! ### Poisoned packets (R353) -/

/-- A packet that a link made uncorrectable, discarded at a block: counted and LINK_UE raised by the die's MOR. -/
def State.discardAtBlock (s : State) (die : Nat) (src : Dest) : State :=
  (s.count16 (.mor die) 0x6C 16 1).raiseFor (.mor die) evLinkUe src

end Sys2Proof.Machine
end

