-- ==== Sys2Proof/Machine/Stream.lean ====
section
/-! DEFINITION. The stream engine: FILL, COPY, RPOP and WCTL (R291 to R293), load and store programs with their requests,
conversions and slots (R280 to R290), remote windows opened and closed (R277), write-backs and scrubbing (R262, R264). -/

namespace Sys2Proof.Machine

/-! ### Program slots (R279, R302) -/

def progIx (k : Nat) : Fin 4 := ⟨k % 4, Nat.mod_lt k (by decide)⟩

def Ashlar.prog (v : Ashlar) (k : Nat) : Prog := v.progs[progIx k]

def Ashlar.setProg (v : Ashlar) (k : Nat) (p : Prog) : Ashlar := { v with progs := v.progs.set (progIx k) p }

/-- The slot that runs an instruction. -/
def progFor (v : Ashlar) (seq : BitVec 5) : Option Nat :=
  [0, 1, 2, 3].find? fun k => (v.prog k).running && (v.prog k).seq == seq

/-- The ring or window a stream instruction names; 0 for FILL and COPY (R302). -/
def streamWin (i : EngInstr) : Nat :=
  if opcodeOf i = 1 ∨ opcodeOf i = 2 then bits (iw i 7) 20 4
  else if opcodeOf i = 5 ∨ opcodeOf i = 6 then bits (iw i 6) 0 4
  else 0

/-- A started instruction takes the first free program slot; a load or store program holds its ring (R273, R279). Its tags
go on from those of the slot's last program, so that a late answer to that one is not taken for its own (R290). -/
def takeProg (v : Ashlar) (i : EngInstr) : Ashlar :=
  let u := match [0, 1, 2, 3].find? (fun k => !(v.prog k).running) with
    | some k => v.setProg k { Prog.reset with
        nextTag := (v.prog k).nextTag, running := true, op := BitVec.ofNat 3 (opcodeOf i), rwin := BitVec.ofNat 4 (streamWin i), seq := i.seq }
    | none => v
  if opcodeOf i = 1 ∨ opcodeOf i = 2 then
    u.setWin (streamWin i) { u.win (streamWin i) with held := true }
  else u

/-- A program's end: its slot is free again and keeps its values, its ring is released, its reserved slots given up (R286,
R290, R302). -/
def endProg (v : Ashlar) (i : EngInstr) (faulted : Bool) : Ashlar :=
  let u := match progFor v i.seq with
    | some k => v.setProg k { v.prog k with running := false, faulted := faulted, looking := none }
    | none => v
  if opcodeOf i = 1 ∨ opcodeOf i = 2 then
    u.setWin (streamWin i) { u.win (streamWin i) with held := false, rsv := 0 }
  else u

/-- A stream instruction's run committed; a fault ends its program (R78, R290). -/
def State.commitStream (s : State) (a : Ash) (i : EngInstr) (r : Run) : State :=
  let t := s.commitRun a i r
  if r.fault.isSome then t.onAsh a fun v => endProg v i true else t

/-- A program ends in a fault, its event raised (R90, R290). -/
def State.faultProg (s : State) (a : Ash) (i : EngInstr) (kind rng addr : Nat) (ev : Ev) : State :=
  ((s.markFault a i kind rng).onAsh a fun v => endProg v i true).raise (.ash a) ev addr

/-- The head of the stream queue, an instruction wanted, starts in a program slot and does its work. -/
def streamTurn (s : State) (a : Ash) (want : EngInstr → Bool) (body : State → EngInstr → State) :
    Host.Outcome State Fault Refusal :=
  atAsh s a <|
    .next (startHead s a .stream want fun t i => body (t.onAsh a fun v => takeProg v i) i)

/-! ### FILL, COPY, RPOP, WCTL -/

/-- FILL (R291): whole-word writes of the constant. -/
def execFill (a : Ash) (s : State) : Host.Outcome State Fault Refusal :=
  streamTurn s a (fun i => opcodeOf i == 3) fun t i =>
    let x := (iw i 6).toNat + (iw i 7).toNat * 2 ^ 32
    t.commitStream a i ((List.range (rangeLen (irange i 2))).foldl (fun r k => writeWord r i k x fullMask)
      (Run.start (t.ash a)))

/-- The physical words of declared range k. -/
def physWords (v : Ashlar) (i : EngInstr) (k : Nat) : List Nat :=
  (List.range (rangeLen (irange i k))).filterMap fun o =>
    match locate v i k o with
    | .ok (p, _) => some p
    | .error _ => none

/-- COPY (R292): word by word; shared words fault it at its start. -/
def execCopy (a : Ash) (s : State) : Host.Outcome State Fault Refusal :=
  streamTurn s a (fun i => opcodeOf i == 4) fun t i =>
    let v := t.ash a
    let w := physWords v i 2
    if (physWords v i 0).any fun p => w.contains p then
      t.commitStream a i ((Run.start v).fail ⟨3, 3, 0, evDescFault⟩)
    else
      t.commitStream a i ((List.range (rangeLen (irange i 0))).foldl (fun r k =>
        let x := readWord r i 0 k
        writeWord x.2 i k x.1 fullMask) (Run.start v))

/-- RPOP (R293). -/
def execRpop (a : Ash) (s : State) : Host.Outcome State Fault Refusal :=
  streamTurn s a (fun i => opcodeOf i == 5) fun t i =>
    t.commitStream a i (Run.start (popRing (t.ash a) (bits (iw i 6) 0 4) (bits (iw i 6) 4 5)))

/-- A window closed (R277). -/
def closeWin (w : Window) : Window := if w.isOpen then { w with isOpen := false, epoch := w.epoch + 1 } else w

/-- A window opened, where it is VALID and REMOTE (R277, R299). -/
def openWin (w : Window) : Window := if w.valid && w.remote then { w with isOpen := true } else w

/-- A WCTL of this ACTION (R293). -/
def wctlTurn (s : State) (a : Ash) (action : Nat) (f : Window → Window) : Host.Outcome State Fault Refusal :=
  streamTurn s a (fun i => opcodeOf i == 6 && bits (iw i 6) 4 2 == action) fun t i =>
    let v := t.ash a
    let n := bits (iw i 6) 0 4
    t.commitStream a i (Run.start (v.setWin n (f (v.win n))))

/-- WCTL, open (R277). -/
def execWctlOpen (a : Ash) (s : State) : Host.Outcome State Fault Refusal := wctlTurn s a 0 openWin

/-- WCTL, close (R277). -/
def execWctlClose (a : Ash) (s : State) : Host.Outcome State Fault Refusal := wctlTurn s a 1 closeWin

/-- WCTL, close and then open (R277). -/
def execWctlCloseOpen (a : Ash) (s : State) : Host.Outcome State Fault Refusal :=
  wctlTurn s a 2 fun w => openWin (closeWin w)

/-! ### Load and store programs (R280 to R284) -/

/-- The decoded body of SLOAD and SSTORE (R280). -/
structure Load where
  ct : Conv
  cr : Conv
  tensor : BitVec 20
  rwin : Nat
  speg : Nat
  spegEn : Bool
  offset : Nat
  elems : Nat
  n1 : Nat
  n2 : Nat
  n3 : Nat
  step : Nat
  str1 : Int
  str2 : Int
  str3 : Int
  eval : Nat
  fillv : Nat
  deriving DecidableEq, Repr

def loadOf (i : EngInstr) : Load :=
  let full := fun (n : Nat) => if n = 0 then 65536 else n
  let elems := bits (iw i 9) 16 13
  { ct := convOf (bits (iw i 6) 0 16), cr := convOf (bits (iw i 6) 16 16)
    tensor := BitVec.ofNat 20 (bits (iw i 7) 0 20), rwin := bits (iw i 7) 20 4
    speg := bits (iw i 7) 24 6, spegEn := bit (iw i 7) 30
    offset := (iw i 8).toNat + bits (iw i 9) 0 16 * 2 ^ 32, elems := elems
    n1 := full (bits (iw i 10) 0 16), n2 := full (bits (iw i 10) 16 16), n3 := full (bits (iw i 11) 0 16)
    step := bits (iw i 11) 16 16
    str1 := (iw i 12).toInt, str2 := (iw i 13).toInt, str3 := (iw i 14).toInt
    eval := if bits (iw i 15) 0 13 = 0 then elems else bits (iw i 15) 0 13, fillv := bits (iw i 15) 13 2 }

def Load.total (l : Load) : Nat := l.n1 * l.n2 * l.n3

/-- chunk_offset of R282. -/
def Load.chunkOffset (l : Load) (c : Nat) : Int :=
  (l.offset : Int) + (c % l.n1 : Nat) * l.str1 + (c / l.n1 % l.n2 : Nat) * l.str2 + (c / (l.n1 * l.n2) : Nat) * l.str3

/-- A conversion that copies bits (R284). -/
def Load.copies (l : Load) : Bool := l.ct.fmt == l.cr.fmt && l.ct.blk == l.cr.blk

/-- Words of a whole row (R235). -/
def Conv.rowWords (c : Conv) (n : Nat) : Nat := c.dataWords n + c.scaleWords n

/-- The words of a row of n elements that hold its first `e` elements and the scales of their blocks (R283). -/
def Conv.needed (c : Conv) (n e : Nat) : List Nat :=
  List.range (ceilDiv (e * c.width) 64) ++
    (if c.bs = 0 then [] else (List.range (ceilDiv (ceilDiv e c.bs) 8)).map fun k => c.dataWords n + k)

/-- Runs of consecutive words cut at the 512-byte lines of the tensor: first word and length, `row` the row's byte offset
(R401). A gap that EVAL leaves before the scales parts two requests, inside one line too (DESIGN CHOICE, log 210). -/
def runsOf (row : Nat) : List Nat → List (Nat × Nat) → List (Nat × Nat)
  | [], acc => acc
  | w :: r, acc =>
    match acc.getLast? with
    | some x =>
      if x.1 + x.2 = w ∧ (row / 8 + w) % 64 ≠ 0 then runsOf row r (acc.dropLast ++ [(x.1, x.2 + 1)])
      else runsOf row r (acc ++ [(w, 1)])
    | none => runsOf row r [(w, 1)]

/-- The requests of a row at a byte offset of its tensor, not yet tagged. -/
def piecesOf (row : Nat) (words : List Nat) (masks : Nat → Nat × Nat) : List Piece :=
  (runsOf row words []).map fun x =>
    { tag := 0, seg := (row + 8 * x.1) / 2 ^ 21, off := (row + 8 * x.1) % 2 ^ 21, words := x.2, first := x.1
      sent := false, masks := (List.range x.2).map fun k => masks (x.1 + k) }

/-- The value FILLV names, as the code of a format (R283). -/
def fillCode (f fillv : Nat) : Nat :=
  match fillv with
  | 0 => codeOf f Val.zero
  | 1 => codeOf f (convertVal (.inf true) f .rne 0 false).1
  | _ => codeOf f (convertVal (.inf false) f .rne 0 false).1

/-- What a row's conversion counts: blocks first, then an unscaled saturation and an unscaled NaN (R215). -/
structure RowCounts where
  blocks : List SatCounter
  sat : Bool
  nan : Bool
  deriving DecidableEq, Repr

/-- A row converted: `src` its words in conversion `c1`, the answer its codes and scales in `c2` (R283 to R285). -/
def convertRow (c1 c2 : Conv) (n eval fillv : Nat) (copies : Bool) (src : List (Nat × Nat)) (u : Nat → Nat)
    (sat : SatCounter) : List Nat × List Nat × RowCounts :=
  let bs := c2.bs
  let z0 := codeOf c2.fmt Val.zero
  if copies then
    let codes := (List.range n).map fun e =>
      if e < eval then bitsAt src (e * c1.width) c1.width else if bs = 0 then fillCode c2.fmt fillv else z0
    let scales := if bs = 0 then [] else (List.range (ceilDiv n bs)).map fun k =>
      if k * bs < eval then bitsAt src (64 * c1.dataWords n + 8 * k) 8 else 127
    (codes, scales, ⟨[], false, false⟩)
  else if bs = 0 then
    let rs := (List.range n).map fun e =>
      if e < eval then
        let r := convertVal (c1.elemOf n src e) c2.fmt c2.mode (u e) false
        (codeOf c2.fmt r.1, r.2.1, r.2.2)
      else (fillCode c2.fmt fillv, false, false)
    (rs.map fun r => r.1, [], ⟨[], rs.any fun r => r.2.1, rs.any fun r => r.2.2⟩)
  else
    let qs := (List.range (ceilDiv n bs)).map fun k =>
      let idx := (List.range bs).map fun e => k * bs + e
      quantiseBlock (idx.map fun e => if e < eval then some (c1.elemOf n src e) else none) c2.fmt c2.mode (idx.map u)
    ((qs.flatMap fun q => q.codes).take n, qs.map fun q => q.scale,
      ⟨qs.flatMap fun q => (if q.sat then [sat] else []) ++ (if q.nan then [SatCounter.nan] else [])
        ++ (if q.sclamp then [SatCounter.sclamp] else []), false, false⟩)

/-- The words of a row from its codes and scales (R149, R150). -/
def rowBits (c : Conv) (n : Nat) (codes scales : List Nat) : Bits :=
  let d := (codes.zipIdx).foldl (fun (b : Bits) q => b.put (q.2 * c.width) c.width q.1) Bits.none
  (scales.zipIdx).foldl (fun (b : Bits) q => b.put (64 * c.dataWords n + 8 * q.2) 8 q.1) d

/-- A row's counts entered: blocks each, unscaled ones once an instruction (R215). -/
def countRow (v : Ashlar) (k : Nat) (sat : SatCounter) (c : RowCounts) : Ashlar :=
  let p := v.prog k
  let more := c.blocks ++ (if c.sat && !p.sat then [sat] else []) ++ (if c.nan && !p.nan then [SatCounter.nan] else [])
  { v.setProg k { p with sat := p.sat || c.sat, nan := p.nan || c.nan } with satOut := v.satOut ++ more }

/-- The generator value of element e of chunk c (R285). -/
def loadU (v : Ashlar) (l : Load) (dst : Conv) (c e : Nat) : Nat :=
  if dst.mode = .sr then
    rbits v.srSeed 0 (BitVec.ofNat 64 l.step)
      (BitVec.ofNat 64 ((l.chunkOffset c * 2 ^ 12 + e) % (2 ^ 48 : Int)).toNat) dst.lane
  else 0

/-! ### Requests -/

/-- The first request of a program not yet sent. -/
def unsentPiece (p : Prog) : Option Piece :=
  (p.inflight.flatMap fun c => c.pieces).find? fun x => !x.sent

/-- A change to the requests of a program. -/
def onPieces (p : Prog) (f : Piece → Piece) : Prog :=
  { p with inflight := p.inflight.map fun c => { c with pieces := c.pieces.map f } }

/-- A request of a program sent under a tag: its chunk has been asked for (R302). -/
def sendPiece (p : Prog) (x : Piece) (tag : BitVec 15) : Prog :=
  { p with inflight := p.inflight.map fun c => { c with
      asked := c.asked || c.pieces.contains x
      pieces := c.pieces.map fun y => if y = x then { y with tag := tag, sent := true } else y } }

/-- The data of a store request, and the bits that it leaves alone (R283). -/
def storeData (x : Piece) : List DWord × List DWord :=
  (x.masks.map fun m => BitVec.ofNat 64 (m.2 &&& m.1), x.masks.map fun m => ~~~ BitVec.ofNat 64 m.1)

/-- Requests sent while the translation kept covers them; otherwise one lookup at the Hod of the ashlar's die (R286, R289,
R401, R403). -/
def pump (s : State) (a : Ash) (k : Nat) (l : Load) (store : Bool) : Nat → State
  | 0 => s
  | n + 1 =>
    let v := s.ash a
    let p := v.prog k
    match unsentPiece p with
    | none => s
    | some x =>
      let tag := BitVec.ofNat 15 (k * 8192 + p.nextTag % 8192)
      if p.looking.isSome || portBusy s a (ashVc v) then s
      else
        match p.xlat with
        | some (seg, fd) =>
          if seg = x.seg then
            let req : TierReq := ⟨tag, BitVec.ofNat 21 x.off, BitVec.ofNat 6 (x.words - 1), fd⟩
            let body := if store then Body.mwrite req false (storeData x).1 (storeData x).2 else Body.mread req
            let q := sendPiece { p with nextTag := p.nextTag + 1 } x tag
            let dest := ctlDest (fdDie fd) (ctlOf (fdTier fd) x.off)
            pump ((s.setAsh a (v.setProg k q)).send (ashPacket s a dest body)) a k l store n
          else
            (s.setAsh a (v.setProg k { p with looking := some (x.seg, tag), nextTag := p.nextTag + 1 })).send
              (ashPacket s a (blockDest 3 a.die 0) (.mlookup tag l.tensor (BitVec.ofNat 19 x.seg) v.job))
        | none =>
          (s.setAsh a (v.setProg k { p with looking := some (x.seg, tag), nextTag := p.nextTag + 1 })).send
            (ashPacket s a (blockDest 3 a.die 0) (.mlookup tag l.tensor (BitVec.ofNat 19 x.seg) v.job))

/-- Every request a program can send now. -/
def pumpAll (s : State) (a : Ash) (k : Nat) (l : Load) (store : Bool) : State :=
  pump s a k l store (((s.ash a).prog k).inflight.flatMap fun c => c.pieces).length

/-- Whether chunk c's row breaks R282: its offset is no multiple of 8, or it leaves the tensor. -/
def rowBroken (s : State) (a : Ash) (l : Load) (c : Nat) : Bool :=
  let o := l.chunkOffset c
  decide (o % 8 ≠ 0) || decide (o < 0) ||
    (match s.tensor a.die (s.ash a).job l.tensor with
     | .found t => decide ((t.length : Int) < o + 8 * (l.ct.rowWords l.elems : Nat))
     | _ => false)

/-- The instruction that program slot k runs. -/
def progInstr (v : Ashlar) (k : Nat) : Option EngInstr :=
  (v.eng .stream).queue.find? fun i => (v.prog k).running && i.seq == (v.prog k).seq

/-- Peg SPEG, where it is enabled, is signalled for a slot freed (R280, R389). -/
def slotSignal (s : State) (a : Ash) (l : Load) : State :=
  if l.spegEn then s.signal a l.speg 1 1 2 else s

/-- SLOAD (R286, R288): the program takes a slot and its ring, and runs from then on; its 0b10 signals are applied at once. -/
def execSload (a : Ash) (s : State) : Host.Outcome State Fault Refusal :=
  streamTurn s a (fun i => opcodeOf i == 1) fun t i => signalEarly t a i

/-- SSTORE (R287). -/
def execSstore (a : Ash) (s : State) : Host.Outcome State Fault Refusal :=
  streamTurn s a (fun i => opcodeOf i == 2) fun t _ => t

/-- A load program reserves a slot and launches its next chunk (R282, R286). -/
def launch (s : State) (a : Ash) (k : Nat) (i : EngInstr) : State :=
  let v := s.ash a
  let l := loadOf i
  let p := v.prog k
  let w := v.win l.rwin
  if l.total ≤ p.launched ∨ w.nslots ≤ w.occ.toNat + w.rsv.toNat then s
  else if rowBroken s a l p.launched then s.faultProg a i 3 3 0 evDescFault
  else
    let row := (l.chunkOffset p.launched).toNat
    let slot := (w.tail.toNat + w.occ.toNat + w.rsv.toNat) % w.nslots
    let c : Chunk := ⟨p.launched, slot, piecesOf row (l.ct.needed l.elems l.eval) fun _ => (0, 0), [], false, false⟩
    let u := (v.setProg k { p with launched := p.launched + 1, inflight := p.inflight ++ [c] }).setWin l.rwin
      { w with rsv := w.rsv + 1 }
    pumpAll (s.setAsh a u) a k l false

/-- SLOAD_REQUEST (R286): a program's waiting requests go out, or the next chunk is launched; none while frozen (R290). -/
def execSloadRequest (a : Ash) (prog : Nat) (s : State) : Host.Outcome State Fault Refusal :=
  atAshIf s a (decide (prog < 4)) <|
    let v := s.ash a
    match progInstr v prog with
    | none => .next s
    | some i =>
      if v.frozen ∨ opcodeOf i ≠ 1 then .next s
      else if (unsentPiece (v.prog prog)).isSome then .next (pumpAll s a prog (loadOf i) false)
      else .next (launch s a prog i)

/-- The slot words a store reads for its first `eval` elements, under the ring's class (R283, R287). -/
def readSlot (r : Run) (l : Load) (slot : Nat) : List Nat → List (Nat × Nat) × Run
  | [] => ([], r)
  | o :: rest =>
    let w := r.v.win l.rwin
    let x := match winWord w slot o with
      | some p => readPhys r 3 w.cls.toNat p
      | none => (0, r.fail ⟨1, 3, 0, evWindowFault⟩)
    let y := readSlot x.2 l slot rest
    ((o, x.1) :: y.1, y.2)

/-- A store program drains its next full slot: read, converted, popped, sent (R283, R287). The words wholly beyond EVAL are not
read, and so not checked (R260; DEDUCED, log 211). -/
def drain (s : State) (a : Ash) (k : Nat) (i : EngInstr) : State :=
  let v := s.ash a
  let l := loadOf i
  let p := v.prog k
  let w := v.win l.rwin
  if l.total ≤ p.launched ∨ w.occ.toNat = 0 then s
  else if rowBroken s a l p.launched then s.faultProg a i 3 3 0 evDescFault
  else
    let x := readSlot (Run.start v) l w.tail.toNat (l.cr.needed l.elems l.eval)
    match x.2.fault with
    | some f =>
      ((s.setAsh a x.2.v).countRun a x.2.ce x.2.ue (x.2.ue - 1)).faultProg a i f.kind f.rng f.addr f.ev
    | none =>
      let c := p.launched
      let q := convertRow l.cr l.ct l.elems l.eval 0 l.copies x.1 (loadU v l l.ct c) .st
      let bs := l.ct.bs
      let codes := q.1.take l.eval
      let scales := q.2.1.take (if bs = 0 then 0 else ceilDiv l.eval bs)
      let b := rowBits l.ct l.elems codes scales
      let row := (l.chunkOffset c).toNat
      let masks := fun o => (b.mask / 2 ^ (64 * o) % 2 ^ 64, b.data / 2 ^ (64 * o) % 2 ^ 64)
      let ch : Chunk := ⟨c, w.tail.toNat, piecesOf row (l.ct.needed l.elems l.eval) masks, [], false, false⟩
      let u := countRow x.2.v k .st q.2.2
      let u1 := u.setProg k { u.prog k with launched := c + 1, inflight := (u.prog k).inflight ++ [ch] }
      let t := (s.setAsh a (popRing u1 l.rwin 1)).countRun a x.2.ce 0 0
      pumpAll (slotSignal t a l) a k l true

/-- SSTORE_DRAIN (R287). -/
def execSstoreDrain (a : Ash) (prog : Nat) (s : State) : Host.Outcome State Fault Refusal :=
  atAshIf s a (decide (prog < 4)) <|
    let v := s.ash a
    match progInstr v prog with
    | none => .next s
    | some i =>
      if v.frozen ∨ opcodeOf i ≠ 2 then .next s
      else if (unsentPiece (v.prog prog)).isSome then .next (pumpAll s a prog (loadOf i) true)
      else .next (drain s a prog i)

/-! ### Answers from the tiers (R286, R288, R290, R406) -/

/-- The elements that word o of a slot row depends on: those it holds bits of, and where the row is scaled every element
of their blocks; a scale word depends on the elements of its eight blocks (R149, R150, R203). -/
def Conv.dependsOn (c : Conv) (n o : Nat) : List Nat :=
  (List.range n).filter fun e =>
    if o < c.dataWords n then
      (if c.bs = 0 then decide (e * c.width < 64 * (o + 1)) && decide (64 * o < (e + 1) * c.width)
       else decide (e / c.bs * c.bs * c.width < 64 * (o + 1)) && decide (64 * o < (e / c.bs + 1) * c.bs * c.width))
    else e / c.bs / 8 == o - c.dataWords n

/-- Whether word o of a slot row can be written: every tensor word it depends on has come (R283, R286). -/
def Load.wordReady (l : Load) (got : List (Nat × Nat)) (o : Nat) : Bool :=
  (l.cr.dependsOn l.elems o).all fun e => decide (l.eval ≤ e) || (l.ct.wordsOf l.elems e).all fun w => got.any fun g => g.1 == w

/-- The words of a slot row that a response has made ready, or at the last one all that were not, written into its slot as
whole words (R258, R269, R283, R286). -/
def fillSlot (v : Ashlar) (k : Nat) (l : Load) (before : List (Nat × Nat)) (c : Chunk) : Ashlar :=
  let w := v.win l.rwin
  let q := convertRow l.ct l.cr l.elems l.eval l.fillv l.copies c.got (loadU v l l.cr c.num) .ld
  let b := rowBits l.cr l.elems q.1 q.2.1
  let due := (List.range (l.cr.rowWords l.elems)).filter fun o =>
    (c.full || l.wordReady c.got o) && (before.isEmpty || !l.wordReady before o)
  let u := due.foldl (fun u o =>
    match winWord w c.slot o with
    | some p =>
      let x := b.data / 2 ^ (64 * o) % 2 ^ 64
      storeWord u p x (classCheck w.cls.toNat x)
    | none => u) v
  if c.full then countRow u k .ld q.2.2 else u

/-- How many of a program's chunks, from the first on, hold their complete rows (R286). -/
def fullSlots (p : Prog) : Nat := (p.inflight.takeWhile fun c => c.full).length

/-- Full slots become readable in order: each adds to occ, leaves the reserved count, and signals SPEG; those of one response
do so in one cycle (R280, R286, R389). -/
def settleSlots (s : State) (a : Ash) (k : Nat) (l : Load) : State :=
  s.onAsh a fun v =>
    let p := v.prog k
    let n := fullSlots p
    let w := v.win l.rwin
    let u := (v.setProg k { p with inflight := p.inflight.drop n, chunks := p.chunks + n }).setWin l.rwin
      { w with occ := w.occ + BitVec.ofNat 5 n, rsv := w.rsv - BitVec.ofNat 5 n }
    if l.spegEn then signalAll 1 2 (ashDest s a) (List.replicate n (l.speg, 1)) [] u else u

/-- The chunk and request a tag belongs to. -/
def tagged (p : Prog) (tag : BitVec 15) : Option (Chunk × Piece) :=
  p.inflight.findSome? fun c => (c.pieces.find? fun x => x.sent && x.tag == tag).map fun x => (c, x)

/-- The event of an answer that ends a program, as the ashlar records it: that of the block that answered, with its block
code (R90, R404, R406). -/
def answerEvent (src : Dest) (lookup : Bool) (status : BitVec 2) : Ev :=
  let p : Page := match (blockOf src).1 with
    | 0 => .hbc 0 0
    | 1 => .lpc 0
    | 2 => .dmc 0
    | _ => if status = 2 then .hbc 0 0 else .hod 0
  let e := if status = 2 then evMemUe else if lookup then evMemMap else evMemAccess
  ⟨e.cls, pageBlock p * 64 + e.cause⟩

/-- A tier's answer to a request or lookup of a stream program; one that nothing waits for is discarded. -/
def streamAnswer (s : State) (a : Ash) (src : Dest) (tag : BitVec 15) (status : BitVec 2) (fd : Word) (data : List DWord) :
    State :=
  let k := tag.toNat / 8192
  let v := s.ash a
  let p := v.prog k
  match progInstr v k with
  | none => s
  | some i =>
    let l := loadOf i
    let store := opcodeOf i == 2
    if (match p.looking with
        | some x => x.2 == tag
        | none => false) then
      let seg := match p.looking with
        | some x => x.1
        | none => 0
      if status = 0 then
        let t := s.setAsh a (v.setProg k { p with looking := none, xlat := some (seg, fd) })
        if v.frozen then t else pumpAll t a k l store
      else s.faultProg a i 8 3 0 (answerEvent src true status)
    else
      match tagged p tag with
      | none => s
      | some (c, x) =>
        if status = 0 then
          let got := c.got ++ (data.zipIdx).map fun d => (x.first + d.2, d.1.toNat)
          let rest := c.pieces.filter fun y => decide (y ≠ x)
          let c1 := { c with pieces := rest, got := got, full := rest.isEmpty }
          let p1 := { p with inflight := p.inflight.map fun y => if y.num = c.num then c1 else y }
          if store then
            if rest.isEmpty then
              s.setAsh a (v.setProg k { p1 with
                inflight := p1.inflight.filter fun y => decide (y.num ≠ c.num), chunks := p1.chunks + 1 })
            else s.setAsh a (v.setProg k p1)
          else
            let u := v.setProg k p1
            settleSlots (s.setAsh a (fillSlot u k l c.got c1)) a k l
        else if status = 1 then
          -- the translation is dropped and the request goes again (R406)
          let p1 := onPieces { p with xlat := match p.xlat with
              | some y => if y.1 = x.seg then none else some y
              | none => none } fun y => if y = x then { y with sent := false } else y
          let t := s.setAsh a (v.setProg k p1)
          if v.frozen then t else pumpAll t a k l store
        else s.faultProg a i 8 3 0 (answerEvent src false status)

/-- Whether a load or store program has nothing left to do but complete (R288). -/
def programDone (v : Ashlar) (i : EngInstr) : Bool :=
  match progFor v i.seq with
  | some k => decide ((loadOf i).total ≤ (v.prog k).chunks) && (v.prog k).inflight.isEmpty
  | none => false

/-- Whether a store program has read its last slot (R288). -/
def programDrained (v : Ashlar) (i : EngInstr) : Bool :=
  match progFor v i.seq with
  | some k => decide ((loadOf i).total ≤ (v.prog k).launched)
  | none => false

/-! ### Decode (R279, R281, R284) -/

/-- Whether a conversion pair is legal (R284). -/
def pairLegal (src dst : Conv) : Bool :=
  (src.fmt == dst.fmt && src.blk == dst.blk) || (fmtIsFloat src.fmt && fmtIsFloat dst.fmt)
    || ((src.fmt == 10 || src.fmt == 11) && fmtIsFloat dst.fmt)
    || (fmtIsInt src.fmt && fmtIsInt dst.fmt && src.blk == 0 && dst.blk == 0)

/-- The further decode conditions of the stream engine: true where one fails (R281). -/
def streamIllegal (v : Ashlar) (i : EngInstr) : Bool :=
  let a := rangeLen (irange i 0)
  let b := rangeLen (irange i 1)
  let w := rangeLen (irange i 2)
  match opcodeOf i with
  | 1 =>
    let l := loadOf i
    let r := v.win l.rwin
    a != 0 || b != 0 || w != 0 || !r.isLoadRing || loadBad l i || !pairLegal l.ct l.cr
      || decide (r.slotWords < l.cr.rowWords l.elems)
  | 2 =>
    let l := loadOf i
    let r := v.win l.rwin
    a != 0 || b != 0 || w != 0 || !r.isStoreRing || loadBad l i || !pairLegal l.cr l.ct
      || decide (r.slotWords < l.cr.rowWords l.elems)
  | 3 => a != 0 || b != 0 || w == 0
  | 4 => b != 0 || a == 0 || a != w || iw i 6 != 0 || iw i 7 != 0
  | 5 =>
    let r := v.win (bits (iw i 6) 0 4)
    a != 0 || b != 0 || w != 0 || !r.isLoadRing || r.pop || bits (iw i 6) 4 5 == 0 || decide (16 < bits (iw i 6) 4 5)
      || bits (iw i 6) 9 23 != 0 || iw i 7 != 0
  | _ =>
    let r := v.win (bits (iw i 6) 0 4)
    a != 0 || b != 0 || w != 0 || !(r.valid && r.remote) || bits (iw i 6) 4 2 == 3 || bits (iw i 6) 6 26 != 0 || iw i 7 != 0
where
  /-- Conditions SLOAD and SSTORE share. -/
  loadBad (l : Load) (i : EngInstr) : Bool :=
    l.elems == 0 || decide (4096 < l.elems) || decide (l.elems < l.eval) || l.fillv == 3
      || convBad (bits (iw i 6) 0 16) || convBad (bits (iw i 6) 16 16) || (l.spegEn && decide (48 ≤ l.speg))
      || bit (iw i 7) 31 || bits (iw i 9) 29 3 != 0 || bits (iw i 15) 15 17 != 0

/-! ### Write-backs and scrubbing (R262, R264, R265) -/

/-- SPAD_WRITEBACK (R262): the oldest corrected word waiting is written back. -/
def execSpadWriteback (a : Ash) (s : State) : Host.Outcome State Fault Refusal :=
  atAsh s a <|
    .next (s.onAsh a fun v =>
      match v.writeBacks with
      | [] => v
      | b :: r => spadPut { v with writeBacks := r } b.word (b.data.toNat % 2 ^ 64) (b.data.toNat / 2 ^ 64))

/-- The physical words of the valid class W windows (R264). -/
def scrubbed (v : Ashlar) (w : Nat) : Bool :=
  v.windows.toList.any fun x => x.valid && x.cls == 2 && decide (x.base.toNat ≤ w) && decide (w < x.base.toNat + x.size.toNat)

/-- The next word to visit, from `n` on in ascending order and round again; with whether the order starts again. -/
def nextScrub (v : Ashlar) (n : Nat) : Option (Nat × Bool) :=
  match (List.range (6144 - n)).find? fun k => scrubbed v (n + k) with
  | some k => some (n + k, false)
  | none => ((List.range n).find? fun k => scrubbed v k).map fun k => (k, true)

/-- SCRUB_STATUS.NEXT: the physical word of the next visit, or the scrub pointer while no word is to be visited (R303). -/
def nextVisit (v : Ashlar) : Nat :=
  match nextScrub v v.scrubNext.toNat with
  | some x => x.1
  | none => v.scrubNext.toNat

/-- A visit of the scrubber (R264). -/
def scrubVisit (s : State) (a : Ash) : State :=
  let v := s.ash a
  match nextScrub v v.scrubNext.toNat with
  | none => s
  | some (w, wrapped) =>
    let last := w == 6143
    let v1 := { v with
      scrubNext := BitVec.ofNat 13 (if last then 0 else w + 1)
      scrubPasses := v.scrubPasses + (if wrapped then 1 else 0) + (if last then 1 else 0) }
    let d := spadRaw v1 w
    match classDecode 2 d.1 d.2 with
    | .clean => s.setAsh a v1
    | .corrected x =>
      (s.setAsh a { v1 with
        writeBacks := v1.writeBacks ++ [⟨w, BitVec.ofNat 72 (x + checkBits cols72 x * 2 ^ 64)⟩] }).countRun a 1 0 0
    | .ue => ((s.setAsh a v1).countRun a 0 1 0).raise (.ash a) evSpadUe w

/-- SCRUB_VISIT (R264): frozen or not, while SCRUB_CTRL.ENABLE is 1. -/
def execScrubVisit (a : Ash) (s : State) : Host.Outcome State Fault Refusal :=
  atAsh s a <|
    if s.fld (.ash a) 0x3A8 0 1 = 0 then .next s else .next (scrubVisit s a)

end Sys2Proof.Machine
end

