-- ==== Sys2Proof/Machine/Transit.lean ====
section
/-! DEFINITION. How a packet comes to its destination: lintels (R352), fences (R354, R355), poisoned packets (R353), and
the refusals that answer it (R347). -/

namespace Sys2Proof.Machine

/-! ### Refusals -/

/-- The virtual channel of an answer: that of its cause, VC1 for VC0 (R314). -/
def answerVc (p : Packet) : BitVec 2 := if p.vc = 0 then 1 else p.vc

/-- An answer to a packet from where it was sent. -/
def answer (p : Packet) (body : Body) : Packet := ⟨answerVc p, p.src, p.dest, false, body⟩

/-- What a NAK says was refused (R347). -/
def refusedOf (b : Body) : Refused :=
  match b with
  | .rwrite w => .chan w.chan
  | .psig _ _ _ => .psig
  | .fadd peg _ _ => .fadd peg
  | _ => .other

/-- A refusal sent to SRC (R347). -/
def State.nak (s : State) (p : Packet) (code : BitVec 4) : State := s.send (answer p (.nak code (refusedOf p.body)))

/-- A refusal by a router on its own account, with SRC the destination named (R347, R355). -/
def State.routerNak (s : State) (p : Packet) (code : BitVec 4) : State := s.inject (answer p (.nak code (refusedOf p.body)))

/-- A PSIG, FADD or RWRITE of a block or ashlar on its way; a missing destination is refused with code 1 before anything
is sent, the refusal coming from the destination named (R308, R347). -/
def State.sendOr1 (s : State) (p : Packet) : State := if destMissing s p.dest then s.routerNak p 1 else s.send p

/-! ### Fences -/

/-- What becomes of a packet at a fence's border (R355): discarded and counted, answered by the border's router, or held
there. -/
def atFence (s : State) (p : Packet) : State :=
  if fenceDrops p then (s.take p).count16 (.mor (destDie s.part p.dest)) 0x5C 0 1
  else
    match p.body with
    | .connect false _ _ _ _ entry _ => (s.take p).inject (answer p (.connReply 1 entry 0 0 0 0 0))
    | .psig _ _ _ => (s.take p).routerNak p 4
    | .fadd _ _ _ => (s.take p).routerNak p 4
    | _ => s

/-! ### Arrivals -/

/-- A poisoned packet discarded at an ashlar: counted, and LINK_UE raised (R353). -/
def State.discardAtAsh (s : State) (a : Ash) : State :=
  (s.count16 (.mor a.die) 0x6C 16 1).raise (.ash a) evLinkUe 0

/-- The channel credit of a packet discarded at a block goes back to its sender: of a channel flit for an input of egress, or
for a channel tunnel; none where the peer names nothing (R308, R353). -/
def blockCredit (s : State) (p : Packet) : State :=
  let b := blockOf p.dest
  let back := fun (valid : Bool) (peer : Dest) (chan : BitVec 4) =>
    if valid && !destMissing s peer then s.send ⟨answerVc p, peer, p.dest, false, .cret chan 1⟩ else s
  match p.body, b.1 with
  | .chan ep _ _, 4 =>
    let i := (s.die b.2.1).egr.ins[ix 8 ep.toNat (by decide)]
    back i.peerValid i.peer i.pchan
  | .chan ep _ _, 5 =>
    (match ((s.die b.2.1).jhl[ix 2 b.2.2 (by decide)]).tunnels.find? fun t => t.1 == (1, ep.toNat) with
     | some t => back t.2.peerValid t.2.peer t.2.pchan
     | none => s)
  | _, _ => s

/-- The ring credit of a packet discarded at a message ring goes back to its sender (R353): that of its words, of a pad's
header that of the whole pad (DEDUCED, log 180). -/
def ringCredit (s : State) (a : Ash) (p : Packet) : State :=
  match p.body with
  | .rwrite r =>
    let v := s.ash a
    let w := v.win r.win.toNat
    if w.isMsgRing then
      s.sendAll (cretTo s a (v.ep (bits w.ring 0 3)) p.vc (if r.pad then w.size.toNat - r.off.toNat else r.words.length))
    else s
  | _ => s

/-- A packet at its ashlar: held where something on its way holds it, subject to fences, then given to `go`, which is told
whether it is poisoned. A packet for a block is no business of this command. -/
def toAsh (s : State) (p : Packet) (go : Ash → State) : Host.Outcome State Fault Refusal :=
  match ashOf s p.dest with
  | some a =>
    if !routeUp s p then .next s
    else if fencedOff s p then .next (atFence s p)
    else .next (go a)
  | none => if destMissing s p.dest then .fault .noSuchBlock else .next s

/-- As `toAsh`, a poisoned packet being discarded (R353). -/
def toAshClean (s : State) (p : Packet) (go : Ash → State → State) : Host.Outcome State Fault Refusal :=
  toAsh s p fun a => if p.poisoned then (ringCredit (s.take p) a p).discardAtAsh a else go a (s.take p)

/-- A packet at a block of one code: held where something on its way holds it, discarded where poisoned. -/
def toBlock (s : State) (p : Packet) (code : Nat) (go : Nat → Nat → State → State) : Host.Outcome State Fault Refusal :=
  let b := blockOf p.dest
  if isBlock p.dest && b.1 == code then
    if !blockExists s.part p.dest then .fault .noSuchBlock
    else if !routeUp s p then .next s
    else if p.poisoned then .next ((blockCredit (s.take p) p).discardAtBlock b.2.1 p.src)
    else .next (go b.2.1 b.2.2 (s.take p))
  else if destMissing s p.dest then .fault .noSuchBlock
  else .next s

end Sys2Proof.Machine
end

