-- ==== Sys2Proof/Machine/Send.lean ====
section
/-! DEFINITION. The send engine (R335 to R342, R349, R356): what each instruction emits, what it waits for, and when it is
blocked. -/

namespace Sys2Proof.Machine

/-! ### The outbound table (R327) -/

def outIx (n : Nat) : Fin 16 := ⟨n % 16, Nat.mod_lt n (by decide)⟩

def Ashlar.chan (v : Ashlar) (n : Nat) : OutEntry := v.out[outIx n]

def Ashlar.setChan (v : Ashlar) (n : Nat) (e : OutEntry) : Ashlar := { v with out := v.out.set (outIx n) e }

/-- Words of a tuple's 64-bit words (R338). -/
def OutEntry.tuple (e : OutEntry) : Nat := e.tlen.toNat + 1

/-! ### Decode (R337) -/

/-- BODY_LEN of each opcode (R335); none for an undefined one. -/
def sendBody (op : Nat) : Option Nat :=
  match op with
  | 1 => some 2
  | 2 => some 6
  | 3 => some 2
  | 4 => some 2
  | 5 => some 2
  | 6 => some 2
  | 7 => some 4
  | _ => none

/-- Reserved bits of the body words that are not 0 (R336). -/
def sendReserved (i : EngInstr) : Bool :=
  let w := fun (k lo n : Nat) => bits (iw i k) lo n != 0
  match opcodeOf i with
  | 1 => w 6 16 16 || w 7 13 19
  | 2 => w 6 4 28 || w 11 0 32
  | 3 => w 6 4 12 || w 7 0 32
  | 4 => w 6 18 14 || w 7 14 18
  | 5 => w 7 0 32
  | 6 => w 6 12 20 || w 7 24 8 || w 7 0 6
  | 7 => w 7 19 13 || w 8 27 5 || w 9 0 32
  | _ => false

/-- The channel index of an instruction that names one. -/
def sendChan (i : EngInstr) : Option Nat :=
  let op := opcodeOf i
  if op = 5 ∨ op = 7 then none else some (bits (iw i 6) 0 4)

/-- Whether an instruction's channel suits it: VALID, of the right kind, its VC of the context's class, YX only on VC0
(R314, R315, R337). -/
def chanSuits (v : Ashlar) (i : EngInstr) : Bool :=
  match sendChan i with
  | none => true
  | some n =>
    let e := v.chan n
    let op := opcodeOf i
    e.valid
      && (if op ≤ 2 then e.kind == 0 else if op = 3 then e.kind == 1 else if op = 4 then e.kind == 2 else e.kind != 3)
      && (if v.clsT then e.vc == 2 else decide (e.vc.toNat ≤ 1))
      && (!e.yx || e.vc == 0)

/-- Whether a send instruction fails decode with DESC_FAULT beyond R59 (R337). -/
def sendIllegal (v : Ashlar) (i : EngInstr) : Bool :=
  let op := opcodeOf i
  let len := fun k => rangeLen (irange i k)
  len 1 != 0 || len 2 != 0
    || (if op = 1 ∨ op = 3 ∨ op = 4 ∨ op = 7 then len 0 == 0 else len 0 != 0)
    || !chanSuits v i || sendReserved i
    || (op == 5 && (bits (iw i 6) 24 8 == 0 || targetBroken (setBits (iw i 6) 24 8 0)))
    || (op == 6 && targetBroken (iw i 7))
    || (op == 7 && (bits (iw i 6) 17 6 == 0 || decide (32 < bits (iw i 6) 17 6)
        || decide (bits (iw i 6) 17 6 ≤ bits (iw i 6) 12 5)
        || bits (iw i 6) 23 9 == 0 || decide (256 < bits (iw i 6) 23 9)))

/-! ### Progress of the running instruction -/

/-- The send instruction being worked through (R55). -/
def sendRunning (v : Ashlar) : Option EngInstr := (v.eng .send).queue.find? fun i => decide (i.phase = .running)

def onInstr (s : State) (a : Ash) (i : EngInstr) (f : EngInstr → EngInstr) : State :=
  s.onAsh a fun v => updInstr v i.engine i.order f

/-- SD_BLOCK, SD_CYCLES and the STALL already raised: cleared when a flit leaves (R356). -/
def unblock (v : Ashlar) : Ashlar := { v with sdBlock := 0, sdCycles := 0, sdRaised := false }

/-- The send engine can emit no flit: the router records why (R356, R361). -/
def blockSend (s : State) (a : Ash) (cause chan : Nat) (target : Dest) : State :=
  s.onAsh a fun v => { v with
    sdBlock := BitVec.ofNat 32 (1 + b2n v.clsT * 2 + cause * 8 + chan * 64 + target.toNat * 1024) }

/-- The instruction has executed: its last flit has left (R339); a faulted one has run to its end (R78). -/
def sendDone (s : State) (a : Ash) (i : EngInstr) : State :=
  (onInstr s a i fun j => { j with phase := .executed, wait := .none }).onAsh a fun v =>
    unblock (if (v.eng .send).queue.any (fun j => j.order = i.order && j.faulted) then ranToEnd v i else v)

/-- A packet or flit of the running instruction leaves. -/
def emitSend (s : State) (a : Ash) (i : EngInstr) (p : Packet) : State :=
  ((onInstr s a i fun j => { j with sent := j.sent + 1 }).onAsh a unblock).send p

/-- A send refused: its instruction faults and ends (R330, R338, R342). -/
def sendRefuse (s : State) (a : Ash) (i : EngInstr) (kind rng : Nat) (ev : Ev) : State :=
  ((s.faultInstr a i ⟨kind, rng, 0, ev⟩).onAsh a unblock)

/-- n words of RANGE_A from word o read by the send engine; an instruction already faulted only counts (R78, R263). -/
def sendRead (s : State) (a : Ash) (i : EngInstr) (o n : Nat) : List Nat × State :=
  let x := readWords (Run.start (s.ash a)) i 0 o n
  let r := x.2
  let s1 := s.setAsh a r.v
  let already := (inFlight (s.ash a)).any fun j => j.order = i.order && j.faulted
  match r.fault with
  | none => (x.1, s1.countRun a r.ce r.ue 0)
  | some f =>
    if already then (x.1, s1.countRun a r.ce r.ue r.ue)
    else (x.1, runsOn (s1.countRun a r.ce r.ue (r.ue - (if f.kind = 5 then 1 else 0))) a i f)

/-! ### Tuples (R338) -/

/-- The payload of a tuple of n 32-bit words: the others 0 (R310). -/
def tuplePayload (n : Nat) (ws : List Nat) : BitVec 128 :=
  BitVec.ofNat 128 ((List.range n).foldl (fun acc j => acc + ws.getD j 0 % 2 ^ 32 * 2 ^ (32 * j)) 0)

/-- The 32-bit words of 64-bit words (R338). -/
def halves (ws : List Nat) : List Nat := ws.flatMap fun w => [w % 2 ^ 32, w / 2 ^ 32 % 2 ^ 32]

/-- One tuple on a channel: a flit, one credit less (R327, R338). -/
def emitTuple (s : State) (a : Ash) (i : EngInstr) (n : Nat) (payload : BitVec 128) : State :=
  let e := (s.ash a).chan n
  emitSend (s.onAsh a fun v => v.setChan n { e with credit := e.credit - 1 }) a i
    ⟨e.vc, e.dest, ashDest s a, false, .chan e.ep payload (e.yx && e.vc == 0)⟩

/-- The tuples of a SENDT still to go, as far as credit and the port reach (R338, R340, R356). -/
def sendTuples (a : Ash) (i : EngInstr) (n count stride : Nat) : Nat → State → State
  | 0, s => sendDone s a i
  | left + 1, s =>
    let e := (s.ash a).chan n
    if portBusy s a e.vc then blockSend s a 2 n e.dest
    else if e.credit = 0 then blockSend s a 0 n e.dest
    else
      let x := sendRead s a i ((count - (left + 1)) * stride) ((e.tuple + 1) / 2)
      sendTuples a i n count stride left (emitTuple x.2 a i n (tuplePayload e.tuple (halves x.1)))

/-! ### Packets into windows and rings (R342, R346) -/

/-- Packets that carry n words, at most 128 each (R340, R346). -/
def packetCount (n : Nat) : Nat := (n + 127) / 128

/-- Words of packet k of n. -/
def packetWords (n k : Nat) : Nat := min 128 (n - 128 * k)

/-- The last packet has been sent: the instruction has executed once its tail has entered the router (R339). -/
def sendEnd (s : State) (a : Ash) (i : EngInstr) (chan : Nat) (dest : Dest) (fin : State → State) : State :=
  if tailWaits s a (ashVc (s.ash a)) then blockSend s a 2 chan dest else sendDone (fin s) a i

/-- Packets still to go, as far as the port takes them: `one` reads packet k and sends it, `fin` ends the instruction (R340,
R356). -/
def sendPackets (a : Ash) (i : EngInstr) (chan : Nat) (dest : Dest) (total : Nat) (one : Nat → State → State)
    (fin : State → State) : Nat → State → State
  | 0, s => sendEnd s a i chan dest fin
  | left + 1, s =>
    if portBusy s a (ashVc (s.ash a)) then blockSend s a 2 chan dest
    else sendPackets a i chan dest total one fin left (one (total - (left + 1)) s)

/-- Packet k of a WSEND: signal RPEG, RINC on the last (R346). -/
def wsendPacket (a : Ash) (i : EngInstr) (n k : Nat) (s : State) : State :=
  let e := (s.ash a).chan n
  let l := rangeLen (irange i 0)
  let x := sendRead s a i (128 * k) (packetWords l k)
  let last := k + 1 == packetCount l
  emitSend x.2 a i (ashPacket x.2 a e.dest (.rwrite
    { win := e.win, epoch := e.epoch, acc := bit (iw i 6) 17, recEnd := false, pad := false
      off := BitVec.ofNat 13 (bits (iw i 6) 4 13 + 128 * k), words := x.1.map (BitVec.ofNat 64)
      peg := if last then BitVec.ofNat 6 (bits (iw i 7) 0 6) else 0
      inc := if last then BitVec.ofNat 8 (bits (iw i 7) 6 8) else 0
      chan := BitVec.ofNat 4 n }))

/-- WSEND's packets (R346). -/
def wsendGo (s : State) (a : Ash) (i : EngInstr) (n : Nat) : State :=
  let total := packetCount (rangeLen (irange i 0))
  sendPackets a i n ((s.ash a).chan n).dest total (wsendPacket a i n) id (total - i.sent) s

/-- A record's header (R341). -/
def recHeader (len : Nat) (pad : Bool) (tag : Nat) (src : Dest) : DWord :=
  BitVec.ofNat 64 (len + b2n pad * 2 ^ 13 + tag * 2 ^ 16 + src.toNat * 2 ^ 32)

/-- A packet of a record at an offset: REC on the last, PAD on a pad's (R342). -/
def recordPacket (s : State) (a : Ash) (n off : Nat) (pad last : Bool) (words : List DWord) : Packet :=
  let e := (s.ash a).chan n
  ashPacket s a e.dest (.rwrite
    { win := e.win, epoch := e.epoch, acc := false, recEnd := last, pad := pad, off := BitVec.ofNat 13 off, words := words
      peg := 0, inc := 0, chan := BitVec.ofNat 4 n })

/-- Whether a record of `need` words leaves the ring's end as a pad (R342). -/
def padsRing (e : OutEntry) (need : Nat) : Bool := decide (e.size.toNat - e.wr.toNat < need)

/-- Ring credit that a record of `need` words takes, the pad's with it (R342). -/
def recordCost (e : OutEntry) (need : Nat) : Nat := if padsRing e need then e.size.toNat - e.wr.toNat + need else need

/-- Packet k of the record itself: its header, then its payload, from `off` on. -/
def bodyPacket (a : Ash) (i : EngInstr) (n off k : Nat) (s : State) : State :=
  let l := rangeLen (irange i 0)
  let m := packetWords (1 + l) k
  let x := if k = 0 then sendRead s a i 0 (m - 1) else sendRead s a i (128 * k - 1) m
  let head := if k = 0 then [recHeader l false (bits (iw i 6) 16 16) (ashDest s a)] else []
  emitSend x.2 a i (recordPacket x.2 a n (off + 128 * k) false (k + 1 == packetCount (1 + l))
    (head ++ x.1.map (BitVec.ofNat 64)))

/-- Packet k of an MSEND: the pad's where one is needed, then the record's (R342). -/
def msendPacket (a : Ash) (i : EngInstr) (n k : Nat) (s : State) : State :=
  let e := (s.ash a).chan n
  let room := e.size.toNat - e.wr.toNat
  let pads := padsRing e (1 + rangeLen (irange i 0))
  if pads ∧ k = 0 then
    emitSend s a i (recordPacket s a n e.wr.toNat true true [recHeader (room - 1) true (bits (iw i 6) 16 16) (ashDest s a)])
  else bodyPacket a i n (if pads then 0 else e.wr.toNat) (k - b2n pads) s

/-- A record of `need` words written: the entry's credit and write pointer (R342). -/
def recordWritten (a : Ash) (n need : Nat) (s : State) : State :=
  s.onAsh a fun v =>
    let e := v.chan n
    v.setChan n { e with
      credit := e.credit - BitVec.ofNat 16 (recordCost e need)
      wr := BitVec.ofNat 13 (if padsRing e need then need else (e.wr.toNat + need) % max 1 e.size.toNat) }

/-- MSEND once it runs (R342): it waits for the credit of the whole record, and of the pad where one is needed. -/
def msendGo (s : State) (a : Ash) (i : EngInstr) (n : Nat) : State :=
  let e := (s.ash a).chan n
  let need := 1 + rangeLen (irange i 0)
  let total := b2n (padsRing e need) + packetCount need
  if i.sent = 0 ∧ e.credit.toNat < recordCost e need then blockSend s a (if portBusy s a (ashVc (s.ash a)) then 2 else 1) n e.dest
  else sendPackets a i n e.dest total (msendPacket a i n) (recordWritten a n need) (total - i.sent) s

/-! ### Connections (R329 to R331) -/

/-- The CONNECT of a CONN instruction (R329, R331). -/
def connectPacket (s : State) (a : Ash) (i : EngInstr) (disc : Bool) (dest : Dest) : Packet :=
  let n := bits (iw i 6) 0 4
  let e := (s.ash a).chan n
  ashPacket s a dest (.connect disc e.kind (BitVec.ofNat 3 (bits (iw i 6) 5 3)) (BitVec.ofNat 4 (bits (iw i 6) 8 4)) e.tlen
    (BitVec.ofNat 4 n) (s.ash a).job)

/-- CONN once it runs: its flit leaves; a connect then waits for its reply (R329, R331, R339). -/
def connGo (s : State) (a : Ash) (i : EngInstr) (disc : Bool) (dest : Dest) : State :=
  let n := bits (iw i 6) 0 4
  if portBusy s a (ashVc (s.ash a)) then blockSend s a 2 n dest
  else if disc then
    let t := emitSend s a i (connectPacket s a i true dest)
    sendDone (t.onAsh a fun v => v.setChan n { v.chan n with conn := false, credit := 0 }) a i
  else
    let t := emitSend s a i (connectPacket s a i false dest)
    blockSend (onInstr t a i fun j => { j with wait := .connReply }) a 4 n dest

/-! ### Split-K partials (R173, R349) -/

/-- The KREQ of a KSEND (R173, R349). -/
def keyRequest (s : State) (a : Ash) (i : EngInstr) : KeyReq :=
  let v := s.ash a
  let x := v.joiner.bayX.toNat + bits (iw i 7) 0 7
  let y := v.joiner.bayY.toNat + bits (iw i 7) 7 7
  { tag := BitVec.ofNat 12 (bits (iw i 6) 0 12)
    rank := BitVec.ofNat 5 (bits (iw i 6) 12 5)
    nmemb := BitVec.ofNat 6 (bits (iw i 6) 17 6)
    nelem := BitVec.ofNat 9 (bits (iw i 6) 23 9)
    kd :=
      { dest := if x < 512 ∧ y < 0xC0 then mkDest x y else 0x1FFFF
        dwin := BitVec.ofNat 4 (bits (iw i 7) 14 4)
        dacc := bit (iw i 7) 18
        doff := BitVec.ofNat 13 (bits (iw i 8) 0 13)
        dpeg := BitVec.ofNat 6 (bits (iw i 8) 13 6)
        dinc := BitVec.ofNat 8 (bits (iw i 8) 19 8) }
    borg := mkDest v.joiner.bayX.toNat v.joiner.bayY.toNat
    job := v.job }

/-- The Keystone of an ashlar's die. -/
def keyDest (a : Ash) (ctx : Nat) : Dest := blockDest 7 a.die ctx

/-- The KREQ of a KSEND leaves; the engine is then blocked on its grant (R349, R356). -/
def keySend (s : State) (a : Ash) (i : EngInstr) : State :=
  let t := (onInstr s a i fun j => { j with wait := .grant }).onAsh a unblock
  blockSend (t.send (ashPacket s a (keyDest a 0) (.kreq (keyRequest s a i)))) a 3 0 (keyDest a 0)

/-- The data of a granted KSEND, from flit `nelem / 4 - left` on: on the virtual channel of the KREQ that opened the reduction
(R314, R349). -/
def ksendFlits (a : Ash) (i : EngInstr) (nelem : Nat) (ctx : BitVec 6) : Nat → State → State
  | 0, s => sendDone s a i
  | left + 1, s =>
    let vc := ((s.die a.die).key.ctxs[ix 64 ctx.toNat (by decide)]).vc
    if portBusy s a vc then blockSend s a 2 0 (keyDest a ctx.toNat)
    else
      let k := (nelem + 3) / 4 - (left + 1)
      let x := sendRead s a i (2 * k) (min 2 ((nelem + 1) / 2 - 2 * k))
      ksendFlits a i nelem ctx left
        (emitSend x.2 a i ⟨vc, keyDest a ctx.toNat, ashDest s a, false,
          .chan 0 (tuplePayload (min 4 (nelem - 4 * k)) (halves x.1)) false⟩)

/-- KSEND once it runs: its data leaves when it is granted; until then it is blocked on the grant, or on the port for its
request (R349, R356). -/
def ksendGo (s : State) (a : Ash) (i : EngInstr) : State :=
  let nelem := bits (iw i 6) 23 9
  match i.wait with
  | .granted ctx => ksendFlits a i nelem ctx ((nelem + 3) / 4 - i.sent) s
  | .none =>
    if portBusy s a (ashVc (s.ash a)) then blockSend s a 2 0 (keyDest a 0)
    else keySend s a i
  | _ => blockSend s a 3 0 (keyDest a 0)

/-! ### The instructions -/

/-- The channel checks of the first execution cycle (R338). -/
def chanRefusal (s : State) (e : OutEntry) : Option Ev :=
  if !e.conn then some evChanFault
  else if e.stale then some evEpochStale
  else if destMissing s e.dest then some evNak
  else none

/-- What the running send instruction does as far as it can now; it is called at its start and whenever what it waits
for may have come. -/
def sendGo (s : State) (a : Ash) (i : EngInstr) : State :=
  let n := bits (iw i 6) 0 4
  let e := (s.ash a).chan n
  match opcodeOf i with
  | 1 =>
    let count := if bits (iw i 6) 4 12 = 0 then 4096 else bits (iw i 6) 4 12
    let stride := if bits (iw i 7) 0 13 = 0 then (e.tuple + 1) / 2 else bits (iw i 7) 0 13
    sendTuples a i n count stride (count - i.sent) s
  | 2 =>
    if portBusy s a e.vc then blockSend s a 2 n e.dest
    else if e.credit = 0 then blockSend s a 0 n e.dest
    else sendDone (emitTuple s a i n (tuplePayload e.tuple ([7, 8, 9, 10].map fun k => (iw i k).toNat))) a i
  | 3 => msendGo s a i n
  | 4 => wsendGo s a i n
  | 5 =>
    match targetDest (s.ash a) (setBits (iw i 6) 24 8 0) with
    | some d =>
      if portBusy s a (ashVc (s.ash a)) then blockSend s a 2 0 d
      else
        sendDone (emitSend s a i (ashPacket s a d
          (.psig (BitVec.ofNat 6 (bits (iw i 6) 0 6)) (BitVec.ofNat 8 (bits (iw i 6) 24 8)) (s.ash a).job))) a i
    | none => s
  | 6 =>
    match i.wait, targetDest (s.ash a) (iw i 7) with
    | .none, some d => connGo s a i (bit (iw i 6) 4) d
    | _, _ => s
  | _ => ksendGo s a i

/-- A send instruction's first execution cycle: refused under R338 or R342, or on its way. -/
def sendFirst (s : State) (a : Ash) (i : EngInstr) : State :=
  let op := opcodeOf i
  let e := (s.ash a).chan (bits (iw i 6) 0 4)
  let gone : Word → Bool := fun w => match targetDest (s.ash a) w with
    | some d => destMissing s d
    | none => true
  if 1 ≤ op ∧ op ≤ 4 then
    match chanRefusal s e with
    | some ev => sendRefuse s a i 7 3 ev
    | none =>
      if op = 3 ∧ e.size.toNat < 1 + rangeLen (irange i 0) then sendRefuse s a i 9 3 evRingFault
      else sendGo (signalEarly s a i) a i
  else if op = 5 ∧ gone (setBits (iw i 6) 24 8 0) then sendRefuse s a i 7 3 evNak
  else if op = 6 ∧ gone (iw i 7) then sendRefuse s a i 7 3 evNak
  else sendGo (signalEarly s a i) a i

/-- The head of the send queue, an instruction wanted, starts and does what it can. -/
def sendTurn (s : State) (a : Ash) (want : EngInstr → Bool) : Host.Outcome State Fault Refusal :=
  atAsh s a (.next (startHead s a .send want fun t i => sendFirst t a i))

/-- SENDT (R338). -/
def execSendt (a : Ash) (s : State) : Host.Outcome State Fault Refusal := sendTurn s a fun i => opcodeOf i == 1

/-- SENDI (R336). -/
def execSendi (a : Ash) (s : State) : Host.Outcome State Fault Refusal := sendTurn s a fun i => opcodeOf i == 2

/-- MSEND (R342). -/
def execMsend (a : Ash) (s : State) : Host.Outcome State Fault Refusal := sendTurn s a fun i => opcodeOf i == 3

/-- WSEND (R346). -/
def execWsend (a : Ash) (s : State) : Host.Outcome State Fault Refusal := sendTurn s a fun i => opcodeOf i == 4

/-- PSIGR (R336, R339). -/
def execPsigr (a : Ash) (s : State) : Host.Outcome State Fault Refusal := sendTurn s a fun i => opcodeOf i == 5

/-- CONN with ACTION 0 (R329). -/
def execConnConnect (a : Ash) (s : State) : Host.Outcome State Fault Refusal :=
  sendTurn s a fun i => opcodeOf i == 6 && !bit (iw i 6) 4

/-- CONN with ACTION 1 (R331). -/
def execConnDisconnect (a : Ash) (s : State) : Host.Outcome State Fault Refusal :=
  sendTurn s a fun i => opcodeOf i == 6 && bit (iw i 6) 4

/-- A KSEND at the head of the send queue sends its KREQ, whatever its waits (R349). -/
def keyAsk (s : State) (a : Ash) : State :=
  let v := s.ash a
  match (v.eng .send).queue.head? with
  | some i =>
    if opcodeOf i = 7 ∧ i.phase = .ready ∧ i.wait = .none ∧ !v.frozen ∧ !portBusy s a (ashVc v) then keySend s a i else s
  | none => s

/-- KSEND (R349): its request first, then its start as for the others. -/
def execKsend (a : Ash) (s : State) : Host.Outcome State Fault Refusal := sendTurn (keyAsk s a) a fun i => opcodeOf i == 7

/-- SEND_RESUME (R340): the running send instruction goes on as far as it can. -/
def execSendResume (a : Ash) (s : State) : Host.Outcome State Fault Refusal :=
  atAsh s a <|
    if (s.ash a).frozen then .next s
    else
      match sendRunning (s.ash a) with
      | some i => .next (sendGo s a i)
      | none => .next s

/-- CONNECT_RETRY (R330): after FENCED or BUSY the CONNECT goes again. -/
def execConnectRetry (a : Ash) (s : State) : Host.Outcome State Fault Refusal :=
  atAsh s a <|
    match sendRunning (s.ash a) with
    | some i =>
      if i.wait = .connRetry ∧ !(s.ash a).frozen then
        match targetDest (s.ash a) (iw i 7) with
        | some d => .next (connGo (onInstr s a i fun j => { j with wait := .none }) a { i with wait := .none } false d)
        | none => .next s
      else .next s
    | none => .next s

/-- KREQ_RETRY (R349): 64 cycles after a RETRY the KREQ goes again. -/
def execKreqRetry (a : Ash) (s : State) : Host.Outcome State Fault Refusal :=
  atAsh s a <|
    match (inFlight (s.ash a)).find? fun i => decide (i.engine = .send ∧ i.wait = .grantRetry) with
    | some i =>
      if (s.ash a).frozen ∨ portBusy s a (ashVc (s.ash a)) then .next s else .next (keySend s a i)
    | none => .next s

/-- KGRANT's statuses (R187, R349): granted, retry, abort. -/
def grantOk : BitVec 2 := 0
def grantRetry : BitVec 2 := 1
def grantAbort : BitVec 2 := 2

/-- KGRANT (R187, R349): the KSEND that waits for it sends its data when it runs, asks again later, or faults. -/
def execKgrant (p : Packet) (s : State) : Host.Outcome State Fault Refusal :=
  match p.body with
  | .kgrant status ctx =>
    toAshClean s p fun a t =>
      match (inFlight (t.ash a)).find? fun i => decide (i.engine = .send ∧ i.wait = .grant) with
      | none => t
      | some i =>
        if status = grantOk then
          let t1 := onInstr t a i fun j => { j with wait := .granted ctx }
          if i.phase = .running ∧ !(t.ash a).frozen then sendGo t1 a { i with wait := .granted ctx } else t1
        else if status = grantAbort then sendRefuse (onInstr t a i fun j => { j with wait := .none }) a i 7 3 evKsendAbort
        else onInstr t a i fun j => { j with wait := .grantRetry }
  | _ => .next s

/-- What an accepted reply writes into its entry (R330): credit and, of a ring, its window; of a window channel, its window
and size. -/
def replyEntry (e : OutEntry) (src : Dest) (ep : BitVec 3) (win : BitVec 4) (epoch : Byte) (size wr : BitVec 13)
    (credit : Half) : OutEntry :=
  let f := { e with conn := true, stale := false, dest := src, ep := ep }
  if e.kind = 0 then { f with credit := credit }
  else if e.kind = 2 then { f with win := win, epoch := epoch, size := size }
  else { f with win := win, epoch := epoch, size := size, wr := wr, credit := credit }

/-- CONN_REPLY at an ashlar (R330): the entry connected, the CONNECT to be repeated, or the instruction faulted; one that
no CONN waits for is discarded. -/
def connReplyAsh (a : Ash) (p : Packet) (status : BitVec 3) (entry win : BitVec 4) (epoch : Byte) (size wr : BitVec 13)
    (credit : Half) (s : State) : State :=
  match sendRunning (s.ash a) with
  | some i =>
    if i.wait = .connReply ∧ bits (iw i 6) 0 4 = entry.toNat then
      if status = 0 then
        let ep := BitVec.ofNat 3 (bits (iw i 6) 5 3)
        sendDone (s.onAsh a fun v =>
          let e := v.chan entry.toNat
          v.setChan entry.toNat (replyEntry e p.src ep win epoch size wr credit)) a i
      else if status = 1 ∨ status = 2 then onInstr s a i fun j => { j with wait := .connRetry }
      else sendRefuse s a i 7 3 evConnRefused
    else s
  | none => s

/-! ### STALL (R356) -/

/-- The limit of a class: MOR.STALL_S, STALL_T or STALL_M. -/
def stallLimit (s : State) (die cls : Nat) : Nat :=
  if cls = 0 then s.fld (.mor die) 0x40 0 24 else (s.reg (.mor die) (0x40 + 4 * cls)).toNat

/-- STALL (R356): the count of a blocked send engine passes its class's limit; raised once a crossing. -/
def execStall (a : Ash) (s : State) : Host.Outcome State Fault Refusal :=
  atAsh s a <|
    let v := s.ash a
    if !bit v.sdBlock 0 ∨ v.sdRaised then .next s
    else
      let cls := bits v.sdBlock 1 2
      let p := Page.mor a.die
      let t := s.setAsh a { v with
        sdRaised := true, sdCycles := BitVec.ofNat 32 (min 0xFFFFFFFF (stallLimit s a.die cls + 1)) }
      let u := if t.fld p 0x4C 31 1 = 1 then t
        else t.setReg p 0x4C (BitVec.ofNat 32 (a.col + a.row * 2 ^ 7 + cls * 2 ^ 14 + 2 ^ 31))
      .next (u.raise p evStall 0)

end Sys2Proof.Machine
end

