-- ==== Sys2Proof/Machine/Mortar.lean ====
section
/-! DEFINITION. What packets do at their ashlar (R276, R329 to R334, R343, R346, R347, R378 to R382), fences (R354) and the
router register space (R360). -/

namespace Sys2Proof.Machine

/-! ### Channel flits (R332 to R334) -/

/-- A flit dropped at an endpoint: counted (R332). -/
def dropFlit (s : State) (a : Ash) (n : Nat) : State :=
  s.onAsh a fun v => v.setEp n { v.ep n with drops := sat16 (v.ep n).drops 1 }

/-- A channel flit at its endpoint (R332, R334, R353). -/
def flitArrives (s : State) (a : Ash) (p : Packet) (n : Nat) (payload : BitVec 128) : State :=
  let e := (s.ash a).ep n
  if p.poisoned then
    ((s.onAsh a fun v => v.setEp n { e with poison := true, poisoned := sat16 e.poisoned 1 }).sendAll
      (cretTo s a e p.vc 1)).discardAtAsh a
  else if !e.valid ∨ e.ring then (dropFlit s a n).raise (.ash a) evChanFault 0
  else if 4 ≤ e.flits.length then
    ((dropFlit s a n).onAsh a fun v => v.setEp n { v.ep n with overrun := true }).raise (.ash a) evCreditOverrun 0
  else arrive (s.onAsh a fun v => v.setEp n { e with flits := e.flits ++ [payload], vcs := e.vcs ++ [p.vc] }) a n

/-! ### Slips of timed flits (R324, R325) -/

/-- An output as MOR.SLIP_INFO gives it (R363): its router's column and row, 126 for the north rail and 127 for the south,
and its port. DESIGN CHOICE (log 179): an attach output of a rail shows the code of a local one. -/
def slipWord (h : Hop) : Word :=
  let row := if h.row = 0 then 126 else if h.row = 99 then 127 else h.row - 1
  let port := match h.port with
    | .north => 1
    | .east => 2
    | .south => 3
    | .west => 4
    | _ => 0
  BitVec.ofNat 32 (h.col + row * 2 ^ 7 + port * 2 ^ 14 + 2 ^ 31)

/-- n slips at an output: MOR.SLIP and the router's own count, which a rail router does not have, and for the first since
SLIP_INFO was cleared its place and TIMING_SLIP (R325). -/
def slipAt (s : State) (h : Hop) (n : Nat) : State :=
  if n = 0 then s
  else
    let p := Page.mor h.die
    let t := s.perfAdd p 0x50 n
    let u := if 1 ≤ h.row ∧ h.row ≤ 98 then
        t.onAsh ⟨h.die, h.col, h.row - 1⟩ fun v => { v with slips := sat16 v.slips n }
      else t
    if u.fld p 0x58 31 1 = 1 then u else (u.setReg p 0x58 (slipWord h)).raise p evTimingSlip 0

/-- Whether a router runs in bypass (R306). -/
def inBypass (s : State) (h : Hop) : Bool :=
  decide (1 ≤ h.row) && decide (h.row ≤ 98) && (logicalRow s h.die (h.row - 1)).isNone

/-- The slips of a packet at each output of its way, none unless it travels on VC0; a router in bypass delays nothing. By how
many cycles which flits meet is a matter of cycles: how many slips there are at an output is a free value (R324, R325). -/
def timedSlips (s : State) (p : Packet) : State :=
  if p.vc = 0 then
    ((wayBetween s (srcEnd s p) (dstEnd s p) (yxFirst p)).filter fun h => !inBypass s h).foldl (fun t h =>
      let x := t.free
      slipAt x.2 h x.1.toNat) s
  else s

/-! ### Connections (R329 to R331) -/

/-- The status that answers a CONNECT (R329): the lowest code whose row holds. -/
def connectStatus (v : Ashlar) (kind : BitVec 2) (ep : BitVec 3) (win : BitVec 4) (tlen : BitVec 2) (job : Half) : BitVec 3 :=
  let e := v.ep ep.toNat
  let w := v.win win.toNat
  let tuple := decide (kind = 0)
  if kind ≠ 2 ∧ e.peerValid then 2
  else if kind = 2 ∧ !(w.valid && w.remote && w.isOpen) then 3
  else if kind ≠ 2 ∧ (!e.valid || e.ring == tuple || !e.dyn || (tuple && e.tlen != tlen)) then 3
  else if !v.ctxValid ∨ v.job ≠ job then 4
  else 0

/-- A CONNECT at its ashlar: judged, answered, and where it is accepted the peer set (R329, R330); a disconnect is
accepted without an answer (R331). -/
def connectAsh (a : Ash) (p : Packet) (disc : Bool) (kind : BitVec 2) (ep : BitVec 3) (win : BitVec 4) (tlen : BitVec 2)
    (entry : BitVec 4) (job : Half) (s : State) : State :=
  let v := s.ash a
  let e := v.ep ep.toNat
  if disc then
    if kind = 2 then s
    else s.onAsh a fun v => settleEp (v.setEp ep.toNat { e with closing := e.peerValid }) ep.toNat
  else
    let st := connectStatus v kind ep win tlen job
    let reply := fun (win : BitVec 4) (epoch : Byte) (size wr : BitVec 13) (credit : Half) =>
      answer p (.connReply st entry win epoch size wr credit)
    if st ≠ 0 then s.send (reply 0 0 0 0 0)
    else if kind = 2 then
      let w := v.win win.toNat
      s.send (reply win w.epoch w.size 0 0)
    else
      let t := s.onAsh a fun v => v.setEp ep.toNat { e with peer := p.src, pchan := entry, peerValid := true, closing := false }
      if kind = 0 then t.send (reply 0 0 0 0 (BitVec.ofNat 16 (4 - e.flits.length)))
      else
        let w := v.win e.rwin.toNat
        t.send (reply e.rwin w.epoch w.size w.wr (BitVec.ofNat 16 (w.size.toNat - w.used.toNat)))

/-! ### Remote writes (R276, R343, R346) -/

/-- What a window makes of a remote write: accepted, stale (counted or not), or refused for its size or class. -/
inductive WriteVerdict where
  | ok | stale (counted : Bool) | bad
  deriving DecidableEq, Repr

/-- A write judged (R276, R346): the Keystone's is checked only for VALID, class G and size. -/
def judgeWrite (w : Window) (key : Bool) (r : RemoteWrite) : WriteVerdict :=
  let fits := decide (r.off.toNat + r.words.length ≤ w.size.toNat)
  if !w.valid then .stale false
  else if key then (if fits && w.cls == 1 then .ok else .bad)
  else if !w.remote then .stale false
  else if !w.isOpen ∨ w.epoch ≠ r.epoch then .stale true
  else if fits && (!r.acc || w.cls == 1) then .ok
  else .bad

/-- Two FP32 values accumulated (R346). -/
def accWord (old new : Nat) : Nat :=
  let add := fun (x y : Nat) => (rne32Code (Val.add (fp32 (BitVec.ofNat 32 x)) (fp32 (BitVec.ofNat 32 y)))).toNat
  add (old % 2 ^ 32) (new % 2 ^ 32) + add (old / 2 ^ 32) (new / 2 ^ 32) * 2 ^ 32

/-- One word of a remote write, at a physical word (R258, R346): an accumulate whose read is uncorrectable leaves the word
and raises SPAD_UE with no engine faulted. The flag says whether every word so far was written. -/
def putRemote (a : Ash) (cls : Nat) (acc : Bool) (x : State × Bool) (pw new : Nat) : State × Bool :=
  let s := x.1
  let v := s.ash a
  if !acc then (s.setAsh a (storeWord v pw new (classCheck cls new)), x.2)
  else
    let d := spadRaw v pw
    let put := fun (t : State) (old : Nat) =>
      let y := accWord old new
      t.onAsh a fun u => storeWord u pw y (classCheck cls y)
    match classDecode cls d.1 d.2 with
    | .clean => (put s d.1, x.2)
    | .corrected y => (put ((s.count16 (.ash a) 0x3B0 0 1).countErr (.ash a)) y, x.2)
    | .ue => ((s.count16 (.ash a) 0x3B0 16 1).raise (.ash a) evSpadUe pw, false)

/-- The words of an accepted write, and whether all were written. -/
def putWords (s : State) (a : Ash) (w : Window) (r : RemoteWrite) : State × Bool :=
  (r.words.zipIdx).foldl (fun x d =>
    putRemote a w.cls.toNat r.acc x (w.base.toNat + r.off.toNat + d.2) d.1.toNat) (s, true)

/-- The commit of a message-ring packet that ends a record or pad (R343). -/
def commitRecord (s : State) (a : Ash) (p : Packet) (n : Nat) (r : RemoteWrite) : State :=
  let v := s.ash a
  let w := v.win n
  let size := max 1 w.size.toNat
  let fin := if r.pad then 0 else (r.off.toNat + r.words.length) % size
  let grown := w.used.toNat + (fin + size - w.wr.toNat) % size + (if fin = w.wr.toNat then size else 0)
  let w1 := { w with
    used := BitVec.ofNat 13 grown
    wr := BitVec.ofNat 13 fin
    recs := if r.pad ∨ w.recs = 31 then w.recs else w.recs + 1
    vcs := if r.pad then w.vcs else w.vcs ++ [p.vc] }
  let ep := bits w.ring 0 3
  let x := skipPads v 4 ⟨w1, [], []⟩
  let t := ((noteHeads s a x).onAsh a fun u => u.setWin n x.win).sendAll (x.credits.flatMap (cretTo s a (v.ep ep) p.vc))
  if r.pad then t else arrive t a ep

/-- The signal of an accepted write (R346, R371); one of no peg has no effect. -/
def writeSignal (s : State) (a : Ash) (p : Packet) (r : RemoteWrite) : State :=
  if r.inc = 0 ∨ 48 ≤ r.peg.toNat then s
  else s.onAsh a fun v => signalPeg v r.peg.toNat (r.inc.zeroExtend 16) 5 0 p.src

/-- An accepted write: its words, its record, its signal (R343, R346). -/
def acceptWrite (s : State) (a : Ash) (p : Packet) (r : RemoteWrite) : State :=
  let n := r.win.toNat
  let w := (s.ash a).win n
  let ring := w.isMsgRing
  let size := max 1 w.size.toNat
  if ring ∧ w.size.toNat - w.used.toNat < (r.off.toNat + size - w.wr.toNat) % size + r.words.length then
    s.raise (.ash a) evRingFault 0
  else
    let x := putWords s a w r
    let t := if ring ∧ r.recEnd then commitRecord x.1 a p n r else x.1
    if x.2 then writeSignal t a p r else t

/-- RWRITE at its ashlar (R276, R346, R347). -/
def rwriteAsh (a : Ash) (p : Packet) (r : RemoteWrite) (s : State) : State :=
  let n := r.win.toNat
  let w := (s.ash a).win n
  match judgeWrite w (isBlock p.src && (blockOf p.src).1 == 7) r with
  | .ok => acceptWrite s a p r
  | .stale false => s.nak p 2
  | .stale true =>
    ((s.onAsh a fun v => v.setWin n { w with stale := sat16 w.stale 1 }).countErr (.ash a)).nak p 2
  | .bad => (s.raise (.ash a) evWindowFault 0).nak p 3

/-- RWRITE (R346). -/
def execRwrite (p : Packet) (s : State) : Host.Outcome State Fault Refusal :=
  match p.body with
  | .rwrite r => toAshClean s p fun a t => rwriteAsh a p r t
  | _ => .next s

/-! ### Signals and fetch-and-adds (R378 to R383) -/

/-- A PSIG or FADD refused for its job (R382). -/
def refuseSignal (s : State) (a : Ash) (p : Packet) : State := (s.refuseJob a).nak p 5

/-- PSIG_PACKET at an ashlar (R368, R382). At a block of none of the kinds that take PSIGs it has no effect. -/
def execPsigPacket (p : Packet) (s : State) : Host.Outcome State Fault Refusal :=
  match p.body with
  | .psig peg inc job =>
    if isBlock p.dest then
      if blockExists s.part p.dest then
        (let c := (blockOf p.dest).1
         if c ≤ 2 ∨ c = 4 ∨ c = 5 ∨ !routeUp s p then .next s
         else .next (s.take p))
      else .fault .noSuchBlock
    else
      toAshClean s p fun a t =>
        if pegRefused (t.ash a) job then refuseSignal t a p
        else if 48 ≤ peg.toNat then t
        else t.onAsh a fun v => signalPeg v peg.toNat (inc.zeroExtend 16) 4 0 p.src
  | _ => .next s

/-- A fetch-and-add applied and answered (R378, R381). The waiters that its cycle starts take as well, judged on the value
that is answered (R376, R377). A peg that does not exist answers a value the spec leaves open. -/
def doFadd (s : State) (a : Ash) (p : Packet) (peg : BitVec 6) (delta : Half) : State :=
  if 48 ≤ peg.toNat then
    let x := s.free
    x.2.send (answer p (.faddReply peg (BitVec.ofNat 16 x.1.toNat)))
  else
    let v := s.ash a
    (s.setAsh a (applyFadd (decideNow v (joinerWait v)) peg.toNat delta p.src)).send
      (answer p (.faddReply peg (v.peg peg.toNat).value))

/-- FADD (R378, R382, R383): applied, refused, or queued at a frozen ashlar, where a fifth waits; one addressed to a block
is refused with code 1 (R122). -/
def execFadd (p : Packet) (s : State) : Host.Outcome State Fault Refusal :=
  match p.body with
  | .fadd peg delta job =>
    if isBlock p.dest then
      if !blockExists s.part p.dest then .fault .noSuchBlock
      else if !routeUp s p then .next s
      else .next ((s.take p).routerNak p 1)
    else
      toAsh s p fun a =>
        let t := s.take p
        let v := s.ash a
        if p.poisoned then t.discardAtAsh a
        else if pegRefused v job then refuseSignal t a p
        else if v.frozen then
          if 4 ≤ v.faddQueue.length then s else t.onAsh a fun u => { u with faddQueue := u.faddQueue ++ [p] }
        else doFadd t a p peg delta
  | _ => .next s

/-- The oldest fetch-and-add outstanding for a peg at a home. -/
def findFadd (j : Joiner) (peg : BitVec 6) (home : Dest) : Option (Reg × BitVec 6 × Dest × Word) :=
  j.fadds.find? fun f => f.2.1 == peg && f.2.2.1 == home

/-- FADD_REPLY at the requester (R122, R381): the old value in rd, its pending bit clear. -/
def execFaddReply (p : Packet) (s : State) : Host.Outcome State Fault Refusal :=
  match p.body with
  | .faddReply peg old =>
    toAshClean s p fun a t =>
      match findFadd (t.ash a).joiner peg p.src with
      | some f => t.onJ a fun j => { (j.wr f.1 (old.zeroExtend 32)).clearPending f.1 with fadds := j.fadds.erase f }
      | none => t
  | _ => .next s

/-! ### Refusals and credits at a sender (R333, R347) -/

/-- NAK at an ashlar (R347, R382). -/
def nakAsh (a : Ash) (p : Packet) (code : BitVec 4) (of : Refused) (s : State) : State :=
  match of with
  | .fadd peg =>
    (match findFadd (s.ash a).joiner peg p.src with
     | some f => takeHeld (faddNak (s.onJ a fun j => { j with fadds := j.fadds.erase f }) a f.1 f.2.2.2) a
     | none => s)
  | .chan n =>
    if code = 2 then
      (s.onAsh a fun v => v.setChan n.toNat { v.chan n.toNat with stale := true }).raise (.ash a) evEpochStale 0
    else if code = 3 then s.raise (.ash a) evWindowFault 0
    else s.raise (.ash a) evNak 0
  | _ => s.raise (.ash a) evNak 0

/-- CRET at an ashlar (R333): the entry's credit rises, and stays at most 0xFFFF. -/
def cretAsh (a : Ash) (entry : BitVec 4) (count : Half) (s : State) : State :=
  s.onAsh a fun v =>
    let e := v.chan entry.toNat
    v.setChan entry.toNat { e with credit := sat16 e.credit count.toNat }

/-! ### Fences (R354) -/

/-- A MOR.FENCEn write: stored, and on its way to every router (R354). -/
def fenceWrite (s : State) (die n : Nat) (v : Word) : State :=
  (s.setReg (.mor die) (0x80 + 4 * n) (v &&& 0x8F1F0F0F)).setFld (.mor die) 0x70 n 1 0

/-- FENCE_WRITE (R354). -/
def execFenceWrite (die n : Nat) (v : Word) (s : State) : Host.Outcome State Fault Refusal :=
  atDieIf s die (decide (n < 16)) (.next (fenceWrite s die n v))

/-- FENCE_APPLY (R354, R355): every router has its copy, and APPLIED shows whether the fence is in force; what has passed the
border by then goes on. -/
def execFenceApply (die n : Nat) (s : State) : Host.Outcome State Fault Refusal :=
  atDieIf s die (decide (n < 16)) <|
    let w := s.reg (.mor die) (0x80 + 4 * n)
    let d := s.die die
    let t := if bit w 31 && !s.net.isEmpty then
        let x := s.free
        { x.2 with past := x.2.past ++ (passedBorder x.2 w x.1.toNat).filter fun p => !x.2.past.contains p }
      else s
    .next ((t.setDie die { d with fences := d.fences.set (ix 16 n (by decide)) w }).setFld (.mor die) 0x70 n 1
      (bits w 31 1)).openPorts

/-! ### The router register space (R360, R361) -/

/-- Word k of an outbound entry (R327). -/
def entryWord (e : OutEntry) (k : Nat) : Word :=
  match k with
  | 0 => BitVec.ofNat 32 (b2n e.valid + b2n e.conn * 2 + e.kind.toNat * 4 + e.vc.toNat * 16 + b2n e.yx * 64
      + b2n e.dyn * 128 + b2n e.stale * 256 + e.tlen.toNat * 2 ^ 9 + e.ep.toNat * 2 ^ 11 + e.dest.toNat * 2 ^ 14)
  | 1 => e.credit.zeroExtend 32
  | 2 => BitVec.ofNat 32 (e.win.toNat + e.epoch.toNat * 16 + e.size.toNat * 2 ^ 12)
  | _ => e.wr.zeroExtend 32

/-- Word k of an outbound entry written (R327). -/
def setEntryWord (e : OutEntry) (k : Nat) (w : Word) : OutEntry :=
  match k with
  | 0 => { e with
      valid := bit w 0, conn := bit w 1, kind := BitVec.ofNat 2 (bits w 2 2), vc := BitVec.ofNat 2 (bits w 4 2)
      yx := bit w 6, dyn := bit w 7, stale := bit w 8, tlen := BitVec.ofNat 2 (bits w 9 2)
      ep := BitVec.ofNat 3 (bits w 11 3), dest := BitVec.ofNat 17 (bits w 14 17) }
  | 1 => { e with credit := BitVec.ofNat 16 w.toNat }
  | 2 => { e with
      win := BitVec.ofNat 4 (bits w 0 4), epoch := BitVec.ofNat 8 (bits w 4 8), size := BitVec.ofNat 13 (bits w 12 13) }
  | _ => { e with wr := BitVec.ofNat 13 w.toNat }

/-- The router MOR.RACC_ADDR names: none where the access ends with ERR (R360, R363). -/
def raccTarget (s : State) (die : Nat) : Option (Ash × Nat) :=
  let p := Page.mor die
  let a : Ash := ⟨die, s.fld p 0x60 0 7, s.fld p 0x60 7 7⟩
  let k := s.fld p 0x60 14 8
  if 98 ≤ a.row ∨ (logicalRow s die a.row).isNone ∨ 0x42 < k then none else some (a, k)

/-- The access has ended: RACC_CMD.BUSY clears, ERR as given (R363). -/
def raccEnd (s : State) (die : Nat) (err : Bool) : State := s.setReg (.mor die) 0x68 (BitVec.ofNat 32 (b2n err * 8))

/-- A write of RACC_CMD (R360, R363): READ or WRITE starts the access, which is under way until RACC_READ or RACC_WRITE has
carried it; while it is, and where both are set, the write has no effect. The bit that started it is kept, and is not read. -/
def raccStart (s : State) (die : Nat) (v : Word) : State :=
  let p := Page.mor die
  if s.fld p 0x68 2 1 = 1 || (bit v 0 && bit v 1) then s.record p evErrAccess 0
  else if bit v 0 || bit v 1 then
    (s.setReg p 0x68 (BitVec.ofNat 32 (4 + bits v 0 2))).setDie die { s.die die with raccAt := some s.time }
  else s

/-- A router register read into RACC_DATA (R360, R361): SLIPS is read-clear. -/
def raccRead (s : State) (die : Nat) : State :=
  match raccTarget s die with
  | none => raccEnd s die true
  | some (a, k) =>
    let v := s.ash a
    let x := if k < 0x40 then entryWord (v.chan (k / 4)) (k % 4)
      else if k = 0x40 then v.sdBlock else if k = 0x41 then v.sdCycles else v.slips.zeroExtend 32
    let t := if k = 0x42 then s.setAsh a { v with slips := 0 } else s
    raccEnd (t.setReg (.mor die) 0x64 x) die false

/-- RACC_DATA written to a router register (R360): SD_BLOCK, SD_CYCLES and SLIPS are not writable. -/
def raccWrite (s : State) (die : Nat) : State :=
  match raccTarget s die with
  | none => raccEnd s die true
  | some (a, k) =>
    let t := if k < 0x40 then
        s.onAsh a fun v => v.setChan (k / 4) (setEntryWord (v.chan (k / 4)) (k % 4) (s.reg (.mor die) 0x64))
      else s
    raccEnd t die false

end Sys2Proof.Machine
end

