-- ==== Sys2Proof/Machine/AshCtl.lean ====
section
/-! DEFINITION. What a write to an ASH page commands: freeze, reset, resume and flush (R75 to R79, R383, R384), debugger
accesses (R93 to R96), the Joiner's controls (R131, R141), pegs and their watchdog (R386, R392), windows and endpoints
(R267, R268, R277, R298, R358, R359). -/

namespace Sys2Proof.Machine

/-- A command of one ashlar. -/
def onAshlar (s : State) (a : Ash) (go : State → State) : Host.Outcome State Fault Refusal :=
  atAsh s a (.next (go s))

/-! ### Freeze (R75, R139, R383, R388) -/

/-- The waiter masks as they stand, kept in the pegs while the ashlar is frozen (R388). -/
def keepMasks (v : Ashlar) : Ashlar :=
  let jw := joinerWait v
  (List.range 48).foldl (fun u p =>
    u.setPeg p { u.peg p with take := waiterMask v jw p true, watch := waiterMask v jw p false }) v

/-- The ashlar held (R75). -/
def freezeOn (s : State) (a : Ash) : State :=
  s.onAsh a fun v => if v.frozen then v else { keepMasks v with frozen := true }

/-- The fetch-and-adds queued while frozen, applied and answered in queue order (R383). -/
def drainFadds (s : State) (a : Ash) : State :=
  (s.ash a).faddQueue.foldl (fun t p =>
    match p.body with
    | .fadd peg delta _ => doFadd t a p peg delta
    | _ => t) (s.onAsh a fun v => { v with faddQueue := [] })

/-- A halt at a boundary: a Joiner that runs or stalls stops (R141). -/
def haltedJoiner (j : Joiner) : Joiner :=
  if j.state = .running ∨ j.state = .stalled then { j with state := .halted, stall := 0, step := false } else j

/-- The ashlar released: deferred sums, then queued fetch-and-adds, then a HALT and a trap that waited (R139, R141,
R383). -/
def freezeOff (s : State) (a : Ash) : State :=
  if !(s.ash a).frozen then s
  else
    let t := s.onAsh a fun v =>
      let u := addDeferred { v with frozen := false }
      { u with pegs := u.pegs.map fun q => { q with take := 0, watch := 0 } }
    let u := drainFadds t a
    let u := if (u.ash a).joiner.haltReq then
        (settlePwait u a).onJ a fun j => { haltedJoiner j with haltReq := false } else u
    takeHeld u a

/-- FREEZE_SET (R75). -/
def execFreezeSet (a : Ash) (s : State) : Host.Outcome State Fault Refusal := onAshlar s a fun t => freezeOn t a

/-- FREEZE_CLEAR (R383). -/
def execFreezeClear (a : Ash) (s : State) : Host.Outcome State Fault Refusal := onAshlar s a fun t => freezeOff t a

/-! ### Soft reset (R76, R139, R160, R217, R242, R264, R303, R384) -/

def resetPeg (q : Peg) : Peg := { Peg.reset with signalled := q.signalled, wdog := q.wdog }

def resetJoiner (j : Joiner) : Joiner :=
  { j with
    pc := j.entry, depth := 0, pending := 0, handler := false, state := .halted, stall := 0, step := false
    haltReq := false, taskEnd := false, bkptPass := false, held := [], fadds := [], results := [] }

/-- The ashlar reset (R76). The counts on their way to the PLB go on their way (R216; DESIGN CHOICE, log 208). -/
def softResetAsh (v : Ashlar) : Ashlar :=
  { unblock (dropTiles v) with
    joiner := resetJoiner v.joiner
    engines := Vector.replicate 4 ⟨[], false⟩
    transfer := none
    pegs := v.pegs.map resetPeg
    watchdogs := Vector.replicate 5 ⟨0, false⟩
    won := []
    faddQueue := []
    windows := Vector.replicate 16 Window.reset
    endpoints := Vector.replicate 8 Endpoint.reset
    progs := Vector.replicate 4 Prog.reset
    scrubNext := 0
    scrubPasses := 0
    shadowFor := none
    masks := Vector.replicate 4 0
    ctxValid := false
    plumbCount := 0
    plumbDone := []
    plumbSkipped := 0 }

/-- The order at a configuration port ended with a status (R605). -/
def portEnd (s : State) (a : Ash) (status : BitVec 4) : State :=
  match (s.ash a).port with
  | none => s
  | some o => (s.onAsh a fun v => { v with port := none }).send (answer o.order (.scaf o.tag (.loadDone status)))

/-- ASH.CTRL.SOFT_RESET: a load that runs ends with status 4 (R605), and each fetch-and-add discarded is answered with code 5 (R384). -/
def softReset (s : State) (a : Ash) : State :=
  let q := (s.ash a).faddQueue
  q.foldl (fun t p => t.nak p 5) ((portEnd s a 4).onAsh a softResetAsh)

/-- SOFT_RESET (R76). -/
def execSoftReset (a : Ash) (s : State) : Host.Outcome State Fault Refusal := onAshlar s a fun t => softReset t a

/-! ### Resume and flush (R77, R79, R139, R160, R242, R290) -/

def enginesOf (mask : BitVec 4) : List Engine :=
  [Engine.matrix, .vector, .stream, .send].filter fun e => mask.toNat / 2 ^ (engineIx e).val % 2 == 1

/-- A faulted engine goes on: its faulted instruction leaves without signals (R79). -/
def resumeEngine (v : Ashlar) (e : Engine) : Ashlar :=
  let q := v.eng e
  if !q.faulted then v
  else
    let u := if e = .matrix ∧ q.queue.any (fun i => i.faulted) then dropTiles v else v
    let w := u.setEng e { queue := q.queue.filter fun i => !i.faulted, faulted := false }
    if e = .send then unblock w else w

/-- RESUME (R79). -/
def execResume (a : Ash) (mask : BitVec 4) (s : State) : Host.Outcome State Fault Refusal :=
  onAshlar s a fun t => t.onAsh a fun v => (enginesOf mask).foldl resumeEngine v

/-- Whether REDUCTION_WRITE has not yet delivered the value that an instruction owes its register (R110, R247). -/
def owesValue (v : Ashlar) (i : EngInstr) : Bool :=
  let rd := rdstOf i.engine i.words
  rd != 0 && (!(i.faulted || i.phase = .executed || i.phase = .readsRetired)
    || v.joiner.results.any fun x => x.1 == rd)

/-- An engine's instructions discarded without signals: reductions give up their registers, tiles, masks and programs go
with them (R77, R139, R160, R242, R290). -/
def flushEngine (v : Ashlar) (e : Engine) : Ashlar :=
  let q := v.eng e
  let regs := (q.queue.filter (owesValue v)).map fun i => rdstOf e i.words
  let u := v.setEng e { q with queue := [] }
  let u := u.onJ fun j =>
    let j1 := regs.foldl (fun j r => j.clearPending r) j
    { j1 with results := j1.results.filter fun x => !regs.contains x.1 }
  let u := clearDog { u with won := u.won.erase (engineIx e).val } (engineIx e).val
  match e with
  | .matrix => { dropTiles u with shadowFor := none }
  | .vector => { u with masks := Vector.replicate 4 0 }
  | .stream => q.queue.foldl (fun w i => endProg w i false) u
  | .send => unblock u

/-- FLUSH (R77): only while frozen. -/
def execFlush (a : Ash) (mask : BitVec 4) (s : State) : Host.Outcome State Fault Refusal :=
  onAshlar s a fun t =>
    if (t.ash a).frozen then t.onAsh a fun v => (enginesOf mask).foldl flushEngine v else t

/-! ### Debugger accesses (R93 to R96) -/

/-- The memory a SPACE selects, other than scratchpad: its 32-bit halves and how many 64-bit words it has. -/
def dbgMem (j : Joiner) (space : Nat) : Mem × Nat :=
  match space with
  | 1 => (j.dmem, 512)
  | 2 => (j.bank0, 1024)
  | _ => (j.bank1, 1024)

def setDbgMem (j : Joiner) (space : Nat) (m : Mem) : Joiner :=
  match space with
  | 1 => { j with dmem := m }
  | 2 => { j with bank0 := m }
  | _ => { j with bank1 := m }

/-- Whether the address names a word of its space (R96). -/
def dbgLegal (space cls word : Nat) : Bool :=
  if space = 0 then decide (cls ≠ 3) && decide (word < 6144)
  else if space = 1 then decide (word < 512)
  else decide (word < 1024)

/-- A debugger read: data corrected where it can be, the stored check bits, and ECC_ERR (R94). -/
def dbgRead (s : State) (a : Ash) : State :=
  let p := Page.ash a
  let space := s.fld p 0xB0 30 2
  let cls := s.fld p 0xB0 14 2
  let word := s.fld p 0xB0 0 13
  let v := s.ash a
  let put := fun (lo hi chk : Nat) (bad : Bool) =>
    (((s.setReg p 0xB4 (BitVec.ofNat 32 lo)).setReg p 0xB8 (BitVec.ofNat 32 hi)).setReg p 0xBC
      (BitVec.ofNat 32 chk)).setFld p 0xC0 3 1 (b2n bad)
  if !dbgLegal space cls word then s.record p evErrAccess 0
  else if space = 0 then
    let d := spadRaw v word
    match classDecode cls d.1 d.2 with
    | .corrected x => put (x % 2 ^ 32) (x / 2 ^ 32) d.2 false
    | .clean => put (d.1 % 2 ^ 32) (d.1 / 2 ^ 32) d.2 false
    | .ue => put (d.1 % 2 ^ 32) (d.1 / 2 ^ 32) d.2 true
  else
    let m := (dbgMem v.joiner space).1
    let lo := readHalf m (2 * word)
    let hi := readHalf m (2 * word + 1)
    let raw := fun k => halfRaw m (2 * word + k)
    if lo.2 = .ue ∨ hi.2 = .ue then put (raw 0).1 (raw 1).1 ((raw 0).2 + (raw 1).2 * 256) true
    else put lo.1.toNat hi.1.toNat ((raw 0).2 + (raw 1).2 * 256) false

/-- A debugger write (R95): the active instruction bank is refused. -/
def dbgWrite (s : State) (a : Ash) : State :=
  let p := Page.ash a
  let space := s.fld p 0xB0 30 2
  let cls := s.fld p 0xB0 14 2
  let word := s.fld p 0xB0 0 13
  let v := s.ash a
  let lo := (s.reg p 0xB4).toNat
  let hi := (s.reg p 0xB8).toNat
  if !dbgLegal space cls word then s.record p evErrAccess 0
  else if space = 0 then
    let x := lo + hi * 2 ^ 32
    s.setAsh a (storeWord v word x (classCheck cls x))
  else if 2 ≤ space ∧ v.joiner.active = (space == 3) then s.raise p evImemActive 0
  else
    let m := (dbgMem v.joiner space).1
    s.onJ a fun j => setDbgMem j space (halfStore (halfStore m (2 * word) lo) (2 * word + 1) hi)

/-- DBG_READ (R94). -/
def execDbgRead (a : Ash) (s : State) : Host.Outcome State Fault Refusal := onAshlar s a fun t => dbgRead t a

/-- DBG_WRITE (R95). -/
def execDbgWrite (a : Ash) (s : State) : Host.Outcome State Fault Refusal := onAshlar s a fun t => dbgWrite t a

/-! ### The Joiner's controls (R131, R141) -/

def joinerRun (j : Joiner) : Joiner :=
  match j.state with
  | .halted => { j with state := .running }
  | .ended => { j with state := .running, pc := j.entry, taskEnd := false, bkptPass := false }
  | _ => j

/-- A halt takes effect at the next boundary: at once, but for a PWAIT that has started, which retires first, and a frozen
Joiner, which halts when it goes on. -/
def joinerHalt (s : State) (a : Ash) : State :=
  let v := s.ash a
  if v.joiner.state = .running ∨ v.joiner.state = .stalled then
    if v.frozen then s.onJ a fun j => { j with haltReq := true }
    else (settlePwait s a).onJ a haltedJoiner
  else s

/-- RUN and STEP leave the task boundary that a halted or ended Joiner stands at; its mask buffers are clear from then on
(R74, R242). -/
def leaveBoundary (f : Joiner → Joiner) (v : Ashlar) : Ashlar :=
  let u := v.onJ f
  if atBoundary v && !atBoundary u then { u with masks := Vector.replicate 4 0 } else u

def joinerStep (j : Joiner) : Joiner := if j.state = .halted then { j with state := .running, step := true } else j

/-- JCTRL_RUN (R141). -/
def execJctrlRun (a : Ash) (s : State) : Host.Outcome State Fault Refusal := onAshlar s a fun t => t.onAsh a (leaveBoundary joinerRun)

/-- JCTRL_HALT (R141). -/
def execJctrlHalt (a : Ash) (s : State) : Host.Outcome State Fault Refusal := onAshlar s a fun t => joinerHalt t a

/-- JCTRL_STEP (R141). -/
def execJctrlStep (a : Ash) (s : State) : Host.Outcome State Fault Refusal := onAshlar s a fun t => t.onAsh a (leaveBoundary joinerStep)

/-- ARM: swapped now where the Joiner does not run, otherwise at the next task boundary (R131). The swap made at once takes
back one that was armed (DESIGN CHOICE, log 201). -/
def bankArm (v : Ashlar) : Ashlar :=
  let j := v.joiner
  if j.state = .running ∨ j.state = .stalled then { v with joiner := { j with armed := true } }
  else { v with joiner := { j with active := !j.active, armed := false, pc := j.entry, bkptPass := false } }

/-- JBANK_ARM (R131). -/
def execJbankArm (a : Ash) (s : State) : Host.Outcome State Fault Refusal := onAshlar s a fun t => t.onAsh a bankArm

/-- JBANK_DISARM (R131). -/
def execJbankDisarm (a : Ash) (s : State) : Host.Outcome State Fault Refusal :=
  onAshlar s a fun t => t.onJ a fun j => { j with armed := false }

/-- JREG_DATA_WRITE (R144). -/
def execJregDataWrite (a : Ash) (v : Word) (s : State) : Host.Outcome State Fault Refusal :=
  onAshlar s a fun t => jregWrite t a v

/-! ### Context registers (R89, R145, R160, R303) -/

/-- A write to ASH.CONTEXT: no effect outside a freeze or boundary; any change drops the tiles (R89, R160). -/
def contextWrite (s : State) (a : Ash) (w : Word) : State :=
  let v := s.ash a
  if !contextWritable v then s
  else
    let u := { v with job := BitVec.ofNat 16 (bits w 0 16), clsT := bit w 16, ctxValid := bit w 17 }
    s.setAsh a (if u.job = v.job ∧ u.clsT = v.clsT ∧ u.ctxValid = v.ctxValid then u else dropTiles u)

/-- A write to ASH.JBAYORG (R145). -/
def bayorgWrite (s : State) (a : Ash) (w : Word) : State :=
  s.onAsh a fun v =>
    if contextWritable v then
      v.onJ fun j => { j with bayX := BitVec.ofNat 9 (bits w 0 9), bayY := BitVec.ofNat 8 (bits w 16 8) }
    else v

/-! ### Pegs (R386, R392, R394, R395) -/

/-- PEG_SIG_WRITE (R395). -/
def execPegSigWrite (a : Ash) (v : Word) (s : State) : Host.Outcome State Fault Refusal :=
  onAshlar s a fun t => writePegSig t a v

/-- A write to ASH.PEGn_VALUE (R392). -/
def pegValueWrite (s : State) (a : Ash) (p : Nat) (w : Word) : State :=
  let v := s.ash a
  if !contextWritable v then s.record (.ash a) evErrAccess 0
  else
    s.setAsh a (writePeg v p (BitVec.ofNat 16 (bits w 0 16)) (ashDest s a))

/-- PEG_VALUE_WRITE (R392). -/
def execPegValueWrite (a : Ash) (peg : Nat) (v : Word) (s : State) : Host.Outcome State Fault Refusal :=
  if peg < 48 then onAshlar s a fun t => pegValueWrite t a peg v else .fault .noSuchBlock

/-- The waits that hold a waiter (R386): those of a head whose engine could take it up, which is state code 2 of R87, or
those of a PWAIT. -/
def heldWaits (v : Ashlar) (n : Nat) : List Wait :=
  if v.won.contains n then []
  else if n < 4 then
    match frontOf v (engineOf n) with
    | some i => unsatisfied v (waitsOf i.words)
    | none => []
  else unsatisfied v (joinerWait v)

/-- The first unsatisfied, non-exempt wait of a waiter (R386, R394). -/
def dogWait (s : State) (a : Ash) (n : Nat) : Option Wait :=
  (heldWaits (s.ash a) n).find? fun w => !pegExempt s a w.peg

/-- A waiter's count passes LIMIT (R386). -/
def pegWatchdog (s : State) (a : Ash) (n : Nat) : State :=
  let p := Page.ash a
  let v := s.ash a
  let k := ix 5 n (by decide)
  if s.fld p 0x700 31 1 = 0 ∨ v.frozen ∨ v.watchdogs[k].raised then s
  else
    match dogWait s a n with
    | none => s
    | some w =>
      let lim := max 1 (s.fld p 0x700 0 24)
      let seq := if n < 4 then (match frontOf v (engineOf n) with
        | some i => i.seq.toNat
        | none => 0) else 0
      let u := { v with watchdogs := v.watchdogs.set k ⟨BitVec.ofNat 32 (lim + 1), true⟩ }
      let t := s.setAsh a (u.setPeg w.peg { u.peg w.peg with wdog := true })
      let t := if t.fld p 0x704 31 1 = 1 then t
        else (t.setReg p 0x704 (BitVec.ofNat 32 (w.peg + n * 2 ^ 6 + b2n w.take * 2 ^ 9 + b2n w.waitB * 2 ^ 10
          + seq * 2 ^ 11 + 2 ^ 31))).setReg p 0x708 (BitVec.ofNat 32 (w.th + (v.peg w.peg).value.toNat * 2 ^ 16))
      (t.count16 p 0x718 16 1).raise p evPegWatchdog 0

/-- PEG_WATCHDOG (R386). -/
def execPegWatchdog (a : Ash) (waiter : Nat) (s : State) : Host.Outcome State Fault Refusal :=
  if waiter < 5 then onAshlar s a fun t => pegWatchdog t a waiter else .fault .noSuchBlock

/-! ### Windows (R267, R268, R277, R297 to R299, R359) -/

/-- Whether another valid window fails `ok` against window n. -/
def otherWindow (v : Ashlar) (n : Nat) (bad : Window → Bool) : Bool :=
  (List.range 16).any fun k => k != n && (v.win k).valid && bad (v.win k)

/-- Whether a valid window breaks R267, with the rules of R359 for a message ring. -/
def windowBroken (v : Ashlar) (n : Nat) (w : Window) : Bool :=
  let ring := w.kind == 1 || w.kind == 2
  w.size == 0 || decide (6144 < w.base.toNat + w.size.toNat) || w.cls == 3
    || (w.kind == 3 && (!w.remote || decide (w.size.toNat < 2)
        || otherWindow v n fun o => o.kind == 3 && bits o.ring 0 3 == bits w.ring 0 3))
    || (ring && (decide (w.nslots < 3) || w.slotWords == 0 || w.size.toNat != w.nslots * w.slotWords || w.remote))
    || otherWindow v n fun o => o.cls != w.cls &&
        (PRange.mk o.base.toNat o.size.toNat).meets ⟨w.base.toNat, w.size.toNat⟩

/-- The bits of WINn_RING that a KIND gives a meaning (R298, R359); a plain window's are those of both layouts. -/
def ringMask (kind : BitVec 2) : Word := if kind = 3 then 0x1FFF0007 else if kind = 0 then 0x1FFFFFFF else 0x3FFFF

/-- Ring pointers at 0 (R268). -/
def ringStart (w : Window) : Window := { w with tail := 0, occ := 0, rsv := 0 }

/-- A write to ASH.WINn_CFG (R267, R268, R298). -/
def winCfgWrite (s : State) (a : Ash) (n : Nat) (x : Word) : State :=
  let v := s.ash a
  let o := v.win n
  let w := { o with
    base := BitVec.ofNat 13 (bits x 0 13), size := BitVec.ofNat 13 (bits x 13 13), cls := BitVec.ofNat 2 (bits x 26 2)
    kind := BitVec.ofNat 2 (bits x 28 2), remote := bit x 30, valid := bit x 31 }
  if !contextWritable v then s.record (.ash a) evErrAccess 0
  else if w.valid && windowBroken v n w then s.record (.ash a) evErrRange 0
  else
    let w := if w.kind = 1 ∨ w.kind = 2 then ringStart w else w
    let w := if w.valid then
        (if w.kind = 0 then { w with ring := 0, used := 0 } else { w with ring := w.ring &&& ringMask w.kind }) else w
    let w := if !w.valid || w.cls != o.cls || w.kind != o.kind || w.remote != o.remote || w.size != o.size then closeWin w
      else w
    s.setAsh a (v.setWin n w)

/-- WIN_CFG_WRITE (R267). -/
def execWinCfgWrite (a : Ash) (win : Nat) (v : Word) (s : State) : Host.Outcome State Fault Refusal :=
  if win < 16 then onAshlar s a fun t => winCfgWrite t a win v else .fault .noSuchBlock

/-- A write to ASH.WINn_RING (R267, R268, R298, R359). -/
def winRingWrite (s : State) (a : Ash) (n : Nat) (x : Word) : State :=
  let v := s.ash a
  let o := v.win n
  let w := { o with ring := x &&& ringMask 0, rd := 0, wr := 0, recs := 0, vcs := [], used := BitVec.ofNat 13 (bits x 16 13) }
  if !contextWritable v then s.record (.ash a) evErrAccess 0
  else if !o.valid then s.setAsh a (v.setWin n w)
  else if o.kind = 0 then (if x = 0 then s else s.record (.ash a) evErrRange 0)
  else if windowBroken v n w then s.record (.ash a) evErrRange 0
  else if o.kind = 3 then s.setAsh a (v.setWin n { w with ring := x &&& 0x1FFF0007 })
  else s.setAsh a (v.setWin n (ringStart { w with ring := x &&& 0x3FFFF }))

/-- WIN_RING_WRITE (R298). -/
def execWinRingWrite (a : Ash) (win : Nat) (v : Word) (s : State) : Host.Outcome State Fault Refusal :=
  if win < 16 then onAshlar s a fun t => winRingWrite t a win v else .fault .noSuchBlock

/-- DO_OPEN (R277, R299). -/
def execDoOpen (a : Ash) (win : Nat) (s : State) : Host.Outcome State Fault Refusal :=
  if win < 16 then onAshlar s a fun t => t.onAsh a fun v => v.setWin win (openWin (v.win win)) else .fault .noSuchBlock

/-- DO_CLOSE (R277, R299). -/
def execDoClose (a : Ash) (win : Nat) (s : State) : Host.Outcome State Fault Refusal :=
  if win < 16 then onAshlar s a fun t => t.onAsh a fun v => v.setWin win (closeWin (v.win win)) else .fault .noSuchBlock

/-! ### Endpoints (R358) -/

/-- A write to EPn_CFG (R268, R358). -/
def epCfgWrite (s : State) (a : Ash) (n : Nat) (x : Word) : State :=
  let v := s.ash a
  let w := v.win (bits x 5 4)
  if !contextWritable v then s.record (.ash a) evErrAccess 0
  else if (bit x 1 && !(w.isMsgRing && bits w.ring 0 3 == n)) || (bit x 15 && decide (48 ≤ bits x 9 6)) then
    s.record (.ash a) evErrRange 0
  else
    s.setAsh a (v.setEp n { v.ep n with
      valid := bit x 0, ring := bit x 1, dyn := bit x 2, tlen := BitVec.ofNat 2 (bits x 3 2)
      rwin := BitVec.ofNat 4 (bits x 5 4), apeg := BitVec.ofNat 6 (bits x 9 6), apegEn := bit x 15 })

/-- EP_CFG_WRITE (R358). -/
def execEpCfgWrite (a : Ash) (ep : Nat) (v : Word) (s : State) : Host.Outcome State Fault Refusal :=
  if ep < 8 then onAshlar s a fun t => epCfgWrite t a ep v else .fault .noSuchBlock

/-- A write to EPn_PEER (R268, R358). -/
def epPeerWrite (s : State) (a : Ash) (n : Nat) (x : Word) : State :=
  let v := s.ash a
  if !contextWritable v then s.record (.ash a) evErrAccess 0
  else s.setAsh a (v.setEp n { v.ep n with
    peer := BitVec.ofNat 17 (bits x 0 17), pchan := BitVec.ofNat 4 (bits x 17 4), peerValid := bit x 21, closing := false })

end Sys2Proof.Machine
end

