-- ==== Sys2Proof/Machine/Context.lean ====
section
/-! DEFINITION. The context record of an ashlar (R486, R487, R641): what a save writes into T1 and what a restore writes
back. A record is 8,192 words; it is given here as the words that are written, by word index. -/

namespace Sys2Proof.Machine

/-- The words of a record that are written, by word index, ascending. -/
abbrev Record := List (Nat × Nat)

/-- The protection class of a physical scratchpad word: that of the first valid window that covers it (R267). -/
def coverClass (v : Ashlar) (w : Nat) : Option Nat :=
  let covers := fun (x : Window) => x.valid && decide (x.base.toNat ≤ w) && decide (w < x.base.toNat + x.size.toNat)
  ((List.range 16).find? fun k => covers (v.win k)).map fun k => (v.win k).cls.toNat

/-- The data of a stored word as a save sees it: corrected where it can be. -/
def eccData (e : Ecc) (stored : Nat) : Nat :=
  match e with
  | .corrected x => x
  | _ => stored

/-- Scratchpad words of valid windows (R486, offset 0x0000). -/
def savedSpad (v : Ashlar) : Record :=
  (List.range 6144).filterMap fun w =>
    (coverClass v w).map fun cls =>
      let d := spadRaw v w
      (w, eccData (classDecode cls d.1 d.2) d.1)

/-- n words of a checked Joiner memory, from word `at'` of the record. -/
def savedMem (m : Mem) (at' n : Nat) : Record :=
  (List.range n).map fun i =>
    let h := fun k => eccData (halfDecode m k) (halfRaw m k).1
    (at' + i, h (2 * i) + h (2 * i + 1) * 2 ^ 32)

/-- 32-bit values as record words from word `at'` on. -/
def pairUp : Nat → List Word → Record
  | at', a :: b :: r => (at', a.toNat + b.toNat * 2 ^ 32) :: pairUp (at' + 1) r
  | at', [a] => [(at', a.toNat)]
  | _, [] => []

/-- ASH.CONTEXT, registers, PC, CSRs 0x10 to 0x27 and 0x30 to 0x33, handler flag, active bank (offset 0xF000). -/
def savedJoiner (s : State) (a : Ash) : List Word :=
  let v := s.ash a
  let j := v.joiner
  let csr := fun (from' n : Nat) => (List.range n).map fun k => (csrRead s a (from' + k)).getD 0
  [BitVec.ofNat 32 (v.job.toNat + b2n v.clsT * 2 ^ 16 + b2n v.ctxValid * 2 ^ 17)] ++ j.regs.toList.drop 1
    ++ [j.pc.zeroExtend 32] ++ csr 0x10 24 ++ csr 0x30 4 ++ [b2w j.handler, b2w j.active, 0]

/-- One window: CFG, RING, REMOTE epoch and OPEN, ring status (offset 0xF100). -/
def savedWindow (w : Window) : List Word :=
  [ BitVec.ofNat 32 (w.base.toNat + w.size.toNat * 2 ^ 13 + w.cls.toNat * 2 ^ 26 + w.kind.toNat * 2 ^ 28
      + b2n w.remote * 2 ^ 30 + b2n w.valid * 2 ^ 31)
  , if w.kind = 3 then setBits w.ring 16 13 w.used.toNat else w.ring
  , BitVec.ofNat 32 (w.epoch.toNat + b2n w.isOpen * 2 ^ 8)
  , if w.kind = 3 then BitVec.ofNat 32 (w.rd.toNat + w.wr.toNat * 2 ^ 13 + w.recs.toNat * 2 ^ 26)
    else BitVec.ofNat 32 (w.tail.toNat * 2 ^ 4 + w.occ.toNat * 2 ^ 8 + w.rsv.toNat * 2 ^ 13 + b2n w.held * 2 ^ 18) ]

/-- The four words of a flit. -/
def flitHalves (f : BitVec 128) : List Word := (List.range 4).map fun k => BitVec.ofNat 32 (f.toNat / 2 ^ (32 * k))

/-- One endpoint in 96 bytes: CFG, PEER, its count and bits, and up to four flits (offset 0xF200). -/
def savedEndpoint (e : Endpoint) : List Word :=
  [ BitVec.ofNat 32 (b2n e.valid + b2n e.ring * 2 + b2n e.dyn * 4 + e.tlen.toNat * 8 + e.rwin.toNat * 2 ^ 5
      + e.apeg.toNat * 2 ^ 9 + b2n e.apegEn * 2 ^ 15)
  , BitVec.ofNat 32 (e.peer.toNat + e.pchan.toNat * 2 ^ 17 + b2n e.peerValid * 2 ^ 21)
  , BitVec.ofNat 32 (min 4 e.flits.length + b2n e.overrun * 32 + b2n e.poison * 64 + b2n e.closing * 2 ^ 7
      + e.arrivals.toNat * 2 ^ 16)
  , 0 ] ++ (List.range 4).flatMap (fun k => flitHalves (e.flits.getD k 0)) ++ [0, 0, 0, 0]

/-- The 48 peg values, two a word (offset 0xF500), and in the same order the DEFERRED sums of a dump. -/
def pegHalves (v : Ashlar) (f : Peg → Half) : List Word :=
  (List.range 24).map fun k => BitVec.ofNat 32 ((f (v.peg (2 * k))).toNat + (f (v.peg (2 * k + 1))).toNat * 2 ^ 16)

/-- The record as a save writes it (R486). ASH.PEG_WDOG, for which the 16 bytes at 0xF700 have no room beside the other two
registers, is the last word. -/
def saveRecord (s : State) (a : Ash) : Record :=
  let v := s.ash a
  let p := Page.ash a
  let bank := if v.joiner.active then v.joiner.bank1 else v.joiner.bank0
  savedSpad v ++ savedMem v.joiner.dmem 6144 512 ++ savedMem bank 6656 1024
    ++ pairUp 7680 (savedJoiner s a)
    ++ pairUp 7712 ((List.range 16).flatMap fun k => savedWindow (v.win k))
    ++ pairUp 7744 ((List.range 8).flatMap fun k => savedEndpoint (v.ep k))
    ++ pairUp 7840 (pegHalves v fun q => q.value)
    ++ pairUp 7872 ((List.range 16).flatMap fun k => (List.range 4).map fun i => entryWord (v.chan k) i)
    ++ [(7904, v.srSeed.toNat), (7905, (s.reg p 0x70C).toNat + bits (s.reg p 0x710) 0 16 * 2 ^ 32),
        (8191, (s.reg p 0x700).toNat)]

/-- What a dump adds to the record in its reserved bytes: the DEFERRED sums and PEG_FQ, from 0xF710 on (R641). -/
def dumpExtra (v : Ashlar) : Record :=
  pairUp 7906 (pegHalves v (fun q => q.deferred) ++ [BitVec.ofNat 32 v.faddQueue.length])

/-! ### Restoring (R487) -/

/-- 32-bit half h of a record given as a function of the word index. -/
def recHalf (rec : Nat → Nat) (h : Nat) : Word := BitVec.ofNat 32 (rec (h / 2) / 2 ^ (32 * (h % 2)))

def restoredWindow (o : Window) (cfg ring rem st : Word) : Window :=
  let w := { o with
    base := BitVec.ofNat 13 (bits cfg 0 13), size := BitVec.ofNat 13 (bits cfg 13 13), cls := BitVec.ofNat 2 (bits cfg 26 2)
    kind := BitVec.ofNat 2 (bits cfg 28 2), remote := bit cfg 30, valid := bit cfg 31, ring := ring
    epoch := BitVec.ofNat 8 (bits rem 0 8), isOpen := bit rem 8 }
  if w.kind = 3 then
    { w with
      used := BitVec.ofNat 13 (bits ring 16 13), rd := BitVec.ofNat 13 (bits st 0 13), wr := BitVec.ofNat 13 (bits st 13 13)
      recs := BitVec.ofNat 5 (bits st 26 5), vcs := [], tail := 0, occ := 0, rsv := 0, held := false }
  else
    { w with
      used := 0, rd := 0, wr := 0, recs := 0, vcs := [], tail := BitVec.ofNat 4 (bits st 4 4), occ := BitVec.ofNat 5 (bits st 8 5)
      rsv := BitVec.ofNat 5 (bits st 13 5), held := bit st 18 }

def halvesFlit (h : Nat → Word) (at' : Nat) : BitVec 128 :=
  BitVec.ofNat 128 ((List.range 4).foldl (fun acc k => acc + (h (at' + k)).toNat * 2 ^ (32 * k)) 0)

def restoredEndpoint (o : Endpoint) (h : Nat → Word) : Endpoint :=
  let cfg := h 0
  let peer := h 1
  let st := h 2
  { o with
    valid := bit cfg 0, ring := bit cfg 1, dyn := bit cfg 2, tlen := BitVec.ofNat 2 (bits cfg 3 2)
    rwin := BitVec.ofNat 4 (bits cfg 5 4), apeg := BitVec.ofNat 6 (bits cfg 9 6), apegEn := bit cfg 15
    peer := BitVec.ofNat 17 (bits peer 0 17), pchan := BitVec.ofNat 4 (bits peer 17 4), peerValid := bit peer 21
    overrun := bit st 5, poison := bit st 6, closing := bit st 7, arrivals := BitVec.ofNat 16 (bits st 16 16)
    flits := (List.range (min 4 (bits st 0 3))).map fun k => halvesFlit h (4 + 4 * k), vcs := [] }

/-- ASH.CONTEXT, the Joiner's registers and CSRs, and the active bank's contents. -/
def restoredJoiner (j : Joiner) (rec : Nat → Nat) : Joiner :=
  let h := fun k => recHalf rec (15360 + k)
  let regs := (List.range 31).foldl (fun (r : Vector Word 32) k => r.set (ix 32 (k + 1) (by decide)) (h (k + 1))) j.regs
  let mem := fun (at' n : Nat) (m : Mem) =>
    (List.range (2 * n)).foldl (fun m i => halfStore m i (recHalf rec (2 * at' + i)).toNat) m
  let bank := bit (h 62) 0
  let j1 := { j with
    regs := regs, pc := BitVec.ofNat 11 (h 32).toNat, handler := bit (h 61) 0, active := bank
    dmem := mem 6144 512 j.dmem, bkptPass := false }
  let j2 := if bank then { j1 with bank1 := mem 6656 1024 j.bank1 } else { j1 with bank0 := mem 6656 1024 j.bank0 }
  let j3 := (List.range 24).foldl (fun j k => csrRestore j (0x10 + k) (h (33 + k))) j2
  (List.range 4).foldl (fun j k => csrRestore j (0x30 + k) (h (57 + k))) j3

/-- ASH.CONTEXT, windows, endpoints, pegs and outbound entries of a record. -/
def restoredBlocks (v : Ashlar) (src : Dest) (rec : Nat → Nat) : Ashlar :=
  let h := fun k => recHalf rec k
  let ctx := h 15360
  let v1 := { v with job := BitVec.ofNat 16 (bits ctx 0 16), clsT := bit ctx 16, ctxValid := bit ctx 17 }
  let v2 := (List.range 16).foldl (fun u k =>
    let b := 15424 + 4 * k
    u.setWin k (restoredWindow (u.win k) (h b) (h (b + 1)) (h (b + 2)) (h (b + 3)))) v1
  let v3 := (List.range 8).foldl (fun u k => u.setEp k (restoredEndpoint (u.ep k) fun i => h (15488 + 24 * k + i))) v2
  let v4 := (List.range 48).foldl (fun u k =>
    writePeg u k (BitVec.ofNat 16 (bits (h (15680 + k / 2)) (16 * (k % 2)) 16)) src) v3
  (List.range 16).foldl (fun u k =>
    let e := (List.range 4).foldl (fun e i => setEntryWord e i (h (15744 + 4 * k + i))) (u.chan k)
    u.setChan k { e with conn := true }) v4

/-- One scratchpad word of a restore: written with its window's check bits, or left at an open value outside every valid
window. -/
def restoreWord (a : Ash) (rec : Nat → Nat) (s : State) (w : Nat) : State :=
  let v := s.ash a
  match coverClass v w with
  | some cls => s.setAsh a (storeWord v w (rec w) (classCheck cls (rec w % 2 ^ 64)))
  | none =>
    let d := s.free
    let c := d.2.free
    c.2.setAsh a (storeWord v w d.1.toNat (c.1.toNat % 256))

/-- A record written back (R487): stationary tiles and mask buffers are not in it, and the active bank is. -/
def restoreRecord (s : State) (a : Ash) (rec : Nat → Nat) : State :=
  let p := Page.ash a
  let u := dropTiles (restoredBlocks (s.ash a) (ashDest s a) rec)
  let t := s.setAsh a { u with
    joiner := restoredJoiner u.joiner rec, masks := Vector.replicate 4 0, srSeed := BitVec.ofNat 64 (rec 7904) }
  let t := ((t.setReg p 0x70C (BitVec.ofNat 32 (rec 7905))).setReg p 0x710
    (BitVec.ofNat 32 (rec 7905 / 2 ^ 32 % 2 ^ 16))).setReg p 0x700 (BitVec.ofNat 32 (rec 8191))
  (List.range 6144).foldl (restoreWord a rec) t

end Sys2Proof.Machine
end

