-- ==== Sys2Proof/Machine/Ingress.lean ====
section
/-! DEFINITION. The Ethernet port's receive side (R502 to R506) and ingress (R507 to R523, R542, R543): frames, the parse
program, lookup, event queues, routes, capture and punt. -/

namespace Sys2Proof.Machine

/-! ### Bytes -/

/-- The CRC-32 of IEEE 802.3 over bytes, one byte at a time, bits reflected. -/
def crcStep (c : BitVec 32) : Nat → BitVec 32
  | 0 => c
  | n + 1 => crcStep (if c.getLsbD 0 then (c >>> 1) ^^^ 0xEDB88320 else c >>> 1) n

def crcByte (c : BitVec 32) (b : Byte) : BitVec 32 := crcStep (c ^^^ b.zeroExtend 32) 8

def crc32 (bs : List Byte) : BitVec 32 := (bs.foldl crcByte 0xFFFFFFFF) ^^^ 0xFFFFFFFF

/-- Bytes as a little-endian number. -/
def leBytes (bs : List Byte) : Nat :=
  match bs with
  | [] => 0
  | b :: r => b.toNat + 256 * leBytes r

/-- Bytes as a big-endian number. -/
def beBytes (bs : List Byte) : Nat := bs.foldl (fun acc b => acc * 256 + b.toNat) 0

/-- n bytes of a number, little-endian. -/
def toLe (v : Nat) : Nat → List Byte
  | 0 => []
  | n + 1 => BitVec.ofNat 8 v :: toLe (v / 256) n

def toBe (v n : Nat) : List Byte := (toLe v n).reverse

/-- Bytes o to o + n − 1. -/
def slice (bs : List Byte) (o n : Nat) : List Byte := (bs.drop o).take n

/-- Bytes o onward replaced. -/
def splice (bs : List Byte) (o : Nat) (new : List Byte) : List Byte := bs.take o ++ new ++ bs.drop (o + new.length)

/-- Bytes packed into 64-bit words, the last padded with 0. -/
def bytesWords (bs : List Byte) : List DWord :=
  (List.range ((bs.length + 7) / 8)).map fun k => BitVec.ofNat 64 (leBytes (slice bs (8 * k) 8))

/-! ### Counters and pages -/

/-- A counter as R91 lays it out, k added: 48 bits, OVF sticky in bit 63 (R20). -/
def add48 (v k : Nat) : Nat :=
  let c := v % 2 ^ 48 + k
  c % 2 ^ 48 + (if v / 2 ^ 63 % 2 = 1 ∨ 2 ^ 48 ≤ c then 2 ^ 63 else 0)

def State.onIng (s : State) (d : Nat) (f : Ing → Ing) : State := s.setDie d { s.die d with ing := f (s.die d).ing }

def State.onEth (s : State) (d : Nat) (f : Eth → Eth) : State := s.setDie d { s.die d with eth := f (s.die d).eth }

/-- One of ingress's counters (R543). -/
def State.ingCount (s : State) (d k : Nat) : State :=
  s.onIng d fun g => { g with counts := tset g.counts k (add48 (tget g.counts k 0) 1) }

/-- One of a logical port's counters (R542). -/
def State.ethCount (s : State) (d lport k n : Nat) : State :=
  s.onEth d fun e => { e with counts := tset e.counts (lport, k) (add48 (tget e.counts (lport, k) 0) n) }

/-- CTRL.ENABLE of a page that has it (R674). -/
def enabled (s : State) (p : Page) : Bool := s.fld p 0x008 0 1 == 1

/-- Logical ports of an Ethernet port (R503). -/
def ethPorts (s : State) (d : Nat) : Nat :=
  match s.fld (.eth d) 0x40 0 2 with
  | 0 => 0
  | 1 => 1
  | 2 => 2
  | _ => 4

/-- Whether a logical port is in use: the port enabled and the layout having it (R503, R674). -/
def lportOn (s : State) (d lport : Nat) : Bool := enabled s (.eth d) && decide (lport < ethPorts s d)

/-- Whether a logical port's PCS is locked (R506). -/
def lportUp (s : State) (d lport : Nat) : Bool := lportOn s d lport && bits (s.reg (.eth d) 0x44) lport 1 == 1

def lpIx (n : Nat) : Fin 4 := ⟨n % 4, Nat.mod_lt n (by decide)⟩

def rtIx (n : Nat) : Fin 16 := ⟨n % 16, Nat.mod_lt n (by decide)⟩

def grpIx (n : Nat) : Fin 8 := ⟨n % 8, Nat.mod_lt n (by decide)⟩

def Ing.group (g : Ing) (n : Nat) : IngGroup := g.groups[grpIx n]

def Ing.setGroup (g : Ing) (n : Nat) (x : IngGroup) : Ing := { g with groups := g.groups.set (grpIx n) x }

def Ing.route (g : Ing) (n : Nat) : IngRoute := g.routes[rtIx n]

def Ing.setRoute (g : Ing) (n : Nat) (x : IngRoute) : Ing := { g with routes := g.routes.set (rtIx n) x }

/-! ### The parse program (R508 to R511) -/

/-- A frame's state in its program. -/
structure Parse where
  cursor : Nat
  fields : Table Nat Word
  key : List Byte
  flag : Bool
  deriving DecidableEq, Repr

/-- How a program ends. -/
inductive Parsed where
  | ok (p : Parse)
  | punt
  /-- dropped under a counter of R543, with the CODE of a DROP -/
  | drop (cause code : Nat)
  deriving DecidableEq, Repr

/-- Bits of [27:0] that an OP uses; none for an undefined OP (R509). -/
def stepBits (op : Nat) : Option Nat :=
  match op with
  | 0x0 => some 0
  | 0x1 => some 0x000FFFF
  | 0x2 => some 0x0F1FFF0F
  | 0x3 => some 0x0FFFFFFF
  | 0x4 => some 0x00C001FF
  | 0x5 => some 0x03FFFFFF
  | 0x6 => some 0x0F00FFFF
  | 0x7 => some 0x3F
  | 0x8 => some 0x3F
  | 0x9 => some 0x0F00FFFF
  | 0xA => some 0xFF
  | 0xB => some 0
  | _ => none

/-- A step whose OP is undefined, whose reserved bits are not 0, or whose W CMPB does not take. -/
def stepBad (w : Word) : Bool :=
  match stepBits (bits w 28 4) with
  | none => true
  | some m => (bits w 0 28 &&& m) != bits w 0 28 || (bits w 28 4 == 5 && decide (1 < bits w 24 2))

/-- Bytes a step reads and their offset from the cursor. -/
def stepReads (w : Word) : Nat × Nat :=
  match bits w 28 4 with
  | 0x3 => (bits w 22 2 + 1, bits w 0 8)
  | 0x4 => (bits w 22 2 + 1, bits w 0 8)
  | 0x5 => (bits w 24 2 + 1, bits w 16 8)
  | _ => (0, 0)

/-- What EXT takes from the bytes it reads. -/
def extValue (w : Word) (bs : List Byte) : Word :=
  let v := (if bit w 21 then leBytes bs else beBytes bs) / 2 ^ bits w 16 5
  let nb := if bits w 10 6 = 0 then 32 else bits w 10 6
  let x := v % 2 ^ nb
  if bit w 9 && decide (nb < 32) && x / 2 ^ (nb - 1) % 2 == 1 then BitVec.ofNat 32 (x + 2 ^ 32 - 2 ^ nb)
  else BitVec.ofNat 32 x

/-- The cursor after a step that read bytes: ADV moves it past them. -/
def stepAdv (w : Word) (p : Parse) : Parse :=
  let r := stepReads w
  if bit w 8 then { p with cursor := p.cursor + r.2 + r.1 } else p

/-- The program from its step `at` on; n steps may still execute (R508 to R510). -/
def parseFrom (prog : Nat → Word) (bs : List Byte) : Nat → Nat → Parse → Parsed
  | 0, _, _ => .drop 4 0
  | n + 1, k, p =>
    let w := prog k
    let op := bits w 28 4
    let r := stepReads w
    let f := bits w 24 4
    let data := slice bs (p.cursor + r.2) r.1
    if stepBad w then .drop 2 0
    else if op = 4 ∧ 16 < p.key.length + r.1 then .drop 2 0
    else if r.1 ≠ 0 ∧ bs.length < p.cursor + r.2 + r.1 then .drop 3 0
    else if (op = 7 ∨ op = 8) ∧ bits w 0 6 ≤ k then .drop 2 0
    else
      match op with
      | 0x0 => .ok p
      | 0x1 => parseFrom prog bs n (k + 1) { p with cursor := p.cursor + bits w 0 16 }
      | 0x2 =>
        let v := (tget p.fields f 0).toNat / 2 ^ bits w 16 5
        parseFrom prog bs n (k + 1) { p with cursor := p.cursor + (v &&& bits w 8 8) * 2 ^ bits w 0 4 }
      | 0x3 => parseFrom prog bs n (k + 1) (stepAdv w { p with fields := tset p.fields f (extValue w data) })
      | 0x4 => parseFrom prog bs n (k + 1) (stepAdv w { p with key := p.key ++ data })
      | 0x5 => parseFrom prog bs n (k + 1) { p with flag := beBytes data == bits w 0 16 }
      | 0x6 => parseFrom prog bs n (k + 1) { p with flag := (tget p.fields f 0).toNat == bits w 0 16 }
      | 0x7 => parseFrom prog bs n (if p.flag then bits w 0 6 else k + 1) p
      | 0x8 => parseFrom prog bs n (if p.flag then k + 1 else bits w 0 6) p
      | 0x9 => parseFrom prog bs n (k + 1) { p with fields := tset p.fields f (BitVec.ofNat 32 (bits w 0 16)) }
      | 0xA => .drop 5 (bits w 0 8)
      | _ => .punt

/-- A logical port's program run over a frame without its FCS. -/
def parseFrame (s : State) (d lport : Nat) (bs : List Byte) : Parsed :=
  let start := s.fld (.ing d) 0x4C (8 * (lport % 4)) 8
  parseFrom (fun k => tget (s.die d).ing.prog ((start + k) % 256) 0) bs 64 0 ⟨0, [], [], false⟩

/-! ### Range checks and lookup (R512 to R515) -/

/-- Whether a field lies within its bounds. -/
def inBounds (lo hi v : Word) (signed : Bool) : Bool :=
  if signed then decide (lo.toInt ≤ v.toInt) && decide (v.toInt ≤ hi.toInt)
  else decide (lo.toNat ≤ v.toNat) && decide (v.toNat ≤ hi.toNat)

/-- The failing field of lowest index, of those checked and written (R512). -/
def rangeFail (s : State) (d : Nat) (p : Parse) : Option Nat :=
  let g := (s.die d).ing
  (List.range 16).find? fun i =>
    bit (s.reg (.ing d) 0x50) i && p.fields.any (fun e => e.1 == i)
      && !inBounds (tget g.fmin i 0) (tget g.fmax i 0xFFFFFFFF) (tget p.fields i 0) (bit (s.reg (.ing d) 0x50) (16 + i))

/-- The 16 key bytes as a number: the first KEYLEN of them, the rest 0 (R513). -/
def lookupKey (s : State) (d : Nat) (key : List Byte) : BitVec 128 :=
  let n := s.fld (.ing d) 0x40 0 5
  BitVec.ofNat 128 (leBytes (key.take (if n = 0 ∨ 16 < n then 16 else n)))

/-- The bucket of a key (R513). -/
def bucketOf (key : BitVec 128) : Nat := (crc32 (toLe key.toNat 16)).toNat % 2 ^ 14

def Ing.find (g : Ing) (key : BitVec 128) : Option LkEntry := g.table.find? fun e => e.key == key

/-! ### Capture (R521, R522) -/

/-- A capture record's words (R521). -/
def captureWords (miss : Bool) (slot : Half) (group : BitVec 3) (lport : Nat) (seq : Word) (stamp : DWord) (len : Nat)
    (key : BitVec 128) (fields : Table Nat Word) : List DWord :=
  let w := fun (i : Nat) => (tget fields i 0).toNat
  [ BitVec.ofNat 64 (slot.toNat + group.toNat * 2 ^ 16 + lport % 4 * 2 ^ 19 + b2n miss * 2 ^ 31 + seq.toNat * 2 ^ 32),
    stamp, BitVec.ofNat 64 (len % 2 ^ 14), 0, BitVec.ofNat 64 key.toNat, BitVec.ofNat 64 (key.toNat / 2 ^ 64) ] ++
  ((List.range 8).map fun k => BitVec.ofNat 64 (w (2 * k) + w (2 * k + 1) * 2 ^ 32)) ++ [0, 0]

/-- A record mirrored, or its copy dropped and counted where no credit is left or 64 already wait (R522). -/
def mirror (s : State) (d : Nat) (words : List DWord) : State :=
  s.onIng d fun g =>
    if g.capFree = 0 ∨ 64 ≤ g.capWait.length then { g with capDrops := add48 g.capDrops 1 }
    else { g with capFree := g.capFree - 1, capWait := g.capWait ++ [words] }

/-! ### Punt (R523) -/

/-- A frame put in the punt buffer with its header, or dropped where all 16 entries are taken. -/
def punt (s : State) (d lport : Nat) (bs : List Byte) (stamp : DWord) : State :=
  let t := s.ingCount d 9
  if 16 ≤ (t.die d).eth.punts.length then t.ethCount d lport 9 1
  else
    let head := toLe (bs.length % 2 ^ 14 + lport % 4 * 2 ^ 14) 8 ++ toLe stamp.toNat 8
    (t.ethCount d lport 8 1).onEth d fun e => { e with punts := e.punts ++ [head ++ bs.take 2032] }

/-! ### FRAME_RECEIVE -/

/-- An event put in its group's queue, or dropped for every member where 32 already wait (R519, R520). -/
def enqueueEvent (s : State) (d : Nat) (group : Nat) (e : Event) : State :=
  let g := (s.die d).ing.group group
  if 32 ≤ g.queue.length then
    let t := (s.ingCount d 7).onIng d fun x => x.setGroup group { g with ovf := true }
    if g.ovf then t else t.raise (.ing d) evIngOverflow 0
  else (s.ingCount d 0).onIng d fun x => x.setGroup group { g with queue := g.queue ++ [e] }

/-- A frame whose program has ended: range checks, sequence number, lookup, queue and mirror (R512 to R521). -/
def resolveFrame (s : State) (d lport len : Nat) (stamp : DWord) (p : Parse) : State :=
  match rangeFail s d p with
  | some i => s.ingCount d (16 + i)
  | none =>
    let seq := (s.die d).ing.seq
    let t := s.onIng d fun g => { g with seq := g.seq + 1 }
    let key := lookupKey t d p.key
    match (t.die d).ing.find key with
    | none =>
      let u := t.ingCount d 6
      if s.fld (.ing d) 0x40 8 2 = 3 then mirror u d (captureWords true 0 0 lport seq stamp len key p.fields) else u
    | some e =>
      if !((t.die d).ing.group e.group.toNat).en then t.ingCount d 10
      else
        let full := decide (32 ≤ ((t.die d).ing.group e.group.toNat).queue.length)
        let u := enqueueEvent t d e.group.toNat
          ⟨e.slot, seq, stamp, (List.range 16).map fun i => tget p.fields i 0, []⟩
        if s.fld (.ing d) 0x40 8 1 = 1 && !full then
          mirror u d (captureWords false e.slot e.group lport seq stamp len key p.fields)
        else u

/-- Whether a frame may find 64 waiting in the ordering of R507: only an 800GbE feed of frames shorter than 70 bytes can reach
that limit. -/
def mayCrowd (s : State) (d : Nat) (frame : List Byte) : Bool :=
  ethPorts s d == 1 && s.fld (.eth d) 0x40 4 3 == 4 && decide (frame.length < 70)

/-- Whether it does, which a free value says. -/
def crowded (s : State) (d : Nat) (frame : List Byte) : Bool × State :=
  if mayCrowd s d frame then (s.free.1.getLsbD 0, s.free.2) else (false, s)

/-- A frame from the MAC at ingress (R507, R508, R520, R674). Where it may find 64 frames waiting, a free value says whether it
does, since the model has no fclk cycles (log 216). -/
def ingressFrame (s : State) (d lport : Nat) (frame : List Byte) (stamp : DWord) : State :=
  let bs := frame.take (frame.length - 4)
  if !enabled s (.ing d) then s.ingCount d 1
  else
    let x := crowded s d frame
    if x.1 then x.2.ingCount d 1
    else
    match parseFrame x.2 d lport bs with
    | .ok p => resolveFrame x.2 d lport frame.length stamp p
    | .punt => punt x.2 d lport bs stamp
    | .drop cause code =>
      let t := x.2.ingCount d cause
      if cause = 5 then t.setFld (.ing d) 0xCC 0 8 code else t

/-- The counter of R542 under which the MAC drops a frame: runt, oversize, bad FCS, PAUSE or PFC (R505). -/
def macDrop (frame : List Byte) : Option Nat :=
  if frame.length < 64 then some 3
  else if 9216 < frame.length then some 4
  else if leBytes (frame.drop (frame.length - 4)) ≠ (crc32 (frame.take (frame.length - 4))).toNat then some 2
  else if beBytes (slice frame 12 2) = 0x8808 ∧ (beBytes (slice frame 14 2) = 0x0001 ∨ beBytes (slice frame 14 2) = 0x0101)
  then some 5
  else none

/-- A frame on a logical port, its FCS included, stamped at its start delimiter (R505, R537). -/
def frameReceive (s : State) (d lport : Nat) (frame : List Byte) (stamp : DWord) : State :=
  let t := s.onEth d fun e => { e with idle := e.idle.set (lpIx lport) false }
  match macDrop frame with
  | some k => t.ethCount d lport k 1
  | none => ingressFrame ((t.ethCount d lport 0 1).ethCount d lport 1 frame.length) d lport frame stamp

/-- FRAME_RECEIVE (R36, R507): a logical port that is not up receives nothing (R506). The frame has come whole, and its stamp is
the time base as it stood when its start delimiter came, `age` nanoseconds ago. -/
def execFrameReceive (die lport : Nat) (frame : List Byte) (age : DWord) (s : State) :
    Host.Outcome State Fault Refusal :=
  atDieIf s die (decide (lport < 4))
    (.next (if lportUp s die lport then frameReceive s die lport frame (s.time - age) else s))

/-! ### Routes (R517 to R519) -/

/-- The route entries of a group that are LIVE. -/
def liveRoutes (g : Ing) (group : Nat) : List Nat :=
  (List.range 16).filter fun i =>
    let r := g.route i
    r.entry.valid && r.live && r.group.toNat == group

/-- Events that a member route has taken, and every LIVE one, leave their queue (R519). -/
def settleGroup (g : Ing) (group : Nat) : Ing :=
  let x := g.group group
  g.setGroup group { x with
    queue := x.queue.filter fun e => e.taken.isEmpty || (liveRoutes g group).any fun i => !e.taken.contains i }

def settleGroups (g : Ing) : Ing := (List.range 8).foldl settleGroup g

/-- The payload of a flit of four words (R310). -/
def flitWords (ws : List Word) : BitVec 128 :=
  BitVec.ofNat 128 ((ws.getD 0 0).toNat + (ws.getD 1 0).toNat * 2 ^ 32 + (ws.getD 2 0).toNat * 2 ^ 64
    + (ws.getD 3 0).toNat * 2 ^ 96)

/-- The flits of an event: its header, then n of fields (R517). -/
def eventFlits (e : Event) (n : Nat) : List (BitVec 128) :=
  flitWords [e.slot.zeroExtend 32, e.seq, BitVec.ofNat 32 e.stamp.toNat, BitVec.ofNat 32 (e.stamp.toNat / 2 ^ 32)] ::
    (List.range n).map fun k => flitWords (slice4 e.fields (4 * k))
where
  slice4 (ws : List Word) (o : Nat) : List Word := (ws.drop o).take 4

/-- A route refused with code 1: no longer LIVE, NAK raised (R348). -/
def routeRefused (s : State) (d route : Nat) : State :=
  (s.onIng d fun g => settleGroups (g.setRoute route { g.route route with live := false })).raise (.ing d) evNak 0

/-- A route takes its next event, where it is LIVE, an event waits that it has not taken, and its credit covers the
event's flits (R519). A missing destination is refused before anything is sent (R308, R348). -/
def routeInject (s : State) (d route : Nat) : State :=
  let g := (s.die d).ing
  let r := g.route route
  let k := r.group.toNat
  let x := g.group k
  let n := 1 + x.nflit.toNat
  match x.queue.find? fun e => !e.taken.contains route with
  | none => s
  | some e =>
    if !r.entry.valid ∨ !r.live ∨ r.entry.credit.toNat < n then s
    else if destMissing s r.entry.dest then routeRefused s d route
    else
      let t := s.onIng d fun g =>
        let g1 := g.setRoute route { r with entry := { r.entry with credit := r.entry.credit - BitVec.ofNat 16 n } }
        settleGroup (g1.setGroup k { x with
          delivered := some e.seq
          queue := x.queue.map fun q => if q = e then { q with taken := q.taken ++ [route] } else q }) k
      t.sendAll ((eventFlits e x.nflit.toNat).map fun f =>
        ⟨r.entry.vc, r.entry.dest, blockDest 4 d 0, false, .chan r.entry.ep f r.entry.yx⟩)

/-- ROUTE_INJECT (R519). -/
def execRouteInject (die route : Nat) (s : State) : Host.Outcome State Fault Refusal :=
  atDieIf s die (decide (route < 16)) (.next (routeInject s die route))

/-- The oldest event that no member has taken is dropped, while ING.TIMEOUT is not 0 (R520). -/
def staleDrop (s : State) (d group : Nat) : State :=
  let x := (s.die d).ing.group group
  match x.queue.find? fun e => e.taken.isEmpty with
  | none => s
  | some e =>
    if s.reg (.ing d) 0x2C = 0 then s
    else (s.ingCount d 8).onIng d fun g => g.setGroup group { x with queue := x.queue.erase e }

/-- STALE_DROP (R520). -/
def execStaleDrop (die group : Nat) (s : State) : Host.Outcome State Fault Refusal :=
  atDieIf s die (decide (group < 8)) (.next (staleDrop s die group))

/-! ### Capture as commands (R521, R522) -/

/-- A capture record's write put on the Mortar after a lookup at the Hod of the die; one that finds no frame is dropped and
counted. -/
def captureSend (s : State) (d : Nat) (c : Capture) : State :=
  let n := s.fld (.ing d) 0xA8 0 24
  let byte := 128 * (if n = 0 then 0 else c.num % n)
  let job : Half := BitVec.ofNat 16 (s.fld (.ing d) 0xA4 0 16)
  match s.lookup d job (BitVec.ofNat 20 (s.fld (.ing d) 0xA0 0 20)) (byte / 2 ^ 21) with
  | (.found fd, t) =>
    let off := byte % 2 ^ 21
    let b := match ctlOf (fdTier fd) off with
      | .stack0 => blockDest 0 (fdDie fd) 0
      | .stack1 => blockDest 0 (fdDie fd) 1
      | .lpddr => blockDest 1 (fdDie fd) 0
      | .dimm => blockDest 2 (fdDie fd) 0
    (t.onIng d fun g => { g with capOut := g.capOut ++ [c] }).send
      ⟨2, b, blockDest 4 d 0, false, .mwrite ⟨c.tag, BitVec.ofNat 21 off, 15, fd⟩ false c.words []⟩
  | (_, t) => t.onIng d fun g => { g with capDrops := add48 g.capDrops 1 }

/-- CAPTURE_WRITE (R521): the oldest record waiting. -/
def execCaptureWrite (die : Nat) (s : State) : Host.Outcome State Fault Refusal :=
  atDie s die <|
    match (s.die die).ing.capWait with
    | [] => .next s
    | w :: rest =>
      let r := (s.die die).ing.capNext
      .next (captureSend (s.onIng die fun g => { g with capWait := rest, capNext := r + 1 }) die
        ⟨r, BitVec.ofNat 15 r, w⟩)

/-- The acknowledgement of a capture write at the Ethernet block: after MOVED the record is looked up and sent again, after
an error it is lost and counted (R406, R521). -/
def captureAck (s : State) (d : Nat) (tag : BitVec 15) (status : BitVec 2) : State :=
  match (s.die d).ing.capOut.find? fun c => c.tag == tag with
  | none => s
  | some c =>
    let t := s.onIng d fun g => { g with capOut := g.capOut.erase c }
    if status = 0 then t
    else if status = 1 then captureSend t d c
    else t.onIng d fun g => { g with capDrops := add48 g.capDrops 1 }

/-- CAPTURE_CREDIT_RETURN (R522): INC added to FREE, up to NREC; another job or peg is refused with code 5. -/
def execCaptureCreditReturn (p : Packet) (s : State) : Host.Outcome State Fault Refusal :=
  match p.body with
  | .psig peg inc job =>
    toBlock s p 4 fun d _ t =>
      if peg ≠ 0 ∨ job.toNat ≠ t.fld (.ing d) 0xA4 0 16 then t.nak p 5
      else t.onIng d fun g => { g with capFree := min (g.capFree + inc.toNat) (t.fld (.ing d) 0xA8 0 24) }
  | _ => .next s

/-! ### The lookup table as the Mason keeps it (R514, R543) -/

/-- The key that LK_KEY0 to LK_KEY3 hold. -/
def lkKey (s : State) (d : Nat) : BitVec 128 :=
  BitVec.ofNat 128 ((s.reg (.ing d) 0x60).toNat + (s.reg (.ing d) 0x64).toNat * 2 ^ 32
    + (s.reg (.ing d) 0x68).toNat * 2 ^ 64 + (s.reg (.ing d) 0x6C).toNat * 2 ^ 96)

/-- RESULT of a lookup command. -/
def lkResult (s : State) (d r : Nat) : State := s.setFld (.ing d) 0x74 4 2 r

/-- A key inserted: 0 done, 1 EXISTS, 2 FULL (R514). -/
def Ing.insert (g : Ing) (key : BitVec 128) (slot : Half) (group : BitVec 3) : Nat × Ing :=
  if (g.find key).isSome then (1, g)
  else if 4 ≤ (g.table.filter fun e => bucketOf e.key == bucketOf key).length then (2, g)
  else (0, { g with table := g.table ++ [⟨key, slot, group⟩] })

/-- A key deleted: 0 done, 3 NOTFOUND (R514). -/
def Ing.delete (g : Ing) (key : BitVec 128) : Nat × Ing :=
  if (g.find key).isSome then (0, { g with table := g.table.filter fun e => e.key != key }) else (3, g)

def lkInsert (s : State) (d : Nat) : State :=
  let r := (s.die d).ing.insert (lkKey s d) (BitVec.ofNat 16 (s.fld (.ing d) 0x70 0 16))
    (BitVec.ofNat 3 (s.fld (.ing d) 0x70 16 3))
  lkResult (s.onIng d fun _ => r.2) d r.1

def lkDelete (s : State) (d : Nat) : State :=
  let r := (s.die d).ing.delete (lkKey s d)
  lkResult (s.onIng d fun _ => r.2) d r.1

/-- LK_DATA loaded for the key: VALID shows whether it was found (R543). -/
def lkRead (s : State) (d : Nat) : State :=
  match (s.die d).ing.find (lkKey s d) with
  | some e =>
    lkResult (s.setReg (.ing d) 0x70 (BitVec.ofNat 32 (e.slot.toNat + e.group.toNat * 2 ^ 16 + 2 ^ 31))) d 0
  | none => lkResult (s.setFld (.ing d) 0x70 31 1 0) d 0

/-- LK_INSERT (R514). -/
def execLkInsert (die : Nat) (s : State) : Host.Outcome State Fault Refusal := atDie s die (.next (lkInsert s die))

/-- LK_DELETE (R514). -/
def execLkDelete (die : Nat) (s : State) : Host.Outcome State Fault Refusal := atDie s die (.next (lkDelete s die))

/-- LK_READ (R543). -/
def execLkRead (die : Nat) (s : State) : Host.Outcome State Fault Refusal := atDie s die (.next (lkRead s die))

/-! ### The punt buffer and the link (R506, R523, R542) -/

/-- PUNT_POP (R542): the head entry released. -/
def execPuntPop (die : Nat) (s : State) : Host.Outcome State Fault Refusal :=
  atDie s die (.next (s.onEth die fun e => { e with punts := e.punts.drop 1 }))

/-- A logical port's PCS lock changes: UP follows, CHG is set, LINK_CHANGE raised (R506). -/
def linkChange (s : State) (d lport : Nat) (up : Bool) : State :=
  let p := Page.eth d
  if (up && !lportOn s d lport) || s.fld p 0x44 (lport % 4) 1 == b2n up then s
  else ((s.setFld p 0x44 (lport % 4) 1 (b2n up)).setFld p 0x44 (4 + lport % 4) 1 1).raise p evLinkChange 0

/-- Whether a logical port is kept up in Curing, in wake-filter mode (R656, R686). -/
def portKept (s : State) (d lport : Nat) : Bool := bit s.supply.cured.ports (4 * d + lport)

/-- LINK_CHANGE (R506): in Curing a lane that is not kept up stays down. -/
def execLinkChange (die lport : Nat) (up : Bool) (s : State) : Host.Outcome State Fault Refusal :=
  atPortIf s die (decide (lport < 4)) (.next (if s.pstate = .curing ∧ !portKept s die lport then s else linkChange s die lport up))

/-- RX_IDLE (R506): raised once until a frame comes, while TIMEOUT is not 0 and the port is up. -/
def execRxIdle (die lport : Nat) (s : State) : Host.Outcome State Fault Refusal :=
  atDieIf s die (decide (lport < 4)) <|
    if s.reg (.eth die) 0x2C = 0 ∨ !lportUp s die lport ∨ (s.die die).eth.idle[lpIx lport] then .next s
    else .next ((s.onEth die fun e => { e with idle := e.idle.set (lpIx lport) true }).raise (.eth die) evRxIdle 0)

end Sys2Proof.Machine
end

