-- ==== Sys2Proof/Machine/Egress.lean ====
section
/-! DEFINITION. Egress (R524 to R535, R544), the Ethernet port's transmit side (R528, R529) and the time base (R536 to R539,
R545). -/

namespace Sys2Proof.Machine

/-! ### Pages -/

def State.onEgr (s : State) (d : Nat) (f : Egr → Egr) : State := s.setDie d { s.die d with egr := f (s.die d).egr }

/-- One of egress's counters (R544). -/
def State.egrCount (s : State) (d k : Nat) : State :=
  s.onEgr d fun g => { g with counts := tset g.counts k (add48 (tget g.counts k 0) 1) }

def Egr.input (g : Egr) (n : Nat) : EgrIn := g.ins[grpIx n]

def Egr.setInput (g : Egr) (n : Nat) (x : EgrIn) : Egr := { g with ins := g.ins.set (grpIx n) x }

def Egr.group (g : Egr) (n : Nat) : EgrGroup := g.groups[grpIx n]

def Egr.setGroup (g : Egr) (n : Nat) (x : EgrGroup) : Egr := { g with groups := g.groups.set (grpIx n) x }

def State.onGroup (s : State) (d k : Nat) (f : EgrGroup → EgrGroup) : State :=
  s.onEgr d fun g => g.setGroup k (f (g.group k))

/-- GRP_MODE.MODE values (R530). -/
def modeSilent : BitVec 2 := 0
def modeSingle : BitVec 2 := 1
def modeCompare : BitVec 2 := 2
def modeVote : BitVec 2 := 3

/-! ### Templates and frames (R526, R527) -/

/-- A source of R526 as a number; 0x12 is the time its port's follower shows, which lags the time base by 1 to 8 ns. -/
def patchSource (words : List Word) (seq time : Word) (src : Nat) : Nat :=
  if src < 14 then (words.getD (2 + src) 0).toNat
  else if src = 0x10 then seq.toNat
  else if src = 0x12 then time.toNat
  else 0

/-- One patch applied (R526). -/
def applyPatch (words : List Word) (seq time : Word) (bs : List Byte) (patch : Word) : List Byte :=
  let n := 2 ^ bits patch 13 2
  let v := patchSource words seq time (bits patch 0 5)
  splice bs (bits patch 5 8) (if bit patch 15 then toLe v n else toBe v n)

/-- A one's-complement sum of 16-bit big-endian words, an odd last byte padded with 0. -/
def onesSum (bs : List Byte) : Nat :=
  match bs with
  | [] => 0
  | [a] => a.toNat * 256
  | a :: b :: r => a.toNat * 256 + b.toNat + onesSum r

/-- The sum folded to 16 bits. -/
def foldSum (v : Nat) : Nat := (v % 65536 + v / 65536) % 65536 + (v % 65536 + v / 65536) / 65536

/-- The Internet checksum of bytes (RFC 791, RFC 768). -/
def inetChecksum (bs : List Byte) : Nat := 65535 - foldSum (onesSum bs)

/-- The IPv4 header checksum over IHL·4 bytes from IP_OFF (R527). -/
def putIpChecksum (bs : List Byte) (ip : Nat) : List Byte :=
  let z := splice bs (ip + 10) [0, 0]
  splice z (ip + 10) (toBe (inetChecksum (slice z ip (4 * ((bs.getD ip 0).toNat % 16)))) 2)

/-- The UDP checksum over the pseudo-header, the UDP header and the payload (R527). -/
def putUdpChecksum (bs : List Byte) (ip udp : Nat) : List Byte :=
  let z := splice bs (udp + 6) [0, 0]
  let n := beBytes (slice bs (udp + 4) 2)
  let pseudo := slice bs (ip + 12) 8 ++ [0, bs.getD (ip + 9) 0] ++ slice bs (udp + 4) 2
  let c := inetChecksum (pseudo ++ slice z udp n)
  splice z (udp + 6) (toBe (if c = 0 then 65535 else c) 2)

/-- The frame of a template, without its FCS (R527); an unavailable frame, which no member releases, has no version
written. -/
def buildFrame (g : Egr) (t : Nat) (words : List Word) (seq time : Word) (version : Option Half) : List Byte :=
  let d0 := tget g.d0 t 0
  let d1 := tget g.d1 t 0
  let len := bits d0 0 9
  let base := (List.range len).map fun i => mread g.store (256 * t + i)
  let b1 := (List.range (bits d1 16 4)).foldl (fun bs i => applyPatch words seq time bs (tget g.patches (t, i) 0)) base
  let b2 := match version with
    | some v => splice b1 (bits d1 8 8) (toBe v.toNat 2)
    | none => b1
  let b3 := if bit d0 11 then putIpChecksum b2 (bits d0 16 8) else b2
  if bit d0 12 then putUdpChecksum b3 (bits d0 16 8) (bits d1 0 8) else b3

/-- A frame put in a logical port's transmit queue, or dropped where 16 wait (R528). -/
def enqueueFrame (s : State) (d lport : Nat) (bs : List Byte) : State :=
  let q := (s.die d).eth.tx[lpIx lport]
  if 16 ≤ q.length then (s.egrCount d 5).raise (.egr d) evEgrTxdrop 0
  else s.onEth d fun e => { e with tx := e.tx.set (lpIx lport) (q ++ [bs]) }

/-- The time egress reads from its port's follower: 1 to 8 ns behind (R36). -/
def followerTime (s : State) : Word × State :=
  let x := s.free
  (BitVec.ofNat 32 (s.time - BitVec.ofNat 64 (1 + x.1.toNat % 8)).toNat, x.2)

/-- A template sent with the words of a result; one without a descriptor is suppressed (R528), and while ENABLE is 0 no frame
is built (R674). The flag says whether it was sent. -/
def sendTemplate (s : State) (d t : Nat) (words : List Word) (seq : Word) (version : Option Half) : State × Bool :=
  let g := (s.die d).egr
  if !enabled s (.egr d) then (s, false)
  else if bits (tget g.d0 t 0) 0 9 = 0 then ((s.egrCount d 7).raise (.egr d) evEgrTpl 0, false)
  else
    let x := followerTime s
    (enqueueFrame x.2 d (bits (tget g.d0 t 0) 9 2) (buildFrame g t words seq x.1 version), true)

/-! ### Judging results (R530 to R534) -/

/-- GRP_LAST set to an event released or suppressed (R531). -/
def groupLast (s : State) (d k : Nat) (seq : Word) : State := s.onGroup d k fun g => { g with last := seq }

/-- The first recorded fault of MM_INFO and MM_SEQ (R532, R544). -/
def recordFault (s : State) (d k kind member : Nat) (seq : Word) : State :=
  if s.fld (.egr d) 0x64 31 1 = 1 then s
  else (s.setReg (.egr d) 0x64 (BitVec.ofNat 32 (k % 8 + kind % 4 * 8 + member % 4 * 32 + 2 ^ 31))).setReg (.egr d) 0x68 seq

/-- The unavailable frame of a group, counted where it is sent (R534). -/
def sendUnavail (s : State) (d k : Nat) (seq : Word) : State :=
  let w := ((s.die d).egr.group k).written
  let x := sendTemplate s d (bits w 5 6) [] seq none
  if x.2 then x.1.egrCount d 4 else x.1

/-- An event suppressed under R532 or R533: counted, GRP_LAST set, the unavailable frame sent with UNAVAIL_EN (R531,
R534). -/
def suppress (s : State) (d k count : Nat) (seq : Word) : State :=
  let t := groupLast (s.egrCount d count) d k seq
  if bit ((t.die d).egr.group k).written 4 then sendUnavail t d k seq else t

/-- A result released: its frame built with its member's version and queued, or suppressed for want of a descriptor, as a
TEMPLATE of 64 to 255 always lacks one (R525 to R528); either way GRP_LAST is its event's (R531). -/
def releaseResult (s : State) (d k : Nat) (seq : Word) (r : EgrResult) : State :=
  let x := sendTemplate s d ((r.words.getD 0 0).toNat % 256) r.words seq (some ((s.die d).egr.input r.input).version)
  groupLast (if x.2 then x.1.egrCount d 0 else x.1) d k seq

/-- Whether a member has a part in a mode (R524, R530). -/
def hasPart (mode solo member : BitVec 2) : Bool :=
  match mode.toNat with
  | 0 => true
  | 1 => member == solo
  | 2 => decide (member.toNat < 2)
  | _ => decide (member.toNat < 3)

/-- The results of an event that are judged: of each member that has a part in its mode, the first. -/
def EgrEvent.judged (e : EgrEvent) : List EgrResult :=
  e.got.foldl (fun l r => if !hasPart e.mode e.solo r.member || l.any fun x => x.member == r.member then l else l ++ [r]) []

/-- Events of a group with one changed. -/
def setEvent (s : State) (d k : Nat) (e : EgrEvent) : State :=
  s.onGroup d k fun g => { g with events := g.events.map fun x => if x.seq = e.seq then e else x }

def endEvent (s : State) (d k : Nat) (e : EgrEvent) : State := setEvent s d k { e with phase := .ended }

/-- A comparison that ends without the other result: TWIN_TIMEOUT, and its result released alone with TMO_RELEASE or else
suppressed (R532). -/
def compareTimeout (s : State) (d k : Nat) (e : EgrEvent) : State :=
  let missing := if e.judged.any (fun r => r.member == 0) then 1 else 0
  let t := (recordFault (endEvent s d k e) d k 1 missing e.seq).raise (.egr d) evTwinTimeout 0
  match e.judged.head? with
  | none => t
  | some r =>
    if bit ((t.die d).egr.group k).written 11 then releaseResult t d k e.seq r else suppress t d k 2 e.seq

/-- The open comparisons of a group, oldest first (R532). -/
def openComparisons (g : EgrGroup) : List EgrEvent :=
  g.events.filter fun e => e.mode == modeCompare && e.phase == .waiting && !e.judged.isEmpty

/-- A result under COMPARE (R532): the first of an event waits, the second is compared with it. -/
def judgeCompare (s : State) (d k : Nat) (e : EgrEvent) (r : EgrResult) : State :=
  match e.judged.find? fun x => x.member != r.member with
  | none =>
    let t := setEvent s d k { e with got := e.got ++ [r] }
    let opens := openComparisons ((t.die d).egr.group k)
    if 16 < opens.length then
      match opens with
      | o :: _ => compareTimeout t d k o
      | [] => t
    else t
  | some x =>
    let t := endEvent s d k { e with got := e.got ++ [r] }
    if x.words = r.words then releaseResult t d k e.seq (if r.member = 0 then r else x)
    else suppress ((recordFault t d k 0 0 e.seq).raise (.egr d) evTwinMismatch 0) d k 1 e.seq

/-- VOTE_DISSENT naming a member (R533). -/
def dissent (s : State) (d k : Nat) (seq : Word) (member : Nat) : State :=
  ((recordFault s d k 2 member seq).egrCount d 3).raise (.egr d) evVoteDissent 0

/-- A result under VOTE (R533). -/
def judgeVote (s : State) (d k : Nat) (e : EgrEvent) (r : EgrResult) : State :=
  let e1 := { e with got := e.got ++ [r] }
  if e.phase = .voted then
    let t := endEvent s d k e1
    if e.judged.all (fun x => x.words == r.words) then t else dissent t d k e.seq r.member.toNat
  else if e.judged.any fun x => x.words == r.words then
    let t := releaseResult (setEvent s d k { e1 with phase := if e1.judged.length < 3 then .voted else .ended }) d k e.seq r
    match e.judged.find? fun x => x.words != r.words with
    | some x => dissent t d k e.seq x.member.toNat
    | none => t
  else if 3 ≤ e1.judged.length then
    suppress ((recordFault (endEvent s d k e1) d k 3 0 e.seq).raise (.egr d) evTwinMismatch 0) d k 1 e.seq
  else setEvent s d k e1

/-- The first result of an event: its record opens under the mode in force, a written mode taking effect with it
(R531, R534). -/
def openEvent (s : State) (d k : Nat) (seq : Word) : State :=
  let g := (s.die d).egr.group k
  if g.pending then
    let mode := BitVec.ofNat 2 (bits g.written 0 2)
    let solo := BitVec.ofNat 2 (bits g.written 2 2)
    let t := s.onGroup d k fun _ => { g with
      mode := mode, solo := solo, pending := false, latch := false, swseq := seq
      events := g.events ++ [⟨seq, mode, solo, .waiting, []⟩] }
    if mode = modeSilent ∧ g.mode ≠ modeSilent ∧ bit g.written 4 then sendUnavail t d k g.last else t
  else s.onGroup d k fun _ => { g with
    latch := false, swseq := if g.latch then seq else g.swseq, events := g.events ++ [⟨seq, g.mode, g.solo, .waiting, []⟩] }

/-- Whether an event is still to be decided. -/
def EgrEvent.open' (e : EgrEvent) : Bool := (e.phase == .waiting && !e.judged.isEmpty) || e.phase == .voted

/-- A written SILENT, which no result may ever follow, takes effect once no event of the mode before is open (R531, R534;
DEDUCED, log 85). -/
def settleSilent (s : State) (d k : Nat) : State :=
  let g := (s.die d).egr.group k
  if g.pending && bits g.written 0 2 == 0 && !g.events.any EgrEvent.open' then
    let t := s.onGroup d k fun g => { g with
      mode := modeSilent, solo := BitVec.ofNat 2 (bits g.written 2 2), pending := false, latch := true }
    if g.mode ≠ modeSilent ∧ bit g.written 4 then sendUnavail t d k g.last else t
  else s

/-- Members of a group that a VALID input serves. -/
def servedMembers (g : Egr) (k : Nat) : List (BitVec 2) :=
  (g.ins.toList.filter fun i => i.valid && i.group.toNat == k % 8).map fun i => i.member

/-- Records that nothing later can name leave: decided ones that every served member has answered, and all but the newest 256.
One released by a vote stays until its third answer or its TWIN_WAIT (R533). -/
def pruneEvents (s : State) (d k : Nat) : State :=
  let members := servedMembers (s.die d).egr k
  s.onGroup d k fun g =>
    let kept := g.events.filter fun e =>
      e.phase == .waiting || e.phase == .voted || members.any fun m => !e.got.any fun r => r.member == m
    { g with events := kept.drop (kept.length - 256) }

/-- A group after one of its events has moved on. -/
def settleEvents (s : State) (d k : Nat) : State := settleSilent (pruneEvents s d k) d k

/-- A result judged under the mode of its event (R530 to R533). -/
def judgeResult (s : State) (d k : Nat) (e : EgrEvent) (r : EgrResult) : State :=
  if !hasPart e.mode e.solo r.member then (setEvent s d k { e with got := e.got ++ [r] }).egrCount d 6
  else if e.mode = modeSilent then
    groupLast ((setEvent s d k { e with got := e.got ++ [r], phase := .ended }).egrCount d 8) d k e.seq
  else if e.mode = modeSingle then
    releaseResult (setEvent s d k { e with got := e.got ++ [r], phase := .ended }) d k e.seq r
  else if e.phase = .ended ∨ e.judged.any (fun x => x.member == r.member) then
    (setEvent s d k { e with got := e.got ++ [r] }).egrCount d 6
  else if e.mode = modeCompare then judgeCompare s d k e r
  else judgeVote s d k e r

/-- A whole result taken from an input (R524, R525). -/
def takeResult (s : State) (d input : Nat) (ws : List Word) : State :=
  let i := (s.die d).egr.input input
  if !enabled s (.egr d) ∨ !i.valid then s.egrCount d 6
  else
    let k := i.group.toNat
    let seq := ws.getD 1 0
    let known := fun (t : State) => ((t.die d).egr.group k).events.find? fun e => e.seq == seq
    let t := if (known s).isSome then s else openEvent s d k seq
    match known t with
    | some e => settleEvents (judgeResult t d k e ⟨i.member, input, ws⟩) d k
    | none => t

/-- The four words of a flit. -/
def wordsOfFlit (f : BitVec 128) : List Word := (List.range 4).map fun k => BitVec.ofNat 32 (f.toNat / 2 ^ (32 * k))

/-- A flit consumed at an input returns one CRET to its sender (R333, R524); none where the peer names nothing (R308). -/
def egrCredit (s : State) (d : Nat) (i : EgrIn) (vc : BitVec 2) : State :=
  if i.peerValid && !destMissing s i.peer then s.send ⟨if vc = 0 then 1 else vc, i.peer, blockDest 4 d 0, false, .cret i.pchan 1⟩ else s

/-- EGRESS_RESULT at an input: the head result leaves when all its flits are present (R525). -/
def egressResult (s : State) (d input : Nat) : State :=
  let i := (s.die d).egr.input input
  match i.flits with
  | [] => s
  | f :: _ =>
    let n := 1 + f.1.toNat / 2 ^ 8 % 4
    if i.flits.length < n then s
    else
      let fs := i.flits.take n
      let t := s.onEgr d fun g => g.setInput input { i with flits := i.flits.drop n }
      let u := fs.foldl (fun u f => egrCredit u d i f.2) t
      takeResult u d input (fs.flatMap fun f => wordsOfFlit f.1)

/-- EGRESS_RESULT (R530). -/
def execEgressResult (die input : Nat) (s : State) : Host.Outcome State Fault Refusal :=
  atDieIf s die (decide (input < 8)) (.next (egressResult s die input))

/-- A channel flit at an Ethernet input, four deep; one that finds it full is dropped (R524). -/
def egressFlit (s : State) (d ep : Nat) (vc : BitVec 2) (f : BitVec 128) : State :=
  let i := (s.die d).egr.input ep
  if 4 ≤ i.flits.length then s else s.onEgr d fun g => g.setInput ep { i with flits := i.flits ++ [(f, vc)] }

/-- TWIN_WAIT has passed since an event's result or release (R532, R533). -/
def twinWaitExpiry (s : State) (d k : Nat) (seq : Word) : State :=
  match ((s.die d).egr.group k).events.find? fun e => e.seq == seq with
  | none => s
  | some e =>
    if e.mode = modeCompare ∧ e.phase = .waiting ∧ !e.judged.isEmpty then settleEvents (compareTimeout s d k e) d k
    else if e.mode = modeVote ∧ e.phase = .waiting ∧ e.judged.length = 2 then
      settleEvents (suppress (endEvent s d k e) d k 2 seq) d k
    else if e.mode = modeVote ∧ e.phase = .voted then
      let missing := (List.range 3).find? fun m => !e.got.any fun r => r.member.toNat == m
      let t := endEvent s d k e
      match missing with
      | some m => settleEvents (dissent t d k seq m) d k
      | none => settleEvents t d k
    else s

/-- TWIN_WAIT_EXPIRY (R532, R533). -/
def execTwinWaitExpiry (die group : Nat) (seq : Word) (s : State) : Host.Outcome State Fault Refusal :=
  atDieIf s die (decide (group < 8)) (.next (twinWaitExpiry s die group seq))

/-- UNAVAIL_PERIOD (R534): a SILENT group with UNAVAIL_EN and a period that is not 0. -/
def execUnavailPeriod (die group : Nat) (s : State) : Host.Outcome State Fault Refusal :=
  atDieIf s die (decide (group < 8)) <|
    let g := (s.die die).egr.group group
    if g.mode = modeSilent ∧ bit g.written 4 ∧ bits g.written 16 16 ≠ 0 ∧ enabled s (.egr die) then
      .next (sendUnavail s die group g.last)
    else .next s

/-- A GRP_MODE write: PENDING until an event's first result arrives (R531). -/
def grpModeWrite (s : State) (d k : Nat) (v : Word) : State :=
  settleSilent (s.onGroup d k fun g => { g with written := v &&& 0xFFFF0FFF, pending := true }) d k

/-- GRP_MODE_WRITE (R531). -/
def execGrpModeWrite (die group : Nat) (v : Word) (s : State) : Host.Outcome State Fault Refusal :=
  atDieIf s die (decide (group < 8)) (.next (grpModeWrite s die group v))

/-! ### Template registers (R526, R527, R544) -/

/-- Whether a descriptor's offsets fit within LEN (R526, R527): each offset names a byte of the frame, and with IPCS or UDPCS
the header at it lies within LEN too (DEDUCED, log 216). LEN 0 is no descriptor. -/
def descriptorOk (d0 d1 : Word) : Bool :=
  let len := bits d0 0 9
  len == 0 ||
  (decide (60 ≤ len) && decide (len ≤ 256) && decide (bits d1 8 8 + 2 ≤ len) && decide (bits d1 16 4 ≤ 8)
    && decide (bits d0 16 8 < len) && decide (bits d1 0 8 < len)
    && (!(bit d0 11) || decide (bits d0 16 8 + 20 ≤ len))
    && (!(bit d0 12) || (decide (bits d1 0 8 + 8 ≤ len) && decide (bits d0 16 8 + 20 ≤ len))))

/-- Whether a patch names a legal source and width (R526, R544). -/
def patchOk (w : Word) : Bool :=
  let src := bits w 0 5
  (decide (src < 14) || src == 0x10 || src == 0x12) && decide (bits w 13 2 < 3)

/-- Whether a patch lies within its template's LEN (R527). -/
def patchFits (d0 w : Word) : Bool := bits d0 0 9 == 0 || decide (bits w 5 8 + 2 ^ bits w 13 2 ≤ bits d0 0 9)

/-- Whether the used patches of a template fit. -/
def patchesFit (g : Egr) (t : Nat) (d0 d1 : Word) : Bool :=
  (List.range (bits d1 16 4)).all fun i => patchFits d0 (tget g.patches (t, i) 0)

/-- A template descriptor or patch written, or refused with ERR_RANGE (R526, R527). -/
def tplD0Write (s : State) (d t : Nat) (v : Word) : State :=
  let g := (s.die d).egr
  let w := v &&& 0x00FF1FFF
  if descriptorOk w (tget g.d1 t 0) && patchesFit g t w (tget g.d1 t 0) then
    s.onEgr d fun g => { g with d0 := tset g.d0 t w }
  else s.record (.egr d) evErrRange 0x74

def tplD1Write (s : State) (d t : Nat) (v : Word) : State :=
  let g := (s.die d).egr
  let w := v &&& 0x000FFFFF
  if descriptorOk (tget g.d0 t 0) w && decide (bits w 16 4 ≤ 8) && patchesFit g t (tget g.d0 t 0) w then
    s.onEgr d fun g => { g with d1 := tset g.d1 t w }
  else s.record (.egr d) evErrRange 0x78

def tplPatchWrite (s : State) (d t i : Nat) (v : Word) : State :=
  let g := (s.die d).egr
  let w := v &&& 0xFFFF
  if patchOk w && (decide (bits (tget g.d1 t 0) 16 4 ≤ i) || patchFits (tget g.d0 t 0) w) then
    s.onEgr d fun g => { g with patches := tset g.patches (t, i) w }
  else s.record (.egr d) evErrRange 0x80

/-! ### Transmit (R528, R529, R537) -/

/-- A frame with its FCS leaves on a logical port, counted (R527, R542). -/
def transmit (s : State) (d lport : Nat) (bs : List Byte) : State :=
  let out := bs ++ toLe (crc32 bs).toNat 4
  ((s.emit (.frame d lport out)).ethCount d lport 6 1).ethCount d lport 7 out.length

/-- FRAME_TRANSMIT (R528): the head of a logical port's queue leaves. -/
def execFrameTransmit (die lport : Nat) (s : State) : Host.Outcome State Fault Refusal :=
  atDieIf s die (decide (lport < 4)) <|
    match (s.die die).eth.tx[lpIx lport] with
    | [] => .next s
    | f :: rest =>
      if !lportOn s die lport then .next s
      else .next (transmit (s.onEth die fun e => { e with tx := e.tx.set (lpIx lport) rest }) die lport f)

/-- The management frame that MTX_CMD describes, taken from the transmit buffer (R529, R542): LEN 60 to 2,032, else
ERR_RANGE. A GO while BUSY has no effect. -/
def mtxGo (s : State) (d : Nat) : State :=
  let w := s.reg (.eth d) 0x6C
  let len := bits w 0 14
  if (s.die d).eth.mgmt.isSome then s
  else if len < 60 ∨ 2032 < len then s.record (.eth d) evErrRange 0x6C
  else
    let bs := (List.range len).map fun i => BitVec.ofNat 8 (bits (tget (s.die d).eth.mtx (i / 4) 0) (8 * (i % 4)) 8)
    s.onEth d fun e => { e with mgmt := some ⟨bits w 14 2, bs, bit w 16⟩ }

/-- MTX_GO (R529). -/
def execMtxGo (die : Nat) (s : State) : Host.Outcome State Fault Refusal := atDie s die (.next (mtxGo s die))

/-- MGMT_TX_START (R529): the management frame leaves once its logical port's queue is empty; with TSREQ its departure
stamp, within 4 ns of the time base (R537), is captured. -/
def mgmtTxStart (s : State) (d : Nat) : State :=
  match (s.die d).eth.mgmt with
  | none => s
  | some m =>
    if !lportOn s d m.lport ∨ !(s.die d).eth.tx[lpIx m.lport].isEmpty then s
    else
      let t := transmit (s.onEth d fun e => { e with mgmt := none }) d m.lport m.bytes
      if m.tsreq then
        let x := t.free
        x.2.setPair (.eth d) 0x70 (t.time + BitVec.ofNat 64 (x.1.toNat % 9) - 4).toNat
      else t

/-- MGMT_TX_START (R529). -/
def execMgmtTxStart (die : Nat) (s : State) : Host.Outcome State Fault Refusal := atDie s die (.next (mgmtTxStart s die))

/-! ### The time base (R536, R539) -/

/-- TIM.SET's HI half written: the time steps to it and the LO half held before it (R18, R536). -/
def timSet (s : State) (v : Word) : State :=
  let lo := tget s.loHeld (.tim, 0x48) 0
  let t := { s with time := v ++ lo, loHeld := tdel s.loHeld (.tim, 0x48) }
  t.setFld .tim 0x60 3 1 1

/-- TIM_SET (R536). -/
def execTimSet (v : Word) (s : State) : Host.Outcome State Fault Refusal := atModule s (timSet s v)

/-- TIM.ADJ written: at most 1,000 ns either way is slewed, more records ERR_RANGE (R536). -/
def timAdj (s : State) (v : Word) : State :=
  if 1000 < v.toInt.natAbs then s.record .tim evErrRange 0x5C
  else ({ s with slew := s.slew + v.toInt }).setFld .tim 0x60 4 1 1

/-- TIM_ADJ (R536). -/
def execTimAdj (v : Word) (s : State) : Host.Outcome State Fault Refusal := atModule s (timAdj s v)

/-- Nanoseconds pass: while an adjustment is being applied, each 1,024 of them bring 1 ns of it (R536). -/
def State.pass (s : State) (n : Nat) : State :=
  let acc := s.slewAcc + n
  let k := min (acc / 1024) s.slew.natAbs
  let share : Int := if s.slew < 0 then -k else k
  { s with
    time := s.time + BitVec.ofInt 64 (n + share), slew := s.slew - share, slewAcc := if s.slew = 0 then 0 else acc % 1024 }

/-- SLEW_COMPLETE (R536): what is left of the adjustment is applied, 1 ns in each 1,024 ns of the time that has passed with it,
and SLEWING clears. -/
def execSlewComplete (s : State) : Host.Outcome State Fault Refusal :=
  atModule s <|
    if s.fld .tim 0x60 4 1 = 0 then s
    else ({ s with
      time := s.time + BitVec.ofInt 64 ((1024 * s.slew.natAbs - s.slewAcc : Nat) + s.slew), slew := 0, slewAcc := 0 }).setFld .tim 0x60 4 1 0

/-- An invalid pulse: PPS_BAD (R539). -/
def ppsBad (s : State) : State := ((s.setFld .tim 0x60 2 1 1).setFld .tim 0x60 0 1 0).raise .tim evPpsBad 0

/-- A pulse that meets the period rule latches the time base within 2 ns; the second since holdover began ends it
(R539). -/
def ppsValid (s : State) : State :=
  let x := s.free
  let good := s.ppsGood + 1
  let t := { x.2 with ppsFirst := true, ppsGood := good }
  let u := (t.setPair .tim 0x50 (s.time + BitVec.ofNat 64 (x.1.toNat % 5) - 2).toNat).setFld .tim 0x60 16 16
    (t.fld .tim 0x60 16 16 + 1)
  let clear := u.fld .tim 0x60 1 1 = 0 ∨ 2 ≤ good
  (u.setFld .tim 0x60 1 1 (if clear then 0 else 1)).setFld .tim 0x60 0 1 (if clear then 1 else 0)

/-- PPS_IN rises: width and time since the previous valid or first pulse in nanoseconds (R539). The first pulse has no
previous one and only starts the period; while the pin chatters no pulse is accepted (R703). -/
def ppsPulse (s : State) (width since : Nat) : State :=
  if s.fld .pin 0x68 2 1 = 1 then s
  else if width < 1000 ∨ 500000000 < width then ppsBad s
  else if !s.ppsFirst then { s with ppsFirst := true, ppsGood := 0 }
  else if since < 999000000 ∨ 1001000000 < since then ppsBad s
  else ppsValid s

/-- PPS_PULSE (R539). -/
def execPpsPulse (width since : Nat) (s : State) : Host.Outcome State Fault Refusal := atModule s (ppsPulse s width since)

/-- PPS_HOLDOVER (R539): holdover begins, and the next pulse is a first one. -/
def execPpsHoldover (s : State) : Host.Outcome State Fault Refusal :=
  atModule s <|
    if s.fld .tim 0x60 1 1 = 1 then s
    else
      ((({ s with ppsFirst := false, ppsGood := 0 }).setFld .tim 0x60 1 1 1).setFld .tim 0x60 0 1 0).raise .tim
        evPpsHoldover 0

end Sys2Proof.Machine
end

