-- ==== Sys2Proof/Machine/Hod.lean ====
section
/-! DEFINITION. The Hod and the T3 sockets: requests and lookups as commands (R404 to R407), patrol scrub (R412), decay and
candidates (R416, R417), migrations (R418 to R424), the service of a socket (R425 to R429). -/

namespace Sys2Proof.Machine

/-! ### Requests as commands -/

/-- The controller a packet for a tier block is delivered to. -/
def tierTarget (s : State) (p : Packet) : Option (Nat × Ctl) :=
  if blockExists s.part p.dest then ctlOfDest p.dest else none

/-- A packet at a tier controller: held on its way, discarded where poisoned, else accepted and served in its turn. -/
def toTier (s : State) (p : Packet) (die : Nat) (c : Ctl) : State :=
  if !routeUp s p then s
  else if p.poisoned then (s.take p).discardAtBlock die p.src
  else tierAccept s die c p

/-- A request at a Jeham port, which has no memory: answered with STATUS 3 (R558); none where it names no such port. -/
def atJeham (s : State) (p : Packet) (body : Body) : Option State :=
  if isBlock p.dest && (blockOf p.dest).1 == 5 && blockExists s.part p.dest then
    some (if !routeUp s p then s
      else if p.poisoned then (s.take p).discardAtBlock (blockOf p.dest).2.1 p.src
      else (s.take p).send (replyTo p body))
  else none

def refusedAt (s : State) (p : Packet) (body : Body) : Host.Outcome State Fault Refusal :=
  match atJeham s p body with
  | some t => .next t
  | none => .fault .noSuchBlock

/-- MREQ_READ (R407): a read served, or a work item taken into its Plane's list (R445, R450). -/
def execMreqRead (p : Packet) (s : State) : Host.Outcome State Fault Refusal :=
  match tierTarget s p, p.body with
  | some (die, c), .mread _ => .next (toTier s p die c)
  | some (die, c), .plane _ => .next (toTier s p die c)
  | some _, _ => .next s
  | none, .mread r => refusedAt s p (.mresp r.tag 3 r.nw r.off 0 [])
  | none, .plane r => refusedAt s p (.mresp r.tag 3 r.nw r.off 0 [])
  | none, _ => .fault .noSuchBlock

/-- MWRITE (R407). -/
def execMwrite (p : Packet) (s : State) : Host.Outcome State Fault Refusal :=
  match tierTarget s p, p.body with
  | some (die, c), .mwrite _ _ _ _ => .next (toTier s p die c)
  | some _, _ => .next s
  | none, .mwrite r _ _ _ => refusedAt s p (.mack r.tag 3)
  | none, _ => .fault .noSuchBlock

/-- MREQ_LOOKUP (R404, R406). -/
def execMreqLookup (p : Packet) (s : State) : Host.Outcome State Fault Refusal :=
  let b := blockOf p.dest
  if isBlock p.dest && b.1 == 3 && blockExists s.part p.dest then
    match p.body with
    | .mlookup tag handle seg job =>
      if !routeUp s p then .next s
      else if p.poisoned then .next ((s.take p).discardAtBlock b.2.1 p.src)
      else
        match (s.take p).lookup b.2.1 job handle seg.toNat with
        | (.found fd, t) => .next (t.send (replyTo p (.mresp tag 0 0 0 fd [])))
        | (.missing, t) => .next (t.send (replyTo p (.mresp tag 3 0 0 0 [])))
        | (.poison, t) => .next (t.send (replyTo p (.mresp tag 2 0 0 0 [])))
    | _ => .next s
  else
    match p.body with
    | .mlookup tag _ _ _ => refusedAt s p (.mresp tag 3 0 0 0 [])
    | _ => .fault .noSuchBlock

/-! ### Patrol scrub (R412) -/

/-- Frame and word of the n-th word of a controller's devices, in ascending device address; the LPDDR packages take
turns at each address (R400). -/
def patrolPlace (c : Ctl) (n : Nat) : Nat × Nat :=
  match c with
  | .stack0 => (n / 2 ^ 17, n % 2 ^ 17 / 64 * 128 + n % 64)
  | .stack1 => (n / 2 ^ 17, n % 2 ^ 17 / 64 * 128 + 64 + n % 64)
  | _ => (n / 2 ^ 18, n % 2 ^ 18)

def ctlTier (c : Ctl) : Nat :=
  match c with
  | .stack0 => 1
  | .stack1 => 1
  | .lpddr => 2
  | .dimm => 3

/-- Words of a controller's devices. -/
def patrolWords (s : State) (die : Nat) (c : Ctl) : Nat :=
  match c with
  | .stack0 => 49152 * 2 ^ 17
  | .stack1 => 49152 * 2 ^ 17
  | .lpddr => 98304 * 2 ^ 18
  | .dimm => frameCount s die 3 * 2 ^ 18

/-- Whether a controller's devices can be read: its clock runs, and a DIMM has power and has been readied (R412, R426, R665). -/
def scrubbable (s : State) (die : Nat) (c : Ctl) : Bool :=
  !(s.die die).stopped.contains c && (c != .dimm || [Svc.online, .evacuating, .empty].contains (s.die die).socket.svc)

/-- PATROL_SCRUB: the next word read, corrected or reported, while TC_SCRUB.EN is set. -/
def execPatrolScrub (die : Nat) (ctl : Ctl) (s : State) : Host.Outcome State Fault Refusal :=
  atDie s die <|
    let total := patrolWords s die ctl
    if s.fld (ctlPage die ctl) 0x44 0 1 = 0 ∨ total = 0 ∨ s.pstate = .curing ∨ !scrubbable s die ctl then .next s
    else
      let d := s.die die
      let n := d.patrol[ctlIx ctl] % total
      let x := patrolPlace ctl n
      let t := s.setDie die { d with patrol := d.patrol.set (ctlIx ctl) ((n + 1) % total) }
      .next (((t.slotsT die ctl (ctlDest die ctl) 1).tcSlots die ctl 0x60 1).tierRead die (ctlTier ctl) x.1 x.2 1 .scrub).2

/-! ### Counters and candidates (R415 to R417) -/

/-- The access counter the Hod uses: the two stacks' sum in T1, saturated (R415). -/
def heatOf (tier : Nat) (fr : Frame) : Nat :=
  if tier = 1 then min 255 (fr.heat0.toNat + fr.heat1.toNat) else fr.heat0.toNat

/-- A frame's tensor, where the Hod may move it: not reserved, not migrating, TIER_MIN below TIER_MAX (R417). -/
def movable (s : State) (die : Nat) (fr : Frame) : Option Tensor :=
  match fr.use with
  | .seg job handle _ =>
    if fr.migrating then none
    else
      match s.tensor die job handle with
      | .found t => if t.tmin = t.tmax then none else some t
      | _ => none
  | _ => none

/-- An entry put in its place in a list ordered by `before`, which keeps 64. -/
def keep64 (before : Nat × Nat × Nat → Nat × Nat × Nat → Bool) (e : Nat × Nat × Nat) :
    List (Nat × Nat × Nat) → List (Nat × Nat × Nat)
  | [] => [e]
  | x :: r => if before e x then ((e :: x :: r).take 64) else (x :: keep64 before e r).take 64

/-- Hotter first, then the lower tier, then the lower frame; an entry is (counter, tier, frame). -/
def hotter (a b : Nat × Nat × Nat) : Bool :=
  decide (b.1 < a.1) || (a.1 == b.1 && (decide (a.2.1 < b.2.1) || (a.2.1 == b.2.1 && decide (a.2.2 < b.2.2))))

/-- Colder first, then the lower tier, then the lower frame. -/
def colder (a b : Nat × Nat × Nat) : Bool :=
  decide (a.1 < b.1) || (a.1 == b.1 && (decide (a.2.1 < b.2.1) || (a.2.1 == b.2.1 && decide (a.2.2 < b.2.2))))

/-- The candidates of a die after a sweep: promotions and demotions (R417). -/
def pickCandidates (s : State) (die : Nat) : List (Nat × Nat) × List (Nat × Nat) :=
  let promote := s.fld (.hod die) 0x40 0 8
  let demote := s.fld (.hod die) 0x40 8 8
  let all := (s.die die).frames.filterMap fun e =>
    (movable s die e.2).map fun t => (heatOf e.1.1 e.2, e.1.1, e.1.2, t)
  let up := all.filter fun e => decide (promote ≤ e.1) && decide (e.2.2.2.tmin < e.2.1)
  let down := all.filter fun e => decide (e.1 ≤ demote) && decide (e.2.1 < e.2.2.2.tmax)
  ((up.foldl (fun l e => keep64 hotter (e.1, e.2.1, e.2.2.1) l) []).map fun e => e.2,
    (down.foldl (fun l e => keep64 colder (e.1, e.2.1, e.2.2.1) l) []).map fun e => e.2)

/-- The entries of the segments of a die's frames read by its Hod (R410, R417). -/
def readEntries (s : State) (die : Nat) : State :=
  (s.die die).frames.foldl (fun t e => match e.2.use with
    | .seg job handle _ => if e.2.migrating then t else (t.readTensor die job handle).2
    | _ => t) s

/-- DECAY_SWEEP (R416, R417): every counter of the die halved, then the candidates chosen; none in Curing. -/
def execDecaySweep (die : Nat) (s : State) : Host.Outcome State Fault Refusal :=
  atDie s die <|
    if s.pstate = .curing then .next s
    else
      let d := s.die die
      let t := s.setDie die { d with
        frames := d.frames.map fun e => (e.1, { e.2 with heat0 := e.2.heat0 >>> 1, heat1 := e.2.heat1 >>> 1 }) }
      let c := pickCandidates t die
      let u := readEntries t die
      .next (u.setDie die { u.die die with hod := { (u.die die).hod with promo := c.1, demo := c.2 } })

/-! ### Free frames -/

/-- Whether new frames may be taken in a tier of a die (R426): a T3 socket must be ONLINE. -/
def allocates (s : State) (die tier : Nat) : Bool :=
  let d := s.die die
  d.run == .running && !(d.stopped.any fun c => ctlTier c == tier) && (tier != 3 || d.socket.svc == .online)

def usedFrames (s : State) (die tier : Nat) : List Nat :=
  ((s.die die).frames.filter fun e => e.1.1 == tier && e.2.use != .free).map fun e => e.1.2

/-- Free frames of a tier on a die (R434). -/
def freeFrames (s : State) (die tier : Nat) : Nat :=
  if allocates s die tier then
    frameCount s die tier - ((usedFrames s die tier).filter fun f => decide (f < frameCount s die tier)).length
  else 0

/-- The lowest free frame of a tier on a die. -/
def firstFree (s : State) (die tier : Nat) : Option Nat :=
  let used := usedFrames s die tier
  if allocates s die tier then
    (List.range (min (used.length + 1) (frameCount s die tier))).find? fun f => !used.contains f
  else none

/-- The die with the most free frames in a tier, the lowest index on a tie; none without a free frame. -/
def roomiestDie (s : State) (tier : Nat) (ok : Nat → Bool) : Option Nat :=
  (List.range s.part.dies).foldl (fun best d =>
    if !ok d || freeFrames s d tier == 0 then best
    else
      match best with
      | none => some d
      | some b => if freeFrames s b tier < freeFrames s d tier then some d else best) none

/-- The die a move of a tensor goes to in a tier: the source's where it has a free frame, else the roomiest, DIE where the
tensor is pinned (R418). -/
def chooseDie (s : State) (t : Tensor) (src tier : Nat) : Option Nat :=
  if t.pin then (if freeFrames s t.pinDie tier = 0 then none else some t.pinDie)
  else if freeFrames s src tier ≠ 0 then some src
  else roomiestDie s tier fun _ => true

/-- The place an evacuation goes to: T3 of other dies first, then the fastest tier the tensor allows (R418). -/
def evacuationPlace (s : State) (t : Tensor) (src : Nat) : Option (Nat × Nat) :=
  let t3 := if t.tmax = 3 then
      (if t.pin then none else (roomiestDie s 3 fun d => d != src).map fun d => (3, d))
    else none
  match t3 with
  | some x => some x
  | none => [1, 2].findSome? fun tier =>
      if t.tmin ≤ tier ∧ tier ≤ t.tmax then (chooseDie s t src tier).map fun d => (tier, d) else none

/-! ### Migrations (R418 to R423) -/

/-- Concurrent migrations allowed (R434). -/
def maxMig (s : State) (die : Nat) : Nat := min 16 (max 1 (s.fld (.hod die) 0x40 24 5))

/-- Every migration running in the module. -/
def allMoves (s : State) : List Migration := s.dies.toList.flatMap fun d => d.hod.moves

/-- A controller takes part in at most 8 migrations on either side (R418): counted by tier and die, which both stacks of T1
share. -/
def roomFor (s : State) (srcTier srcDie dstTier dstDie : Nat) : Bool :=
  let ms := allMoves s
  decide ((ms.filter fun m => fdTier m.src == srcTier && fdDie m.src == srcDie).length < 8)
    && decide ((ms.filter fun m => fdTier m.dst == dstTier && fdDie m.dst == dstDie).length < 8)

/-- The slots of a copied line at the controller of one of its ends: the copies of a die's Hod are class T (R408, R431). -/
def copySlots (s : State) (die : Nat) (fd : Word) (line : Nat) : State :=
  let c := ctlOf (fdTier fd) (512 * line)
  ((s.slotsT (fdDie fd) c (blockDest 3 die 0) 8).tcSlots (fdDie fd) c 0x60 8).tcSlots (fdDie fd) c 0x68 8

/-- Whether a stored word reads uncorrectable. -/
def State.wordBad (s : State) (fd : Word) (w : Nat) : Bool :=
  let d := s.tierRaw (fdDie fd) (fdTier fd) (fdFrame fd) w
  match secded cols72 8 d.1 d.2 with
  | .ue => true
  | _ => false

/-- One line copied, read at one end in one request and written at the other: a word that reads uncorrectable, or that is lost
with its memory, is written as poison, and MEM_UE is raised once for the line (R410, R411, R419, R423, R429). -/
def copyLine (s : State) (die : Nat) (src dst : Word) (line : Nat) : State :=
  let put := fun (t : State) (w : Nat) (x : Nat) (bad : Bool) =>
    if bad then t.tierPoison (fdDie dst) (fdTier dst) (fdFrame dst) w x
    else t.tierStore (fdDie dst) (fdTier dst) (fdFrame dst) w x
  let c := ctlOf (fdTier src) (512 * line)
  let t := copySlots (copySlots s die src line) die dst line
  if memoryGone s (fdDie src) c then
    (List.range 64).foldl (fun u k => put u (64 * line + k) 0 true) (t.raise (ctlPage (fdDie src) c) evMemUe 0)
  else
    let r := t.tierWords (fdDie src) (fdTier src) (fdFrame src) (64 * line) .copy 64
    let u := if r.1 then r.2.2 else r.2.2.raise (ctlPage (fdDie src) c) evMemUe 0
    (r.2.1.zipIdx).foldl (fun u x =>
      let w := 64 * line + x.2
      put u w (if s.wordBad src w then (s.tierRaw (fdDie src) (fdTier src) (fdFrame src) w).1 else x.1.toNat) (s.wordBad src w)) u

/-- A migration started: its destination taken, its source migrating, every line copied (R419). -/
def startMove (s : State) (die tier frame dstTier dstDie : Nat) (cmd : Bool) : State :=
  match firstFree s dstDie dstTier with
  | none => s
  | some g =>
    let fr := s.frame die tier frame
    let src := mkFd tier die frame fr.gen.toNat
    let dst := mkFd dstTier dstDie g (s.frame dstDie dstTier g).gen.toNat
    let s1 := s.setFrame die tier frame { fr with migrating := true, dirty := [] }
    let s2 := s1.onFrame dstDie dstTier g fun f => { f with use := .dest }
    let s3 := (List.range 4096).foldl (fun t l => copyLine t die src dst l) s2
    let d := s3.die die
    s3.setDie die { d with hod := { d.hod with moves := d.hod.moves ++ [⟨src, dst, cmd⟩] } }

/-- A migration that could start: tier, frame, target tier, target die, and whether it is HOD.CMD's. -/
abbrev Move := Nat × Nat × Nat × Nat × Bool

/-- The evacuations of a socket in service (R418). -/
def evacuations (s : State) (die : Nat) : List Move :=
  let d := s.die die
  if d.socket.svc = .evacuating then
    ((d.frames.filter fun e => e.1.1 == 3 && holdsSeg e.2.use && !e.2.migrating).map fun e => e.1.2).filterMap fun f =>
      match (s.frame die 3 f).use with
      | .seg job handle _ =>
        match s.tensor die job handle with
        | .found t => (evacuationPlace s t die).map fun x => (3, f, x.1, x.2, false)
        | _ => none
      | _ => none
  else []

/-- The move that HOD.CMD has ordered, as it stood at GO (R434). -/
def orderedMove (s : State) (die : Nat) : List Move :=
  match (s.die die).hod.order with
  | none => []
  | some o =>
    match o.use with
    | .seg job handle _ =>
      match s.tensor die job handle with
      | .found t =>
        let dst := match o.die with
          | none => chooseDie s t die o.tier
          | some x => some x
        (dst.map fun x => (fdTier o.src, fdFrame o.src, o.tier, x, true)).toList
      | _ => []
    | _ => []

/-- The moves that the policy wants of a list of candidates (R418). -/
def policyMoves (s : State) (die : Nat) (up : Bool) (l : List (Nat × Nat)) : List Move :=
  let reserve := fun (x tier : Nat) => s.fld (.hod die) 0x40 16 6 * frameCount s x tier / 64
  l.filterMap fun c =>
    match movable s die (s.frame die c.1 c.2) with
    | none => none
    | some t =>
      let dst := if up then c.1 - 1 else c.1 + 1
      if dst < t.tmin ∨ t.tmax < dst then none
      else
        match chooseDie s t die dst with
        | none => none
        | some x =>
          if up then (if reserve x dst < freeFrames s x dst then some (c.1, c.2, dst, x, false) else none)
          else if freeFrames s die c.1 < reserve die c.1 then some (c.1, c.2, dst, x, false) else none

/-- Whether a move can start: its controllers have room, and its destination a free frame (R418). -/
def canStart (s : State) (die : Nat) (m : Move) : Bool :=
  roomFor s m.1 die m.2.2.1 m.2.2.2.1 && (firstFree s m.2.2.2.1 m.2.2.1).isSome

/-- The next migration of a die: the first in the order of R418 that can start. -/
def nextMove (s : State) (die : Nat) : Option Move :=
  let h := (s.die die).hod
  let auto := if s.fld (.hod die) 0x40 31 1 = 1 then policyMoves s die false h.demo ++ policyMoves s die true h.promo else []
  (evacuations s die ++ orderedMove s die ++ auto).find? (canStart s die)

def State.setOrder (s : State) (die : Nat) (o : Option HodOrder) : State :=
  s.setDie die { s.die die with hod := { (s.die die).hod with order := o } }

/-- The end of an ordered move: BUSY clears and RESULT says how (R434). -/
def cmdDone (s : State) (die result : Nat) : State :=
  ((s.setOrder die none).setFld (.hod die) 0x54 7 1 0).setFld (.hod die) 0x54 8 3 result

/-- An ordered move that has not started ends where its segment is migrating by now, RESULT 2, or has left its frame, RESULT 4
(R423, R434). -/
def settleCmd (s : State) (die : Nat) : State :=
  match (s.die die).hod.order with
  | none => s
  | some o =>
    let fr := s.frame die (fdTier o.src) (fdFrame o.src)
    if fr.migrating then cmdDone s die 2 else if fr.use = o.use then s else cmdDone s die 4

/-- A move begun: the entry of its tensor read, an ordered one ordered no more (R410, R418, R434). -/
def beginMove (s : State) (die : Nat) (m : Move) : State :=
  let t := match (s.frame die m.1 m.2.1).use with
    | .seg job handle _ => (s.readTensor die job handle).2
    | _ => s
  startMove (if m.2.2.2.2 then t.setOrder die none else t) die m.1 m.2.1 m.2.2.1 m.2.2.2.1 m.2.2.2.2

/-- MIGRATION_START (R418, R419); none while the Mason restarts (R47). -/
def execMigrationStart (die : Nat) (s : State) : Host.Outcome State Fault Refusal :=
  atDie s die <|
    let t := settleCmd s die
    if !s.mas.ready ∨ maxMig t die ≤ (t.die die).hod.moves.length then .next t
    else
      match nextMove t die with
      | some m => .next (beginMove t die m)
      | none => .next t

/-- A released frame: its generation advances, and it is kept out of use for the reuse delay (R424). -/
def releaseFrame (s : State) (fd : Word) : State :=
  s.onFrame (fdDie fd) (fdTier fd) (fdFrame fd) fun f =>
    { f with gen := f.gen + 1, use := .cooling, migrating := false, dirty := [] }

/-- The map rewritten: the segment list in T1, the segment forgotten in every map cache (R419, R421). -/
def writeMap (s : State) (die : Nat) (job : Half) (handle : BitVec 20) (seg : Nat) (fd : Word) : State :=
  let s1 := match s.readTensor die job handle with
    | (.found t, u) => u.tierHalf t.seglist (4 * seg) fd .request
    | (_, u) => u
  s1.forget job handle seg

/-- A socket's change of state: DIMM_SVC is raised (R426). -/
def State.setSvc (s : State) (die : Nat) (f : Socket → Socket) : State :=
  let d := s.die die
  let t := s.setDie die { d with socket := f d.socket }
  if (f d.socket).svc = d.socket.svc then t else t.raise (.dmc die) evDimmSvc 0

/-- Frames in use on a socket (R432). -/
def svcLeft (s : State) (die : Nat) : Nat :=
  ((s.die die).frames.filter fun e => e.1.1 == 3 && (holdsSeg e.2.use || e.2.use == .dest)).length

/-- EVACUATING becomes EMPTY when no frame is left to move (R426). -/
def settleSocket (s : State) (die : Nat) : State :=
  if (s.die die).socket.svc = .evacuating ∧ svcLeft s die = 0 then s.setSvc die fun k => { k with svc := .empty } else s

/-- A migration's switch: dirty lines copied, the map rewritten, the source released (R419, R420). -/
def switchMove (s : State) (die : Nat) (m : Migration) : State :=
  let fr := s.frame (fdDie m.src) (fdTier m.src) (fdFrame m.src)
  let s1 := fr.dirty.foldl (fun t l => copyLine t die m.src m.dst l) s
  let s2 := match fr.use with
    | .seg job handle seg =>
      (writeMap s1 die job handle seg m.dst).onFrame (fdDie m.dst) (fdTier m.dst) (fdFrame m.dst) fun f =>
        { f with use := .seg job handle seg }
    | _ => s1
  let s3 := releaseFrame s2 m.src
  let d := s3.die die
  let s4 := s3.setDie die { d with hod := { d.hod with moves := d.hod.moves.erase m } }
  let s5 := if perfFrozen s4 (.hod die) 0x80 then s4 else s4.perfAdd (.hod die) 0x68 1
  let s6 := if m.cmd then cmdDone s5 die 1 else s5
  settleSocket s6 (fdDie m.src)

/-- Whether an accepted request to a frame is in progress: in one of its controllers' queues (R419). -/
def frameAsked (s : State) (fd : Word) : Bool :=
  [Ctl.stack0, .stack1, .lpddr, .dimm].any fun c => ctlTier c == fdTier fd &&
    (s.tierQueue (fdDie fd) c).reqs.any fun x => match x.1.body with
      | .mread r => r.fd = fd
      | .mwrite r _ _ _ => r.fd = fd
      | _ => false

/-- MIGRATION_SWITCH: the idx-th running migration of the die, once no accepted request to its source is in progress (R419);
none while the Mason restarts (R47). -/
def execMigrationSwitch (die idx : Nat) (s : State) : Host.Outcome State Fault Refusal :=
  atDie s die <|
    match (s.die die).hod.moves[idx]? with
    | some m => .next (if !s.mas.ready || frameAsked s m.src then s else switchMove s die m)
    | none => .next s

/-- A migration not yet switching given up: its destination released, the map unchanged (R422). -/
def abortMove (s : State) (die : Nat) (m : Migration) : State :=
  let s1 := releaseFrame s m.dst
  let s2 := s1.onFrame (fdDie m.src) (fdTier m.src) (fdFrame m.src) fun f => { f with migrating := false, dirty := [] }
  let d := s2.die die
  let s3 := s2.setDie die { d with hod := { d.hod with moves := d.hod.moves.erase m } }
  if m.cmd then cmdDone s3 die 5 else s3

/-- MIGRATION_ABORT: the idx-th running migration of the die. -/
def execMigrationAbort (die idx : Nat) (s : State) : Host.Outcome State Fault Refusal :=
  atDie s die <|
    match (s.die die).hod.moves[idx]? with
    | some m => .next (abortMove s die m)
    | none => .next s

/-- FRAME_REUSE (R424): the reuse delay of a released frame is over. -/
def execFrameReuse (die tier frame : Nat) (s : State) : Host.Outcome State Fault Refusal :=
  atDieIf s die (decide (1 ≤ tier ∧ tier ≤ 3)) <|
    if (s.frame die tier frame).use = .cooling then .next (s.onFrame die tier frame fun f => { f with use := .free })
    else .next s

/-- A write of HOD.CMD: its fields stored, and with GO the move judged and ordered (R423, R434). -/
def hodCmd (s : State) (die : Nat) (v : Word) : State :=
  let p := Page.hod die
  let s1 := s.setFld p 0x54 0 6 (bits v 0 6)
  if !bit v 6 || s.fld p 0x54 7 1 == 1 then s1
  else
    let src := s1.reg p 0x50
    let tier := bits v 0 2
    let fr := s1.frame die (fdTier src) (fdFrame src)
    if fdDie src ≠ die ∨ fdTier src = 0 then s1.setFld p 0x54 8 3 4
    else if fr.migrating then s1.setFld p 0x54 8 3 2
    else
      match fr.use with
      | .seg job handle _ =>
        match s1.readTensor die job handle with
        | (.found t, s2) =>
          let dst := if bit v 5 then chooseDie s1 t die tier else some (bits v 2 3)
          if tier = 0 ∨ tier < t.tmin ∨ t.tmax < tier ∨ (t.pin ∧ !bit v 5 ∧ bits v 2 3 ≠ t.pinDie) then s2.setFld p 0x54 8 3 4
          else
            match dst with
            | none => s2.setFld p 0x54 8 3 3
            | some x =>
              if s.part.dies ≤ x ∨ freeFrames s1 x tier = 0 then s2.setFld p 0x54 8 3 3
              else
                ((s2.setOrder die (some ⟨src, fr.use, tier, if bit v 5 then none else some x⟩)).setFld p 0x54 8 3 0).setFld
                  p 0x54 7 1 1
        | (_, s2) => s2.setFld p 0x54 8 3 4
      | _ => s1.setFld p 0x54 8 3 4

/-- HOD_CMD_GO (R434): the move HOD.CMD orders. -/
def execHodCmdGo (die : Nat) (v : Word) (s : State) : Host.Outcome State Fault Refusal :=
  atDie s die (.next (hodCmd s die v))

/-! ### The T3 socket (R425 to R429, R432) -/

/-- An event of a die's socket, which is watched while the module has power, in Curing too, unless the die is held (R426,
R655). -/
def onSocket (s : State) (die : Nat) (f : State → State) : Host.Outcome State Fault Refusal :=
  if die < s.part.dies then .next (if powered s && !dieHeld s die then f s else s) else .fault .noSuchBlock

/-- Migrations toward a die's socket aborted (R422). -/
def abortToward (s : State) (die : Nat) : State :=
  (List.range s.part.dies).foldl (fun t d =>
    ((t.die d).hod.moves.filter fun m => fdTier m.dst == 3 && fdDie m.dst == die).foldl (fun u m => abortMove u d m) t) s

/-- SVC_CTRL.EVACUATE: an ONLINE socket is emptied, and migrations toward it are aborted (R422, R432). -/
def socketEvacuate (s : State) (die : Nat) : State :=
  if (s.die die).socket.svc = .online then
    settleSocket (abortToward (s.setSvc die fun k => { k with svc := .evacuating }) die) die
  else s

/-- SVC_CTRL.CANCEL. -/
def socketCancel (s : State) (die : Nat) : State :=
  if (s.die die).socket.svc = .evacuating then s.setSvc die fun k => { k with svc := .online } else s

/-- SVC_CTRL.READMIT: rails on, the SPD read (R426). -/
def socketReadmit (s : State) (die : Nat) : State :=
  if (s.die die).socket.svc = .present then
    s.setSvc die fun k => { k with svc := .training, power := true, spdRead := true, reason := 0 }
  else s

/-- DIMM_EVACUATE (R432). -/
def execDimmEvacuate (die : Nat) (s : State) : Host.Outcome State Fault Refusal := atDie s die (.next (socketEvacuate s die))

/-- DIMM_CANCEL (R432). -/
def execDimmCancel (die : Nat) (s : State) : Host.Outcome State Fault Refusal := atDie s die (.next (socketCancel s die))

/-- DIMM_READMIT (R432). -/
def execDimmReadmit (die : Nat) (s : State) : Host.Outcome State Fault Refusal := atDie s die (.next (socketReadmit s die))

/-- DIMM_SAFE (R426): an EMPTY socket's rails go off and its indicator on. -/
def execDimmSafe (die : Nat) (s : State) : Host.Outcome State Fault Refusal :=
  onSocket s die fun t =>
    if (t.die die).socket.svc = .empty then
      t.setSvc die fun k => { k with svc := .safe, power := false, indicator := true }
    else t

/-- DIMM_PRESENT (R426): presence has held for 500 ms. -/
def execDimmPresent (die : Nat) (d : Dimm) (s : State) : Host.Outcome State Fault Refusal :=
  onSocket s die fun t =>
    if (t.die die).socket.svc = .absent then
      t.setSvc die fun k => { k with svc := .present, presence := true, dimm := some d, spdRead := false, reason := 0 }
    else t

/-- The socket without its DIMM. -/
def socketEmptied (k : Socket) : Socket :=
  { k with svc := .absent, presence := false, power := false, indicator := false, dimm := none, spdRead := false }

/-- DIMM_REMOVED (R426): presence drops in SAFE or REJECTED, or a LOST socket's rails are off. -/
def execDimmRemoved (die : Nat) (s : State) : Host.Outcome State Fault Refusal :=
  onSocket s die fun t =>
    let v := (t.die die).socket.svc
    if v = .safe ∨ v = .rejected ∨ v = .lost then t.setSvc die socketEmptied else t

/-- A rejected DIMM: rails off, REASON set (R428). -/
def socketReject (s : State) (die : Nat) (reason : BitVec 4) : State :=
  s.setSvc die fun k => { k with svc := .rejected, power := false, reason := reason }

/-- DIMM_TRAINING_DONE (R397, R428). -/
def execDimmTrainingDone (die : Nat) (ok : Bool) (s : State) : Host.Outcome State Fault Refusal :=
  onSocket s die fun t =>
    let k := (t.die die).socket
    if k.svc ≠ .training then t
    else
      match k.dimm with
      | none => t
      | some d =>
        if !d.ecc then socketReject t die 4
        else if d.cap = 0 ∨ d.rate.toNat < 5600 then socketReject t die 5
        else if !ok then socketReject t die 6
        else t.setSvc die fun k => { k with svc := .init }

/-- DIMM_INIT_DONE (R426, R428): every word written with zero, then read back; the frames of an emptied or lost DIMM have been
released before. -/
def execDimmInitDone (die : Nat) (ok : Bool) (s : State) : Host.Outcome State Fault Refusal :=
  onSocket s die fun t =>
    if (t.die die).socket.svc ≠ .init then t
    else
      let d := t.die die
      let u := t.setDie die { d with tiers := d.tiers.set (2 : Fin 3) [] }
      if ok then u.setSvc die fun k => { k with svc := .online, gone := false } else socketReject u die 7

/-- DIMM_LOST (R429): rails off, every later request poisoned, migrations toward the socket aborted for want of a destination
that can be written (R422), DIMM_LOST raised once. -/
def execDimmLost (die : Nat) (s : State) : Host.Outcome State Fault Refusal :=
  onSocket s die fun t =>
    let v := (t.die die).socket.svc
    if v = .safe ∨ v = .absent ∨ v = .rejected ∨ v = .lost then t
    else
      (abortToward (t.setSvc die fun k => { k with svc := .lost, presence := false, power := false, gone := true }) die).raise
        (.dmc die) evDimmLost 0

end Sys2Proof.Machine
end

