-- ==== Sys2Proof/Machine/Access.lean ====
section
/-! DEFINITION. Reads and writes of tensors by a block: the lookup at its die's Hod and one request for each line (R403 to
R406), with their answers. -/

namespace Sys2Proof.Machine

/-- A block that reads or writes a tensor: its die, its destination, and how TC_UE_INFO names it (R431). -/
structure Agent where
  die : Nat
  dest : Dest
  src : TierSrc
  deriving DecidableEq, Repr

/-- What comes of a request. -/
inductive Got where
  | data (ws : List DWord)
  | poison
  | refused
  /-- a lintel on the way is down, an earlier request to the line is not served yet (R407), or the request would be answered MOVED
  and asked again -/
  | wait
  deriving DecidableEq, Repr

/-- A request of an agent put to its controller: what it would answer, and the state once the request has gone; MOVED also where
an earlier request to the line is not served yet (R407). -/
def askTier (s : State) (fd : Word) (off n : Nat) (req : Packet) : TierStatus × State :=
  let c := ctlOf (fdTier fd) off
  let t := s.countCrossings req
  if s.lineHeld (fdDie fd) c fd off then (.moved, s)
  else
    match requestStatus s (fdDie fd) c fd off n with
    | .ok =>
      (.ok, ((t.heat (fdDie fd) (fdTier fd) (fdFrame fd) off).slotsT (fdDie fd) c req.src (slotCount (off / 8) n)).tcSlots
        (fdDie fd) c 0x60 (slotCount (off / 8) n))
    | .moved => (.moved, s)
    | x => (x, t.turnAway (fdDie fd) c x)

/-- A class T read of n words of one line, and its response (R406, R410). -/
def accessRead (s : State) (g : Agent) (fd : Word) (off n : Nat) : Got × State :=
  let req : Packet := ⟨2, ctlDest (fdDie fd) (ctlOf (fdTier fd) off), g.dest, false,
    .mread ⟨0, BitVec.ofNat 21 off, BitVec.ofNat 6 (n - 1), fd⟩⟩
  if !routeUp s req then (.wait, s)
  else
    match askTier s fd off n req with
    | (.moved, _) => (.wait, s)
    | (.poison, t) => (.poison, t)
    | (.refused, t) => (.refused, t)
    | (.ok, t) =>
      match t.tierRead (fdDie fd) (fdTier fd) (fdFrame fd) (off / 8) n g.src with
      | (some ws, u) => (.data ws, u.countCrossings (replyTo req (.mresp 0 0 0 0 0 ws)))
      | (none, u) => (.poison, u.countCrossings (replyTo req (.mresp 0 2 0 0 0 [])))

/-- A class T write of whole words within one line, and its acknowledgement. -/
def accessWrite (s : State) (g : Agent) (fd : Word) (off : Nat) (data : List DWord) : Got × State :=
  let n := data.length
  let req : Packet := ⟨2, ctlDest (fdDie fd) (ctlOf (fdTier fd) off), g.dest, false,
    .mwrite ⟨0, BitVec.ofNat 21 off, BitVec.ofNat 6 (n - 1), fd⟩ false data []⟩
  if !routeUp s req then (.wait, s)
  else
    match askTier s fd off n req with
    | (.moved, _) => (.wait, s)
    | (.poison, t) => (.poison, t)
    | (.refused, t) => (.refused, t)
    | (.ok, t) =>
      (.data [], (t.tierWrite (fdDie fd) (fdTier fd) (fdFrame fd) (off / 8) data []).countCrossings (replyTo req (.mack 0 0)))

/-- The lines that n words of a tensor from word w on cover, one request each. -/
def accessTensor (g : Agent) (job : Half) (handle : BitVec 20) : Nat → Nat → Nat → State → Got × State
  | 0, _, _, s => (.data [], s)
  | fuel + 1, w, n, s =>
    if n = 0 then (.data [], s)
    else
      match s.lookup g.die job handle (w / 2 ^ 18) with
      | (.missing, t) => (.refused, t)
      | (.poison, t) => (.poison, t)
      | (.found fd, t) =>
        let k := min n (64 - w % 64)
        match accessRead t g fd (8 * (w % 2 ^ 18)) k with
        | (.data a, u) =>
          (match accessTensor g job handle fuel (w + k) (n - k) u with
           | (.data b, x) => (.data (a ++ b), x)
           | r => r)
        | r => r

/-- Words w to w + n − 1 of a tensor. -/
def accessWords (s : State) (g : Agent) (job : Half) (handle : BitVec 20) (w n : Nat) : Got × State :=
  accessTensor g job handle (n / 64 + 2) w n s

/-- Words written to a tensor from word w on, one request a line: what came of it, and how many words were written. -/
def accessPut (g : Agent) (job : Half) (handle : BitVec 20) : Nat → Nat → List DWord → State → Got × Nat × State
  | 0, _, _, s => (.data [], 0, s)
  | fuel + 1, w, data, s =>
    if data.isEmpty then (.data [], 0, s)
    else
      match s.lookup g.die job handle (w / 2 ^ 18) with
      | (.missing, t) => (.refused, 0, t)
      | (.poison, t) => (.poison, 0, t)
      | (.found fd, t) =>
        let k := min data.length (64 - w % 64)
        match accessWrite t g fd (8 * (w % 2 ^ 18)) (data.take k) with
        | (.data _, u) => let r := accessPut g job handle fuel (w + k) (data.drop k) u; (r.1, k + r.2.1, r.2.2)
        | (x, u) => (x, 0, u)

end Sys2Proof.Machine
end

