-- ==== Sys2Proof/Machine/Jeham.lean ====
section
/-! DEFINITION. Jeham ports (R546 to R567, R578): frames with their sequence, replay and credits, training and failure,
tunnels, and reductions in flight. -/

namespace Sys2Proof.Machine

def jhlIx (k : Nat) : Fin 2 := ⟨k % 2, Nat.mod_lt k (by decide)⟩

def State.jhl (s : State) (d k : Nat) : Jhl := (s.die d).jhl[jhlIx k]

def State.setJhl (s : State) (d k : Nat) (x : Jhl) : State :=
  s.setDie d { s.die d with jhl := (s.die d).jhl.set (jhlIx k) x }

def State.onJhl (s : State) (d k : Nat) (f : Jhl → Jhl) : State := s.setJhl d k (f (s.jhl d k))

/-- A port's address (R546). -/
def jhlDest (d k : Nat) : Dest := blockDest 5 d k

def setJhlState (s : State) (d k v : Nat) : State := s.setFld (.jhl d k) 0x40 0 3 v

/-- The port is UP, at full rate or in keep-alive. -/
def jhlUp (s : State) (d k : Nat) : Bool := jhlState s d k == 2 || jhlState s d k == 3

/-- Frames pass: the port is UP and does not retrain (R554, R566). -/
def jhlOpen (s : State) (d k : Nat) : Bool := jhlUp s d k && !(s.jhl d k).retrains

/-- Training begins: the port sends what the peer needs to know (R554). -/
def jhlTrains (s : State) (d k : Nat) : State :=
  s.emit (.jehamTraining d k s.serial (2 * d + k) (s.jhl d k).rxSeq)

/-- A field of which 0 acts as 1. -/
def atLeast1 (n : Nat) : Nat := max 1 n

/-! ### Units, lanes and credits (R548, R552, R562) -/

/-- Flits of a unit: a segment is a head flit and 32 of data. -/
def unitFlits (u : JUnit) : Nat :=
  match u with
  | .pkt p => flitsOf p.body
  | .seg _ _ _ _ _ => 33

/-- The lane a unit travels on, as CREDIT orders them; VC0 never crosses (R28). -/
def unitLane (u : JUnit) : Option Nat :=
  match u with
  | .pkt p => if p.vc = 0 then none else some (2 * (p.vc.toNat - 1) + b2n (isReply p.body))
  | .seg _ _ _ _ _ => some 2

/-- Depth of the receive buffer of a lane (R552). -/
def laneDepth (lane : Nat) : Nat :=
  match lane / 2 with
  | 0 => 256
  | 1 => 4096
  | _ => 64

/-- A credit owed to the peer for a unit that has left the receive buffer. -/
def oweUnit (x : Jhl) (u : JUnit) : Jhl :=
  match unitLane u with
  | some l => { x with owed := x.owed.set l (x.owed.getD l 0 + unitFlits u) }
  | none => x

/-- Units that go now, in order within each lane: as far as credits and the room of one frame reach; in keep-alive those of
VC3 alone (R565). A unit longer than a frame goes by itself. -/
def pickUnits (alive : Bool) : List JUnit → List Nat → List Nat → Nat → Bool → List JUnit × List JUnit × List Nat
  | [], credits, _, _, _ => ([], [], credits)
  | u :: r, credits, blocked, room, first =>
    let n := unitFlits u
    let goes := match unitLane u with
      | none => none
      | some l =>
        if blocked.contains l || (alive && decide (l < 4)) || decide (credits.getD l 0 < n)
          || !(decide (n ≤ room) || first) then none
        else some l
    match goes with
    | some l =>
      let x := pickUnits alive r (credits.set l (credits.getD l 0 - n)) blocked (room - n) false
      (u :: x.1, x.2.1, x.2.2)
    | none =>
      let x := pickUnits alive r credits (match unitLane u with
        | some l => l :: blocked
        | none => blocked) room first
      (x.1, u :: x.2.1, x.2.2)

/-- Flits a frame holds at full rate and in keep-alive (R548, R565). -/
def frameRoom (alive : Bool) : Nat := if alive then 9 else 39

/-! ### Loss (R551, R555) -/

/-- A port leaves UP and retrains; JHL_LINK_DOWN is raised once. -/
def jhlDown (s : State) (d k : Nat) : State :=
  if jhlUp s d k then
    jhlTrains (((setJhlState s d k 1).onJhl d k fun x => { x with retrains := false }).raise (.jhl d k) evJhlLinkDown 0) d k
  else s

/-- The frames not acknowledged resent as they are (R551). -/
def resendFrames (s : State) (d k : Nat) : State := (s.jhl d k).replay.foldl (fun t f => t.emit (.jeham d k f)) s

/-- A replay, or the down event where REPLAY_MAX of them have brought no acknowledgement. -/
def jhlReplay (s : State) (d k : Nat) : State :=
  let x := s.jhl d k
  if x.replay.isEmpty then s
  else if atLeast1 (s.fld (.jhl d k) 0x50 12 4) ≤ x.barren then jhlDown s d k
  else resendFrames ((s.onJhl d k fun x => { x with barren := x.barren + 1 }).count16 (.jhl d k) 0x58 0 1) d k

/-! ### Sending (R549 to R552) -/

/-- Frames that carry units of n flits: one at least. -/
def framesFor (alive : Bool) (n : Nat) : Nat := atLeast1 ((n + frameRoom alive - 1) / frameRoom alive)

/-- n frames put on the link: the first carries NAK and the credits, the last the units and LM. -/
def putFrames (d k : Nat) (f : JFrame) : Nat → State → State
  | 0, s => s
  | n + 1, s =>
    let x := s.jhl d k
    let f1 : JFrame := { f with seq := x.txSeq, ack := x.rxSeq }
    let f1 := if n = 0 then f1 else { f1 with lm := 0, units := [] }
    putFrames d k { f with nak := false, credit := [0, 0, 0, 0, 0, 0] } n ((s.setJhl d k { x with txSeq := x.txSeq + 1, replay := x.replay ++ [f1] }).emit (.jeham d k f1))

/-- A replay that a NAK or the timeout asks for. Where the other has just started one, no frame having come since, the two make
one (R567). -/
def jhlAskReplay (s : State) (d k : Nat) (nak : Bool) : State :=
  if (s.jhl d k).replayed = some (!nak) then s.onJhl d k fun x => { x with replayed := none }
  else jhlReplay (s.onJhl d k fun x => { x with replayed := some nak }) d k

/-- What a port sends in its turn: a replay while 2,048 frames are unacknowledged, otherwise a frame with the units,
credits, NAK and LM that are due. -/
def jhlSend (s : State) (d k : Nat) : State :=
  if !jhlOpen s d k then s
  else
    let alive := jhlState s d k == 3
    let x := s.jhl d k
    let q := pickUnits alive x.held x.credits [] (frameRoom alive) true
    let n := (q.1.map unitFlits).foldl (· + ·) 0
    if 2048 < x.replay.length + framesFor alive n then jhlReplay s d k
    else
      let f : JFrame := ⟨0, 0, x.nakDue, x.owed.map (min 255), x.lms.headD 0, q.1⟩
      let t := s.setJhl d k { x with
        held := q.2.1, credits := q.2.2, owed := x.owed.map fun c => c - min 255 c, lms := x.lms.drop 1
        nakDue := false, nakSent := x.nakSent || x.nakDue }
      (putFrames d k f (framesFor alive n) t).perfAdd (.jhl d k) 0x60 n

/-- A unit given to a port to be sent. -/
def jhlHold (s : State) (d k : Nat) (u : JUnit) : State := s.onJhl d k fun x => { x with held := x.held ++ [u] }

/-! ### Receiving (R550 to R552, R556, R557, R566) -/

/-- ACK acted on: the frames before it are acknowledged. -/
def jhlAck (x : Jhl) (ack : BitVec 12) : Jhl :=
  match x.replay with
  | [] => x
  | f :: _ =>
    let n := (ack - f.seq).toNat
    if 1 ≤ n ∧ n ≤ x.replay.length then { x with replay := x.replay.drop n, barren := 0 } else x

/-- Credits returned by the peer, at most the depth of its buffers. -/
def jhlCredit (x : Jhl) (credit : List Nat) : Jhl :=
  { x with credits := (List.range 6).map fun l => min (laneDepth l) (x.credits.getD l 0 + credit.getD l 0) }

/-- Keep-alive left: the port stays UP and retrains at full rate (R554, R566). -/
def jhlLeaves (s : State) (d k : Nat) : State :=
  jhlTrains ((setJhlState s d k 2).onJhl d k fun x => { x with retrains := true }) d k

/-- An LM acted on (R556, R565, R566): a heartbeat re-arms JHL_PEER_LOST; a wake request in keep-alive is for the Mason; 4
enters keep-alive with SEQ from 0, and 5 leaves it. -/
def jhlLm (s : State) (d k : Nat) (lm : BitVec 4) : State :=
  if lm = 1 then s.onJhl d k fun x => { x with lost := false }
  else if lm = 2 ∧ jhlState s d k = 3 then s.raise (.jhl d k) evJhlWake 0
  else if lm = 4 ∧ jhlState s d k = 2 then
    (setJhlState s d k 3).onJhl d k fun x => { x with txSeq := 0, rxSeq := 0, replay := [] }
  else if lm = 5 ∧ jhlState s d k = 3 then jhlLeaves s d k
  else s

/-- A unit that an accepted frame brings: a CRET or a segment waits to be acted on; anything else is injected at once, its
SRC the port (R557). -/
def jhlUnit (d k : Nat) (s : State) (u : JUnit) : State :=
  let t := s.perfAdd (.jhl d k) 0x68 (unitFlits u)
  match u with
  | .seg _ _ _ _ _ => t.onJhl d k fun x => { x with rx := x.rx ++ [u] }
  | .pkt p =>
    match p.body with
    | .cret _ _ => t.onJhl d k fun x => { x with rx := x.rx ++ [u] }
    | _ => (t.onJhl d k fun x => oweUnit x u).sendOr1 { p with src := jhlDest d k }

/-- A frame that is not accepted: counted, and NAK set in the next frame unless it has been since a frame was accepted. -/
def jhlRefuse (s : State) (d k : Nat) : State :=
  (s.count16 (.jhl d k) 0x54 16 1).onJhl d k fun x => { x with nakDue := x.nakDue || !x.nakSent, replayed := none }

/-- An accepted frame: expected SEQ advances, then its units, credits, ACK, NAK and LM are acted on (R550, R551). -/
def jhlAccept (s : State) (d k : Nat) (f : JFrame) : State :=
  let s1 := s.onJhl d k fun x => { x with rxSeq := x.rxSeq + 1, nakSent := false }
  let s2 := f.units.foldl (jhlUnit d k) s1
  let s3 := s2.onJhl d k fun x => jhlAck (jhlCredit x f.credit) f.ack
  let s4 := if f.nak then jhlAskReplay s3 d k true else s3.onJhl d k fun x => { x with replayed := none }
  jhlLm s4 d k f.lm

/-- A frame received, and the frame of the same 8 ns sent (R550): `errors` are the byte errors of its blocks, of which the code
corrects up to 12 each (R547), and `good` says that the lanes are locked and the CRC checks. -/
def jhlFrame (s : State) (d k : Nat) (good : Bool) (errors : List Nat) (f : JFrame) : State :=
  let decodes := errors.all fun e => decide (e ≤ 12)
  let t := if decodes && errors.any fun e => decide (0 < e) then s.count16 (.jhl d k) 0x54 0 1 else s
  let x := t.jhl d k
  let good := good && decodes
  let u :=
    if good && f.seq == x.rxSeq then jhlAccept t d k f
    else if good && decide (2048 ≤ (f.seq - x.rxSeq).toNat) then t.onJhl d k fun x => { x with replayed := none }
    else jhlRefuse t d k
  jhlSend u d k

/-- A command of a Jeham port. -/
def onPort (s : State) (d k : Nat) (go : State) : Host.Outcome State Fault Refusal :=
  atPortIf s d (decide (k < 2)) (.next go)

/-- JHL_FRAME_RECEIVE (R547, R550). -/
def execJhlFrameReceive (die port : Nat) (good : Bool) (corrected : List Nat) (f : JFrame) (s : State) :
    Host.Outcome State Fault Refusal :=
  onPort s die port (if jhlOpen s die port then jhlFrame s die port good corrected f else s)

/-- REPLAY_TIMEOUT (R551). -/
def execReplayTimeout (die port : Nat) (s : State) : Host.Outcome State Fault Refusal :=
  onPort s die port (if jhlOpen s die port && !(s.jhl die port).replay.isEmpty then jhlAskReplay s die port false else s)

/-- JHL_LINK_DOWN (R555). -/
def execJhlLinkDown (die port : Nat) (s : State) : Host.Outcome State Fault Refusal :=
  onPort s die port (jhlDown s die port)

/-- Training has ended (R554): the peer is shown, and replay goes on from the SEQ it expects. -/
def jhlTrained (s : State) (d k : Nat) (serial : DWord) (peer : BitVec 4) (expected : BitVec 12) : State :=
  if jhlState s d k ≠ 1 ∧ !(s.jhl d k).retrains then s
  else
    let p := Page.jhl d k
    let s1 := ((setJhlState s d k 2).setPair p 0x44 serial.toNat).setFld p 0x4C 0 4 peer.toNat
    let s2 := s1.onJhl d k fun x =>
      let y := jhlAck x expected
      { y with
        txSeq := if y.replay.isEmpty then expected else y.txSeq
        barren := 0, nakDue := false, nakSent := false, wasUp := true, retrains := false, replayed := none
        trainedAt := if x.wasUp then some s.time else none }
    resendFrames s2 d k

/-- JHL_TRAINED (R554). -/
def execJhlTrained (die port : Nat) (serial : DWord) (peer : BitVec 4) (expected : BitVec 12) (s : State) :
    Host.Outcome State Fault Refusal :=
  onPort s die port (jhlTrained s die port serial peer expected)

/-- The held flits and the replay buffer discarded and counted in ERRS.UE; the credits are then as after reset (R555,
R674). -/
def jhlDiscard (s : State) (d k : Nat) : State :=
  let x := s.jhl d k
  let n := (x.held.map unitFlits).foldl (· + ·) 0 + x.replay.length
  (s.count16 (.jhl d k) 0x54 16 n).setJhl d k { x with
    held := [], replay := [], credits := (List.range 6).map laneDepth, owed := [0, 0, 0, 0, 0, 0], barren := 0, lms := [] }

/-- The flits that a port holds on the Mortar discarded and counted in ERRS.UE (R555). -/
def jhlDrop (s : State) (d k : Nat) : State :=
  let mine := fun (p : Packet) => p.dest == jhlDest d k
  let n := ((s.net.filter mine).map fun p => flitsOf p.body).foldl (· + ·) 0
  { s.count16 (.jhl d k) 0x54 16 n with net := s.net.filter fun p => !mine p }

/-- Whether a retrain ended in the present millisecond (R567). -/
def jhlJustUp (s : State) (d k : Nat) : Bool :=
  jhlState s d k == 2 && (match (s.jhl d k).trainedAt with
    | some t => t.toNat / 1000000 == s.time.toNat / 1000000
    | none => false)

/-- JHL_FAIL (R555, R567): a port that has been UP is not UP again within JHL.TIMEOUT, or its retrain ended in the millisecond in
which that time was over. -/
def execJhlFail (die port : Nat) (s : State) : Host.Outcome State Fault Refusal :=
  onPort s die port <|
    if (jhlState s die port = 1 ∧ (s.jhl die port).wasUp) ∨ jhlJustUp s die port = true then
      (jhlDiscard (jhlDrop (setJhlState s die port 4) die port) die port).raise (.jhl die port) evJhlFail 0
    else s

/-- LINKCFG.RETRAIN: a FAILED port trains again (R555). -/
def jhlRetrain (s : State) (d k : Nat) : State :=
  if jhlState s d k = 4 then jhlTrains ((setJhlState s d k 1).onJhl d k fun x => { x with wasUp := false }) d k else s

/-- JHL_RETRAIN (R555). -/
def execJhlRetrain (die port : Nat) (s : State) : Host.Outcome State Fault Refusal :=
  onPort s die port (jhlRetrain s die port)

/-- An LM put in a port's next frame, which goes now, or once its retraining has ended. -/
def sendLm (s : State) (d k : Nat) (lm : BitVec 4) : State :=
  if jhlUp s d k then jhlSend (s.onJhl d k fun x => { x with lms := x.lms ++ [lm] }) d k else s

/-- HEARTBEAT_SEND (R556). -/
def execHeartbeatSend (die port : Nat) (s : State) : Host.Outcome State Fault Refusal :=
  onPort s die port (sendLm s die port 1)

/-- JHL_PEER_LOST (R556): raised once until a heartbeat comes. -/
def execJhlPeerLost (die port : Nat) (s : State) : Host.Outcome State Fault Refusal :=
  onPort s die port <|
    if jhlUp s die port ∧ !(s.jhl die port).lost then
      (s.onJhl die port fun x => { x with lost := true }).raise (.jhl die port) evJhlPeerLost 0
    else s

/-- A page's CTRL.ENABLE written: an enabled port trains, a disabled one is down (R554, R674). -/
def jhlEnable (s : State) (d k : Nat) (on : Bool) : State :=
  let t := s.setFld (.jhl d k) 0x08 0 1 (b2n on)
  if on then (if jhlState s d k = 0 then jhlTrains (setJhlState t d k 1) d k else t)
  else (setJhlState t d k 0).onJhl d k fun x => { x with wasUp := false, retrains := false }

/-- Entering keep-alive from this side (R565): LM 4 leaves, and SEQ starts from 0. -/
def jhlKeepAlive (s : State) (d k : Nat) : State :=
  if jhlState s d k = 2 then
    (setJhlState (sendLm s d k 4) d k 3).onJhl d k fun x => { x with txSeq := 0, rxSeq := 0, replay := [] }
  else s

/-- Leaving keep-alive from this side (R566). -/
def jhlFullRate (s : State) (d k : Nat) : State :=
  if jhlState s d k = 3 then jhlLeaves (sendLm s d k 5) d k else s

/-- A port holds nothing of VC1 or VC2, waiting to be sent, received or in a tunnel's buffer, and nothing unacknowledged
(R565). -/
def jhlQuiet (s : State) (d k : Nat) : Bool :=
  let x := s.jhl d k
  let vc3 := fun (u : JUnit) => match unitLane u with
    | some l => decide (4 ≤ l)
    | none => true
  x.replay.isEmpty && x.held.all vc3 && x.rx.all vc3 && x.tunnels.all fun e => e.2.flits.isEmpty

/-! ### Tunnels (R557 to R560, R578) -/

def Tunnel.reset : Tunnel := ⟨false, 0, 0, 0, 0, 0, 0, 0, 0, [], 0, 0, false⟩

/-- A tunnel by kind (0 window, 1 channel, 2 peg) and index. -/
def Jhl.tunnel (x : Jhl) (kind i : Nat) : Tunnel := tget x.tunnels (kind, i) Tunnel.reset

def setTunnel (s : State) (d k kind i : Nat) (t : Tunnel) : State :=
  s.onJhl d k fun x => { x with tunnels := tset x.tunnels (kind, i) t }

/-- Tunnels of a kind (R557). -/
def tunnelCount (kind : Nat) : Nat :=
  match kind with
  | 0 => 16
  | 1 => 8
  | 2 => 48
  | _ => 0

/-- TUN_W0 to TUN_W2 of the tunnel TUN_SEL names; one that does not exist reads 0. -/
def tunnelRead (s : State) (d k w : Nat) : Word :=
  let kind := s.fld (.jhl d k) 0x80 6 2
  let i := s.fld (.jhl d k) 0x80 0 6
  if tunnelCount kind ≤ i then 0
  else
    let t := (s.jhl d k).tunnel kind i
    match w with
    | 0 =>
      BitVec.ofNat 32 (b2n t.valid + (if kind = 0 then t.lepoch.toNat * 2 else 0)
        + (if kind = 1 then t.rcredit % 8 * 2 ^ 9 else 0) + t.job.toNat * 2 ^ 16)
    | 1 => BitVec.ofNat 32 (t.rdest.toNat + t.ridx.toNat * 2 ^ 17 + t.repoch.toNat * 2 ^ 23)
    | _ => BitVec.ofNat 32 (t.size.toNat + t.rjob.toNat * 2 ^ 16)

/-- A write to TUN_W0 to TUN_W2: any write to a window tunnel advances its LEPOCH; a channel tunnel that becomes VALID
starts with four credits, no flit and no peer (R558, R559). -/
def tunnelWrite (s : State) (d k w : Nat) (v : Word) : State :=
  let kind := s.fld (.jhl d k) 0x80 6 2
  let i := s.fld (.jhl d k) 0x80 0 6
  if tunnelCount kind ≤ i then s
  else
    let t := (s.jhl d k).tunnel kind i
    let u := match w with
      | 0 => { t with valid := bit v 0, job := BitVec.ofNat 16 (bits v 16 16) }
      | 1 => { t with
          rdest := BitVec.ofNat 17 (bits v 0 17), ridx := BitVec.ofNat 6 (bits v 17 6), repoch := BitVec.ofNat 8 (bits v 23 8) }
      | _ => { t with size := BitVec.ofNat 13 (bits v 0 13), rjob := BitVec.ofNat 16 (bits v 16 16) }
    let u := if kind = 0 then { u with lepoch := u.lepoch + 1 } else u
    let u := if kind = 1 ∧ u.valid ∧ !t.valid then { u with rcredit := 4, flits := [], peerValid := false } else u
    setTunnel s d k kind i u

/-- A packet for the peer module, rewritten by a tunnel. -/
def tunnelled (p : Packet) (t : Tunnel) (body : Body) : JUnit := .pkt { p with dest := t.rdest, body := body }

/-- An RWRITE through a window tunnel (R558). -/
def tunnelRwrite (s : State) (p : Packet) (r : RemoteWrite) (d k : Nat) : State :=
  let t := (s.jhl d k).tunnel 0 r.win.toNat
  if !t.valid ∨ r.epoch ≠ t.lepoch then s.nak p 2
  else if t.size.toNat < r.off.toNat + r.words.length then s.nak p 3
  else jhlHold s d k (tunnelled p t (.rwrite { r with win := BitVec.ofNat 4 t.ridx.toNat, epoch := t.repoch }))

/-- TUNNEL_RWRITE (R558). -/
def execTunnelRwrite (p : Packet) (s : State) : Host.Outcome State Fault Refusal :=
  match p.body with
  | .rwrite r => toBlock s p 5 fun d k t => tunnelRwrite t p r d k
  | _ => .next s

/-- A PSIG through a peg tunnel (R558). -/
def tunnelPsig (s : State) (p : Packet) (peg : BitVec 6) (inc : Byte) (job : Half) (d k : Nat) : State :=
  let t := (s.jhl d k).tunnel 2 (peg.toNat - 16)
  if !t.valid ∨ job ≠ t.job then s.nak p 5 else jhlHold s d k (tunnelled p t (.psig t.ridx inc t.rjob))

/-- TUNNEL_PSIG (R558): PEG 16 + k selects tunnel k. -/
def execTunnelPsig (p : Packet) (s : State) : Host.Outcome State Fault Refusal :=
  match p.body with
  | .psig peg inc job => if peg.toNat < 16 then .next s else toBlock s p 5 fun d k t => tunnelPsig t p peg inc job d k
  | _ => .next s

/-- A CONNECT to a port (R558); a disconnect clears a channel tunnel's peer and is not answered (R331). -/
def tunnelConnect (s : State) (p : Packet) (disc : Bool) (kind : BitVec 2) (ep : BitVec 3) (win : BitVec 4)
    (entry : BitVec 4) (job : Half) (d k : Nat) : State :=
  let reply := fun (st : BitVec 3) (epoch : Byte) (size : BitVec 13) (credit : Half) =>
    s.send (answer p (.connReply st entry win epoch size 0 credit))
  if disc then
    if kind = 0 then setTunnel s d k 1 ep.toNat { (s.jhl d k).tunnel 1 ep.toNat with peerValid := false } else s
  else if kind = 2 then
    let t := (s.jhl d k).tunnel 0 win.toNat
    if !t.valid then reply 3 0 0 0 else if job ≠ t.job then reply 4 0 0 0 else reply 0 t.lepoch t.size 0
  else if kind = 0 then
    let t := (s.jhl d k).tunnel 1 ep.toNat
    if t.peerValid then reply 2 0 0 0
    else if !t.valid then reply 3 0 0 0
    else if job ≠ t.job then reply 4 0 0 0
    else
      (setTunnel s d k 1 ep.toNat { t with peer := p.src, pchan := entry, peerValid := true }).send
        (answer p (.connReply 0 entry 0 0 0 0 4))
  else reply 3 0 0 0

/-- TUNNEL_CONNECT (R558). -/
def execTunnelConnect (p : Packet) (s : State) : Host.Outcome State Fault Refusal :=
  match p.body with
  | .connect disc kind ep win _ entry job => toBlock s p 5 fun d k t => tunnelConnect t p disc kind ep win entry job d k
  | _ => .next s

/-- Flits of a channel tunnel forwarded while RCREDIT allows, each returning one CRET to the local sender (R559). -/
def tunnelForward (d k i : Nat) : Nat → State → State
  | 0, s => s
  | n + 1, s =>
    let t := (s.jhl d k).tunnel 1 i
    match t.flits with
    | [] => s
    | f :: rest =>
      if t.rcredit = 0 then s
      else
        let s1 := jhlHold (setTunnel s d k 1 i { t with flits := rest, rcredit := t.rcredit - 1 }) d k
          (.pkt ⟨f.2, t.rdest, jhlDest d k, false, .chan (BitVec.ofNat 3 t.ridx.toNat) f.1 false⟩)
        let s2 := if t.peerValid then
            s1.send ⟨if f.2 = 0 then 1 else f.2, t.peer, jhlDest d k, false, .cret t.pchan 1⟩
          else s1
        tunnelForward d k i n s2

/-- A channel flit at a port: kept where its tunnel is VALID and has room (R559). -/
def tunnelFlit (s : State) (p : Packet) (ep : BitVec 3) (payload : BitVec 128) (d k : Nat) : State :=
  let t := (s.jhl d k).tunnel 1 ep.toNat
  if !t.valid ∨ 4 ≤ t.flits.length then s
  else tunnelForward d k ep.toNat 4 (setTunnel s d k 1 ep.toNat { t with flits := t.flits ++ [(payload, p.vc)] })

/-- TUNNEL_CHANNEL_FLIT (R559). -/
def execTunnelChannelFlit (p : Packet) (s : State) : Host.Outcome State Fault Refusal :=
  match p.body with
  | .chan ep payload _ => toBlock s p 5 fun d k t => tunnelFlit t p ep payload d k
  | _ => .next s

/-- The first waiting unit of a kind, taken out of the receive buffer, its credit owed. -/
def takeRx (s : State) (d k : Nat) (u : JUnit) : State :=
  s.onJhl d k fun x => oweUnit { x with rx := x.rx.erase u } u

/-- The oldest CRET received: its count is added to its tunnel's RCREDIT, and flits go on (R559). -/
def tunnelCret (s : State) (d k : Nat) : State :=
  let found := (s.jhl d k).rx.findSome? fun u => match u with
    | .pkt p =>
      (match p.body with
       | .cret entry count => some (u, entry.toNat % 8, count.toNat)
       | _ => none)
    | _ => none
  match found with
  | none => s
  | some (u, i, n) =>
    let t := (s.jhl d k).tunnel 1 i
    tunnelForward d k i 4 (setTunnel (takeRx s d k u) d k 1 i { t with rcredit := min 7 (t.rcredit + n) })

/-- TUNNEL_CRET (R559). -/
def execTunnelCret (die port : Nat) (s : State) : Host.Outcome State Fault Refusal :=
  onPort s die port (tunnelCret s die port)

/-! ### Reductions in flight (R561 to R563, R578) -/

def State.red (s : State) (d c : Nat) : RedCtx := (s.die d).red[ix 16 c (by decide)]

def State.setRed (s : State) (d c : Nat) (x : RedCtx) : State :=
  s.setDie d { s.die d with red := (s.die d).red.set (ix 16 c (by decide)) x }

def RedCtx.word (x : RedCtx) (k : Nat) : Word := x.regs[ix 6 k (by decide)]

def RedCtx.valid (x : RedCtx) : Bool := bit (x.word 0) 0
def RedCtx.rank (x : RedCtx) : Nat := bits (x.word 0) 1 5
def RedCtx.nrank (x : RedCtx) : Nat := bits (x.word 0) 6 5
def RedCtx.job (x : RedCtx) : Half := BitVec.ofNat 16 (bits (x.word 0) 16 16)
def RedCtx.srcHandle (x : RedCtx) : BitVec 20 := BitVec.ofNat 20 (bits (x.word 1) 0 20)
def RedCtx.dstHandle (x : RedCtx) : BitVec 20 := BitVec.ofNat 20 (bits (x.word 2) 0 20)
def RedCtx.nseg (x : RedCtx) : Nat := bits (x.word 3) 0 24
def RedCtx.thresh (x : RedCtx) : Nat := atLeast1 (bits (x.word 5) 0 16)

/-- The ashlar whose peg counts a context's segments. -/
def RedCtx.target (x : RedCtx) : Dest := mkDest (bits (x.word 4) 6 9) (bits (x.word 4) 15 8)

/-- A fault of a context (R563): it sends nothing further. -/
def redFault (s : State) (d c : Nat) : State :=
  (s.setRed d c { s.red d c with faulted := true, running := false }).raise (.jhl d 0) evJhlReduceFault 0

/-- The values of a line's words, two FP32 codes each. -/
def lineValues (ws : List DWord) : List Word := ws.flatMap fun w => [BitVec.ofNat 32 w.toNat, BitVec.ofNat 32 (w.toNat / 2 ^ 32)]

/-- 128 FP32 codes as 64 words. -/
def valueWords (vs : List Word) : List DWord :=
  (List.range 64).map fun i => vs.getD (2 * i + 1) 0 ++ vs.getD (2 * i) 0

/-- A context's agent on its die: instance 0 of the ports. -/
def redAgent (d : Nat) : Agent := ⟨d, jhlDest d 0, .request⟩

def redRead (s : State) (d : Nat) (x : RedCtx) (k : Nat) : Got × State :=
  accessWords s (redAgent d) x.job x.srcHandle (64 * k) 64

/-- The end of a segment at a rank (R562): the line written, the segment sent down, the peg signalled, the round counted.
None while the write has to wait. -/
def redFinish (s : State) (d c k : Nat) (vs : List Word) : Option State :=
  let x := s.red d c
  match accessPut (redAgent d) x.job x.dstHandle 2 (64 * k) (valueWords vs) s with
  | (.wait, _, _) => none
  | (r, _, t) =>
    let t1 := if 0 < x.rank then jhlHold t d 0 (.seg true (BitVec.ofNat 4 c) (BitVec.ofNat 24 k) vs false) else t
    match r with
    | .data _ =>
      let t2 := t1.sendOr1 ⟨2, x.target, jhlDest d 0, false,
        .psig (BitVec.ofNat 6 (bits (x.word 4) 0 6)) (BitVec.ofNat 8 (bits (x.word 3) 24 8)) x.job⟩
      let y := t2.red d c
      some (t2.setRed d c { y with done := y.done + 1, running := decide (y.done + 1 < x.nseg) })
    | _ => some (redFault t1 d c)

/-- Rank 0's segments from the next one on (R562), as far as its lines can be read. -/
def redStartFrom (d c : Nat) : Nat → State → State
  | 0, s => s
  | n + 1, s =>
    let x := s.red d c
    if !x.running ∨ x.nseg ≤ x.nextUp then s
    else
      match redRead s d x x.nextUp with
      | (.data ws, t) =>
        redStartFrom d c n ((jhlHold t d 1
          (.seg false (BitVec.ofNat 4 c) (BitVec.ofNat 24 x.nextUp) (lineValues ws) false)).setRed d c
            { x with nextUp := x.nextUp + 1 })
      | (.wait, _) => s
      | (_, t) => redFault t d c

/-- A context whose trigger count holds starts its round, a round of no segment ending at once; rank 0 then sends its
partial (R447, R561, R562). -/
def redStart (s : State) (d c : Nat) : State :=
  let x := s.red d c
  if x.running then (if x.rank = 0 then redStartFrom d c x.nseg s else s)
  else if x.valid && !x.faulted && holds x.tcount.toNat x.thresh then
    let t := s.setRed d c { x with
      tcount := x.tcount - BitVec.ofNat 16 x.thresh, running := decide (0 < x.nseg), done := 0, nextUp := 0, nextDown := 0 }
    if x.rank = 0 then redStartFrom d c x.nseg t else t
  else s

/-- REDUCE_START (R562). -/
def execReduceStart (die ctx : Nat) (s : State) : Host.Outcome State Fault Refusal :=
  atDieIf s die (decide (ctx < 16)) (.next (redStart s die ctx))

/-- A PSIG that triggers a context: refused with code 5, or its INC added to TCOUNT (R447, R561). -/
def redTrigger (s : State) (p : Packet) (peg : BitVec 6) (inc : Byte) (job : Half) (d : Nat) : State :=
  let x := s.red d peg.toNat
  if !x.valid ∨ job ≠ x.job then s.nak p 5
  else s.setRed d peg.toNat { x with tcount := x.tcount + inc.zeroExtend 16 }

/-- REDUCE_TRIGGER (R561): PEG 0 to 15 at either port of the die. -/
def execReduceTrigger (p : Packet) (s : State) : Host.Outcome State Fault Refusal :=
  match p.body with
  | .psig peg inc job => if 16 ≤ peg.toNat then .next s else toBlock s p 5 fun d _ t => redTrigger t p peg inc job d
  | _ => .next s

/-- A segment with its fields. -/
structure Seg where
  ctx : Nat
  k : Nat
  vals : List Word
  poisoned : Bool
  unit : JUnit
  deriving DecidableEq, Repr

/-- The first segment of a phase waiting at a port whose context runs and takes it there (R562, R563). -/
def redNext (s : State) (d port : Nat) (bcast : Bool) : Option Seg :=
  (s.jhl d port).rx.findSome? fun u => match u with
    | .seg b c k vs poisoned =>
      let x := s.red d c.toNat
      if b = bcast ∧ x.running ∧ (if bcast then x.rank + 1 < x.nrank else 0 < x.rank) then
        some ⟨c.toNat, k.toNat, vs, poisoned, u⟩
      else none
    | _ => none

/-- One element of a partial added to the running sum (R562). -/
def redAdd (v x : Word) : Word := rne32Code (Val.add (fp32 v) (fp32 x))

/-- A segment on its way up (R562). -/
def redOnReduce (s : State) (d : Nat) : State :=
  match redNext s d 0 false with
  | none => s
  | some g =>
    let x := s.red d g.ctx
    let t := takeRx s d 0 g.unit
    if g.poisoned ∨ g.k ≠ x.nextUp then redFault t d g.ctx
    else
      match redRead t d x g.k with
      | (.wait, _) => s
      | (.data ws, u) =>
        let vs := (List.range 128).map fun e => redAdd (g.vals.getD e 0) ((lineValues ws).getD e 0)
        let u1 := u.setRed d g.ctx { x with nextUp := x.nextUp + 1 }
        if x.rank + 1 < x.nrank then jhlHold u1 d 1 (.seg false (BitVec.ofNat 4 g.ctx) (BitVec.ofNat 24 g.k) vs false)
        else (redFinish u1 d g.ctx g.k vs).getD s
      | (_, u) => redFault u d g.ctx

/-- REDUCE_SEGMENT (R562). -/
def execReduceSegment (die : Nat) (s : State) : Host.Outcome State Fault Refusal := atDie s die (.next (redOnReduce s die))

/-- A segment on its way down (R562). -/
def redOnBcast (s : State) (d : Nat) : State :=
  match redNext s d 1 true with
  | none => s
  | some g =>
    let x := s.red d g.ctx
    let t := takeRx s d 1 g.unit
    if g.poisoned ∨ g.k ≠ x.nextDown then redFault t d g.ctx
    else (redFinish (t.setRed d g.ctx { x with nextDown := x.nextDown + 1 }) d g.ctx g.k g.vals).getD s

/-- BCAST_SEGMENT (R562). -/
def execBcastSegment (die : Nat) (s : State) : Host.Outcome State Fault Refusal := atDie s die (.next (redOnBcast s die))

/-- A refusal at a Jeham port (R348, R560): of the completion PSIG of a reduction, which faults its context; or of a packet
the port injected for the peer module, which is counted and raised and not relayed. -/
def jhlNak (s : State) (p : Packet) (of : Refused) (d k : Nat) : State :=
  let ctx := if of = .psig ∧ k = 0 then (List.range 16).find? fun c => (s.red d c).valid && (s.red d c).target == p.src
    else none
  match ctx with
  | some c => redFault s d c
  | none => (s.count16 (.jhl d k) 0x58 16 1).raise (.jhl d k) evJhlRemoteNak 0

/-- JHL_REMOTE_NAK (R560). -/
def execJhlRemoteNak (p : Packet) (s : State) : Host.Outcome State Fault Refusal :=
  match p.body with
  | .nak _ of => toBlock s p 5 fun d k t => jhlNak t p of d k
  | _ => .next s

/-- RED_W0 to RED_W6 of the context RED_SEL names. -/
def redRegRead (s : State) (d w : Nat) : Word :=
  let x := s.red d (s.fld (.jhl d 0) 0x90 0 4)
  if w = 5 then BitVec.ofNat 32 (bits (x.word 5) 0 16 + x.tcount.toNat * 2 ^ 16)
  else if w = 6 then BitVec.ofNat 32 (x.done % 2 ^ 24 + b2n x.running * 2 ^ 24 + b2n x.faulted * 2 ^ 25)
  else x.word w

/-- Bits of RED_W0 to RED_W5 that are written. -/
def redMask (w : Nat) : Word :=
  match w with
  | 0 => 0xFFFF07FF
  | 1 => 0x000FFFFF
  | 2 => 0x000FFFFF
  | 3 => 0xFFFFFFFF
  | 4 => 0x00FFFFFF
  | _ => 0x0000FFFF

/-- A reduction context rewritten: refused while it runs, and where it would be VALID with an illegal rank (R561, R578). -/
def putRed (s : State) (d c : Nat) (y : RedCtx) : State :=
  if (s.red d c).running then s.record (.jhl d 0) evErrAccess 0
  else if y.valid ∧ (y.nrank < 2 ∨ 16 < y.nrank ∨ y.nrank ≤ y.rank) then s.record (.jhl d 0) evErrRange 0
  else s.setRed d c y

/-- A write to RED_W0 to RED_W6 (R578): refused while the context runs, and where VALID would stand with an illegal rank;
writing 1 to FAULTED clears it. -/
def redRegWrite (s : State) (d w : Nat) (v : Word) : State :=
  let c := s.fld (.jhl d 0) 0x90 0 4
  let x := s.red d c
  putRed s d c (if w = 6 then { x with faulted := x.faulted && !bit v 25 }
    else { x with regs := x.regs.set (ix 6 w (by decide)) (v &&& redMask w) })

end Sys2Proof.Machine
end

