-- ==== Sys2Proof/Machine/Keystone.lean ====
section
/-! DEFINITION. The Keystone (R173 to R178, R183 to R187, R348 to R350): admission, combination in rank order, results and
releases. -/

namespace Sys2Proof.Machine

def ctxIx (k : Nat) : Fin 64 := ⟨k % 64, Nat.mod_lt k (by decide)⟩

def State.key (s : State) (die : Nat) : Keystone := (s.die die).key

def State.setKey (s : State) (die : Nat) (k : Keystone) : State := s.setDie die { s.die die with key := k }

def State.kctx (s : State) (die c : Nat) : KeyCtx := (s.key die).ctxs[ctxIx c]

def State.setKctx (s : State) (die c : Nat) (x : KeyCtx) : State :=
  s.setKey die { s.key die with ctxs := (s.key die).ctxs.set (ctxIx c) x }

/-! ### Faults (R178, R184) -/

/-- A fault held in KEY.FAULT_INFO where it is free. -/
def State.keyInfo (s : State) (die tag rank kind ctx : Nat) : State :=
  if s.fld (.key die) 0x48 31 1 = 1 then s
  else s.setReg (.key die) 0x48 (BitVec.ofNat 32 (tag + rank * 2 ^ 12 + kind * 2 ^ 17 + ctx * 2 ^ 20 + 2 ^ 31))

/-- A partial dropped or a result refused: counted, recorded, KEY_FAULT raised (R178, R348). -/
def State.keyFault (s : State) (die tag rank kind ctx : Nat) (sender : Dest) : State :=
  (s.keyInfo die tag rank kind ctx).raiseFor (.key die) evKeyFault sender

/-- The action of a Keystone on a NAK for a result (R348). -/
def keyNak (s : State) (die ctx : Nat) : State := s.keyFault die (s.kctx die ctx).req.tag.toNat 0 4 ctx (s.kctx die ctx).src0

/-! ### Admission (R175, R176, R349) -/

/-- The open reduction a request belongs to: TAG within its job (R173). -/
def ctxOf (k : Keystone) (r : KeyReq) : Option Nat :=
  (List.range 64).find? fun c =>
    let x := k.ctxs[ctxIx c]
    x.used && x.req.tag == r.tag && x.req.job == r.job

/-- The lowest context free to be taken. -/
def freeCtx (k : Keystone) : Option Nat :=
  (List.range 64).find? fun c =>
    let x := k.ctxs[ctxIx c]
    !x.used && !x.releasing

/-- Contexts in use, one that is being released included (R183, R187). -/
def Keystone.used (k : Keystone) : Nat := (k.ctxs.toList.filter fun x => x.used || x.releasing).length

/-- CTX_PEAK raised to the contexts and queue entries in use (R183). -/
def State.keyPeaks (s : State) (die : Nat) : State :=
  let k := s.key die
  let used := k.used
  let p := Page.key die
  let t := s.setFld p 0x44 0 7 (max (s.fld p 0x44 0 7) used)
  t.setFld p 0x44 8 9 (max (t.fld p 0x44 8 9) k.fifo.length)

/-- KGRANT to a KREQ's sender. -/
def keyAnswer (s : State) (p : Packet) (status : BitVec 2) (ctx : Nat) : State :=
  s.send (replyTo p (.kgrant status (BitVec.ofNat 6 ctx)))

/-- Why the Keystone drops a partial of an open reduction: the KIND of R184, or none (R178). DEDUCED (log 182): a second
request of the rank that has its grant and is not yet complete repeats a rank accepted already (KIND 1). -/
def keyBroken (x : KeyCtx) (r : KeyReq) : Option Nat :=
  if r.rank.toNat < x.next ∨ (r.rank.toNat = x.next ∧ x.granted) ∨ x.req.nmemb.toNat ≤ r.rank.toNat then some 1
  else if r.nmemb ≠ x.req.nmemb ∨ r.nelem ≠ x.req.nelem ∨ r.kd ≠ x.req.kd then some 2
  else if r.borg ≠ x.req.borg then some 3
  else none

/-- One waiting request judged: dropped, granted, or left waiting (R175, R178). -/
def keyJudge (s : State) (die : Nat) (p : Packet) : State :=
  match p.body with
  | .kreq r =>
    (match ctxOf (s.key die) r with
     | none => s
     | some c =>
       let x := s.kctx die c
       let gone := s.setKey die { s.key die with waiting := (s.key die).waiting.erase p }
       match keyBroken x r with
       | some kind => gone.keyFault die r.tag.toNat r.rank.toNat kind c p.src
       | none =>
         if r.rank.toNat = x.next then keyAnswer (gone.setKctx die c { x with granted := true, got := 0 }) p grantOk c
         else s)
  | _ => s

/-- Every waiting request judged once, in order of arrival. -/
def keySettle (s : State) (die : Nat) : State := (s.key die).waiting.foldl (fun t p => keyJudge t die p) s

/-- A rank-0 request takes a context and is granted (R176). -/
def keyAdmit (s : State) (die c : Nat) (p : Packet) (r : KeyReq) : State :=
  let x : KeyCtx :=
    { used := true, req := r, src0 := p.src, vc := p.vc, next := 0, granted := true, got := 0, sums := []
      releasing := false }
  keySettle ((keyAnswer (s.setKctx die c x) p grantOk c).keyPeaks die) die

/-- A rank-0 request of a reduction that is open already dropped (R178). -/
def keyDrop0 (s : State) (die c : Nat) (p : Packet) (r : KeyReq) : State :=
  s.keyFault die r.tag.toNat 0 ((keyBroken (s.kctx die c) r).getD 1) c p.src

/-- KREQ at the Keystone (R175, R176, R178, R349). -/
def keyRequested (s : State) (die : Nat) (p : Packet) (r : KeyReq) : State :=
  let k := s.key die
  if r.rank = 0 then
    match ctxOf k r with
    | some c => keyDrop0 s die c p r
    | none =>
      match k.fifo, freeCtx k with
      | [], some c => keyAdmit s die c p r
      | _, _ =>
        if k.fifo.length < 256 then (s.setKey die { k with fifo := k.fifo ++ [p] }).keyPeaks die
        else keyAnswer s p grantRetry 0
  else keyJudge (s.setKey die { k with waiting := k.waiting ++ [p] }) die p

/-- KREQ (R349); a Jeham port has no part in it and answers NAK 1 (R558). -/
def execKreq (p : Packet) (s : State) : Host.Outcome State Fault Refusal :=
  match p.body with
  | .kreq r =>
    if isBlock p.dest && (blockOf p.dest).1 == 5 then toBlock s p 5 fun _ _ t => t.nak p 1
    else toBlock s p 7 fun die _ t => keyRequested t die p r
  | _ => .next s

/-- The oldest rank-0 request queued: dropped where its reduction has been opened since it came, else taken by a free
context (R176, R178). -/
def keyOldest (s : State) (die : Nat) : State :=
  let k := s.key die
  match k.fifo with
  | [] => s
  | p :: rest =>
    let t := s.setKey die { k with fifo := rest }
    match p.body with
    | .kreq r =>
      (match ctxOf k r, freeCtx k with
       | some c, _ => keyDrop0 t die c p r
       | none, some c => keyAdmit t die c p r
       | none, none => s)
    | _ => s

/-- KEYSTONE_ADMIT (R176). -/
def execKeystoneAdmit (die : Nat) (s : State) : Host.Outcome State Fault Refusal := atDie s die (.next (keyOldest s die))

/-! ### Combination (R174) -/

/-- One element combined: rank 0's as it is, a later rank's added (R174). -/
def keyAdd (rank : Nat) (s p : Word) : Word := if rank = 0 then p else rne32Code (Val.add (fp32 s) (fp32 p))

/-- Elements got to got + n − 1 of a rank combined into the sums. -/
def keyCombine (x : KeyCtx) (vals : List Word) : KeyCtx :=
  let n := min 4 (x.req.nelem.toNat - x.got)
  let sums := (List.range n).foldl (fun (acc : List Word) j =>
    let v := vals.getD j 0
    if x.next = 0 then acc ++ [v] else acc.set (x.got + j) (keyAdd x.next (acc.getD (x.got + j) 0) v)) x.sums
  { x with got := x.got + n, sums := sums }

/-- The 64-bit words of a result: two FP32 values each, an absent one 0. -/
def pairWords : List Word → List DWord
  | [] => []
  | [a] => [a.zeroExtend 64]
  | a :: b :: r => (b ++ a) :: pairWords r

/-- The packets of a remote write of words from an offset: at most 128 words each, `one` told which is the last (R346). -/
def rwritePackets (words : List DWord) (off : Nat) (one : Nat → List DWord → Bool → RemoteWrite) :
    Nat → List RemoteWrite
  | 0 => []
  | n + 1 =>
    if words.length ≤ 128 then [one off words true]
    else one off (words.take 128) false :: rwritePackets (words.drop 128) (off + 128) one n

/-- The result of a reduction as RWRITE packets, the signal on the last (R346, R350); a missing destination is refused
before anything is sent (R308, R348). -/
def keyResult (s : State) (die c : Nat) (x : KeyCtx) : State :=
  let kd := x.req.kd
  if destMissing s kd.dest then keyNak s die c
  else
    let one := fun (off : Nat) (ws : List DWord) (last : Bool) =>
      ({ win := kd.dwin, epoch := 0, acc := kd.dacc, recEnd := false, pad := false, off := BitVec.ofNat 13 off, words := ws
         peg := if last then kd.dpeg else 0, inc := if last then kd.dinc else 0, chan := 0 } : RemoteWrite)
    (rwritePackets (pairWords x.sums) kd.doff.toNat one 2).foldl (fun t w =>
      t.send ⟨x.vc, kd.dest, blockDest 7 die c, false, .rwrite w⟩) s

/-- A reduction's last rank has come: its result leaves, its context is free (R176, R185). -/
def keyFinish (s : State) (die c : Nat) (x : KeyCtx) : State :=
  let t := (keyResult s die c x).setKctx die c { x with used := false, granted := false }
  if perfFrozen t (.key die) 0x60 then t else t.perfAdd (.key die) 0x50 1

/-- A data flit at a context (R174, R187): combined; at a context that holds no granted partial it is discarded and
counted. -/
def keyData (s : State) (die c : Nat) (payload : BitVec 128) : State :=
  let x := s.kctx die c
  if !x.used ∨ !x.granted then s.countErr (.key die)
  else
    let y := keyCombine x ([0, 1, 2, 3].map fun j => BitVec.ofNat 32 (payload.toNat / 2 ^ (32 * j)))
    if y.got < x.req.nelem.toNat then s.setKctx die c y
    else
      let z := { y with next := x.next + 1, granted := false }
      if z.next < x.req.nmemb.toNat then keySettle (s.setKctx die c z) die else keyFinish s die c z

/-- KEYSTONE_PARTIAL (R174). -/
def execKeystonePartial (p : Packet) (s : State) : Host.Outcome State Fault Refusal :=
  match p.body with
  | .chan _ payload _ => toBlock s p 7 fun die c t => keyData t die c payload
  | _ => .next s

/-! ### Releases (R187) -/

/-- The requests of an open reduction that wait for a grant answered with ABORT. -/
def keyAbort (s : State) (die : Nat) (r : KeyReq) : State :=
  let k := s.key die
  let mine := fun (p : Packet) => match p.body with
    | .kreq q => q.tag == r.tag && q.job == r.job
    | _ => false
  (k.waiting.filter mine).foldl (fun t p => keyAnswer t p grantAbort 0)
    (s.setKey die { k with waiting := k.waiting.filter fun p => !mine p })

/-- One open context released: its waiters aborted, the release recorded and counted, the context kept from reuse. -/
def keyRelease (s : State) (die c : Nat) : State :=
  let x := s.kctx die c
  if !x.used then s
  else
    let t := keyAbort s die x.req
    let u := ((t.setKctx die c { x with used := false, granted := false, releasing := true }).keyInfo die
      x.req.tag.toNat 0 5 c).countErr (.key die)
    u.setFld (.key die) 0x64 12 1 1

/-- CTX_CMD written with RELEASE while BUSY is 0; otherwise ERR_ACCESS (R187). -/
def keyReleaseCmd (s : State) (die : Nat) (go : State → State) : State :=
  if s.fld (.key die) 0x64 12 1 = 1 then s.record (.key die) evErrAccess 0 else go s

/-- Every context whose rank-0 sender lies in a fence's rectangle, and every such request of the FIFO (R187). -/
def keyReleaseRect (s : State) (die fence : Nat) : State :=
  let w := setBits (s.reg (.mor die) (0x80 + 4 * (fence % 16))) 31 1 1
  let inside := fun (d : Dest) => inFence s die w d
  let t := (List.range 64).foldl (fun t c =>
    if (t.kctx die c).used && inside (t.kctx die c).src0 then keyRelease t die c else t) s
  let k := t.key die
  (k.fifo.filter fun p => inside p.src).foldl (fun t p => keyAnswer t p grantAbort 0)
    (t.setKey die { k with fifo := k.fifo.filter fun p => !inside p.src })

/-- RELEASE written for a context (R187). -/
def writeRelease (s : State) (die ctx : Nat) : State :=
  keyReleaseCmd s die fun t => keyRelease (t.setFld (.key die) 0x64 0 6 ctx) die ctx

/-- RELEASE_RECT written for a fence's rectangle (R187). -/
def writeReleaseRect (s : State) (die fence : Nat) : State :=
  keyReleaseCmd s die fun t => keyReleaseRect (t.setFld (.key die) 0x64 8 4 fence) die fence

/-- KEY.CTX_CMD.BUSY of a die. -/
def keyBusy (s : State) (die : Nat) : Bool := s.fld (.key die) 0x64 12 1 == 1

/-- The RELEASEs that the Mason has to write, each written once BUSY of its die reads 0 (R187). -/
def State.writeDue (s : State) : State :=
  (s.mas.keyHeld.filter fun x => x.due).foldl (fun t x =>
    if keyBusy t x.die then t
    else writeRelease { t with mas := { t.mas with keyHeld := t.mas.keyHeld.erase x } } x.die x.ctx) s

/-- CTX_RELEASE (R187). -/
def execCtxRelease (die ctx : Nat) (s : State) : Host.Outcome State Fault Refusal :=
  atDieIf s die (decide (ctx < 64)) (.next (writeRelease s die ctx))

/-- CTX_RELEASE_RECT (R187). -/
def execCtxReleaseRect (die fence : Nat) (s : State) : Host.Outcome State Fault Refusal :=
  atDieIf s die (decide (fence < 16)) <|
    .next (writeReleaseRect s die fence)

/-- BUSY clears, and released contexts may be taken again (R187). -/
def keyDrained (s : State) (die : Nat) : State :=
  let k := s.key die
  (s.setKey die { k with ctxs := k.ctxs.map fun x => { x with releasing := false } }).setFld (.key die) 0x64 12 1 0

end Sys2Proof.Machine
end

