-- ==== Sys2Proof/Machine/HostQueue.lean ====
section
/-! DEFINITION. The Mason's host rings (R494 to R499, R573 to R575): what is fetched, posted, kept for a move of the home,
and how an event is named to the host. -/

namespace Sys2Proof.Machine

/-- The home endpoint (R574). -/
def homeOf (s : State) : Option Nat :=
  if s.fld (.pci 0) 0x44 0 1 = 1 then some 0 else if s.fld (.pci 1) 0x44 0 1 = 1 then some 1 else none

/-- The home endpoint where it reaches the host. -/
def homeUp (s : State) : Option Nat := (homeOf s).filter fun k => hostUp s k

/-! ### Rings (R494) -/

/-- Entries of the ring whose CFG register lies at an offset of the MAS page. -/
def ringSize (s : State) (cfg : Nat) : Nat := 2 ^ s.fld .mas cfg 0 5

def ringOn (s : State) (cfg : Nat) : Bool := s.fld .mas cfg 31 1 == 1

/-- Entries from one index of a ring to another. -/
def ringDist (size a b : Nat) : Nat := (b % size + size - a % size) % size

/-- Entries of the completion queue, or of the event queue, that the host has not consumed. -/
def cplUsed (s : State) : Nat := ringDist (ringSize s 0x5C) (s.fld .mas 0x60 0 16) s.mas.cplIdx
def evUsed (s : State) : Nat := ringDist (ringSize s 0x6C) (s.fld .mas 0x70 0 16) s.mas.evIdx

/-- Free entries: one fewer than the ring has, while it is enabled. -/
def cplRoom (s : State) : Nat := if ringOn s 0x5C then ringSize s 0x5C - 1 - cplUsed s else 0
def evRoom (s : State) : Nat := if ringOn s 0x6C then ringSize s 0x6C - 1 - evUsed s else 0

/-- An entry as another endpoint would carry it. -/
def throughHome (k : Nat) (o : Output) : Output :=
  match o with
  | .completion _ tag status reason event result phase => .completion k tag status reason event result phase
  | .event _ code job src co phase time => .event k code job src co phase time
  | x => x

/-- An entry written through the home, and its vector signalled (R573, R574). -/
def State.writeRing (s : State) (o : Output) (vector : Nat) : State :=
  match homeUp s with
  | some k => (s.emit (throughHome k o)).msi k vector
  | none => s

/-- The entries written last that a ring of n entries can hold. -/
def keepLast (n : Nat) (l : List Output) : List Output := l.drop (l.length - n)

/-! ### The completion queue (R495, R497) -/

/-- A completion's entry at the write index. -/
def cplPut (s : State) (tag : Word) (status reason event result : Nat) : State :=
  let size := ringSize s 0x5C
  let o := Output.completion ((homeOf s).getD 0) tag status reason event (result % 2 ^ 56) s.mas.cplPhase
  let last := s.mas.cplIdx + 1 == size
  let m := { s.mas with
    cplIdx := if last then 0 else s.mas.cplIdx + 1
    cplPhase := if last then !s.mas.cplPhase else s.mas.cplPhase
    cplKept := keepLast size (s.mas.cplKept ++ [o]) }
  { s with mas := m }.writeRing o 0

/-- A completion written, or kept until the queue has room. -/
def State.complete (s : State) (tag : Word) (status reason event result : Nat) : State :=
  if 0 < cplRoom s then cplPut s tag status reason event result
  else { s with mas := { s.mas with cplWait := s.mas.cplWait ++ [.completion 0 tag status reason event result true] } }

/-- The completions that waited, as far as there is room. -/
def cplFlush (s : State) : State :=
  let l := s.mas.cplWait
  l.foldl (fun t o => match o with
    | .completion _ tag status reason event result _ => t.complete tag status reason event result
    | _ => t) { s with mas := { s.mas with cplWait := [] } }

/-! ### The event queue (R498) -/

/-- Where an event comes from, in the DEST layout with the die in [19:17] (R498). -/
def srcOf (d : Dest) (die : Nat) : Nat := d.toNat + die * 2 ^ 17

/-- The source of a page: an ashlar's coordinate, or the block of R307 that the page belongs to; a router, lintel,
configuration or module page stands as its die's configuration block. -/
def pageSrc (s : State) (p : Page) : Nat :=
  match p with
  | .ash a => srcOf (ashDest s a) a.die
  | .hbc d k => srcOf (blockDest 0 d k) d
  | .lpc d => srcOf (blockDest 1 d 0) d
  | .dmc d => srcOf (blockDest 2 d 0) d
  | .hod d => srcOf (blockDest 3 d 0) d
  | .eth d => srcOf (blockDest 4 d 0) d
  | .ing d => srcOf (blockDest 4 d 0) d
  | .egr d => srcOf (blockDest 4 d 0) d
  | .jhl d k => srcOf (blockDest 5 d k) d
  | .pci k => let d := if k = 0 then 0 else s.part.lastDie
    srcOf (blockDest 6 d 0) d
  | .key d => srcOf (blockDest 7 d 0) d
  | .plb d => srcOf (blockDest 9 d 0) d
  | .pln d c => srcOf (ctlDest d c) d
  | q => srcOf (blockDest 8 (pageDie q) 0) (pageDie q)

/-- The alert sources that an event sets (R690): class MODULE, class FATAL, THERM_WARN or THERM_CRIT. -/
def alertFor (s : State) (code : Nat) : State :=
  let t := if code / 4096 = 5 then s.setFld .pin 0x84 0 1 1 else s
  let u := if code / 4096 = 7 then t.setFld .pin 0x84 1 1 1 else t
  if code / 64 % 64 = 0x13 ∧ (code % 64 = 8 ∨ code % 64 = 9) then u.setFld .pin 0x84 2 1 1 else u

/-- An event's entry at the write index. -/
def evPut (s : State) (code : Nat) (job : Half) (src : Nat) (coalesced : Bool) : State :=
  let size := ringSize s 0x6C
  let o := Output.event ((homeOf s).getD 0) (BitVec.ofNat 16 code) job src coalesced s.mas.evPhase s.time
  let last := s.mas.evIdx + 1 == size
  let m := { s.mas with
    evIdx := if last then 0 else s.mas.evIdx + 1
    evPhase := if last then !s.mas.evPhase else s.mas.evPhase
    evKept := keepLast size (s.mas.evKept ++ [o]) }
  { s with mas := m }.writeRing o 1

/-- An event posted, or dropped and counted where the queue has no room (R498). -/
def State.post (s : State) (code : Nat) (job : Half) (src : Nat) (coalesced : Bool) : State :=
  let t := alertFor s code
  if 0 < evRoom t then evPut t code job src coalesced
  else
    let u := t.count16 .mas 0x74 0 1
    { u with mas := { u.mas with dropped := true } }

/-- An event of the Mason's own: recorded in its page and posted (R621, R622). -/
def State.masEvent (s : State) (e : Ev) (job : Half) (src : Nat) : State :=
  let t := (s.record .mas e 0).setFld .mas 0x10 1 1 1
  t.post (evCode .mas e) job src false

/-- EVQ_OVERFLOW, once space has returned after a drop (R498). -/
def evFlush (s : State) : State :=
  if s.mas.dropped && decide (0 < evRoom s) then
    let t := ({ s with mas := { s.mas with dropped := false } }).setFld .pin 0x84 4 1 1
    t.masEvent evEvqOverflow 0xFFFF (pageSrc s .mas)
  else s

/-! ### Writes to the ring registers (R494, R495, R501) -/

/-- A write to HCQ_TAIL: a doorbell too far ahead is ignored (R495). -/
def hcqTailWrite (s : State) (v : Word) : State :=
  if bits v 0 16 < ringSize s 0x48 then s.setReg .mas 0x4C (v &&& 0xFFFF) else s.record .mas evErrRange 0

def hcplHeadWrite (s : State) (v : Word) : State := cplFlush (s.setReg .mas 0x60 (v &&& 0xFFFF))

def hevqHeadWrite (s : State) (v : Word) : State := evFlush (s.setReg .mas 0x70 (v &&& 0xFFFF))

/-- A write to the CFG register of ring 0 (command), 1 (completion) or 2 (event): LOG2 outside 4 to 16 is refused, and
setting ENABLE puts the ring's indices at 0 and its phase at 1. -/
def ringCfgWrite (s : State) (ring : Nat) (v : Word) : State :=
  let off := if ring = 0 then 0x48 else if ring = 1 then 0x5C else 0x6C
  if bits v 0 5 < 4 ∨ 16 < bits v 0 5 then s.record .mas evErrRange 0
  else
    let t := s.setReg .mas off (v &&& 0x8000001F)
    if !bit v 31 then t
    else if ring = 0 then (t.setReg .mas 0x4C 0).setReg .mas 0x50 0
    else if ring = 1 then
      let u := t.setReg .mas 0x60 0
      cplFlush { u with mas := { u.mas with cplIdx := 0, cplPhase := true, cplKept := [] } }
    else
      let u := t.setReg .mas 0x70 0
      evFlush { u with mas := { u.mas with evIdx := 0, evPhase := true, evKept := [] } }

/-- HCQ_ENABLE (R494): a write to HCQ_CFG, HCPL_CFG or HEVQ_CFG. -/
def execHcqEnable (ring : Nat) (v : Word) (s : State) : Host.Outcome State Fault Refusal :=
  if ring < 3 then atModule s (ringCfgWrite s ring v) else .fault .noSuchBlock

/-! ### Fetching (R494, R495, R670) -/

/-- Commands fetched and not completed. -/
def commandsOpen (s : State) : Nat :=
  (s.mas.jobs.filter fun j => j.wait.isSome).length + s.mas.heldLoads.length + (if (s.mas.publish.bind fun p => p.tag).isSome then 1 else 0)
    + s.mas.cplWait.length

/-- Whether the Mason fetches the next command: it runs (MODE 1), the ring holds an entry, its home reaches the host,
and the completion queue has room for one more answer. -/
def fetches (s : State) : Bool :=
  s.fld .mas 0x84 0 3 == 1 && ringOn s 0x48 && (homeUp s).isSome
    && decide (0 < ringDist (ringSize s 0x48) (s.fld .mas 0x50 0 16) (s.fld .mas 0x4C 0 16))
    && decide (commandsOpen s < cplRoom s)

/-- The state once the next entry has been fetched. -/
def fetchOne (s : State) : State :=
  s.setReg .mas 0x50 (BitVec.ofNat 32 ((s.fld .mas 0x50 0 16 + 1) % ringSize s 0x48))

/-- A command fetched and executed: an unknown opcode or an unused byte that is not 0 is answered; an entry of another
opcode is no matter of this row (R496, R497). -/
def hostCommand (s : State) (c : HostCmd) (opcode : Nat) (go : State → State) : Host.Outcome State Fault Refusal :=
  let o := c.opcode.toNat
  if !fetches s then .next s
  else if o = 0 ∨ 0x0D < o then .next ((fetchOne s).complete c.tag 1 0 0 0)
  else if o ≠ opcode then .next s
  else if c.spare then .next ((fetchOne s).complete c.tag 2 0 0 0)
  else .next (go (fetchOne s))

/-- Argument bytes, little-endian; absent ones are 0. -/
def argNat (l : List Byte) (at' n : Nat) : Nat :=
  match n with
  | 0 => 0
  | k + 1 => (l.getD at' 0).toNat + 256 * argNat l (at' + 1) k

/-! ### The home (R574, R575) -/

/-- The entries from the host's HEAD up to the Mason's index, written again through a new home (R575). -/
def rewriteRings (s : State) (k : Nat) : State :=
  let cs := s.mas.cplKept.drop (s.mas.cplKept.length - cplUsed s)
  let es := s.mas.evKept.drop (s.mas.evKept.length - evUsed s)
  if hostUp s k then { s with out := s.out ++ (cs ++ es).map (throughHome k) } else s

/-- The home moved to an endpoint (R575). -/
def moveHome (s : State) (k : Nat) : State :=
  let t := (s.setFld (.pci k) 0x44 0 1 1).setFld (.pci (1 - k)) 0x44 0 1 0
  let u := rewriteRings t k
  let x := (u.record (.pci k) evPciFailover 0).setFld (.pci k) 0x10 1 1 1
  ((x.post (evCode (.pci k) evPciFailover) 0xFFFF (pageSrc x (.pci k)) false).msi k 0).msi k 1

/-- Automatic failover: a home that no longer reaches the host gives way to the other endpoint, where that does and AUTO
is set; not while the Mason is not ready. -/
def failover (s : State) : State :=
  match homeOf s with
  | some k =>
    if s.mas.ready && !hostUp s k && s.fld (.pci k) 0x44 2 1 == 1 && hostUp s (1 - k) then moveHome s (1 - k) else s
  | none => s

/-- The home as the Mason chooses it when it becomes ready after a reset (R574). -/
def firstHome (s : State) : State :=
  let k := if s.fld (.pci 0) 0x40 9 1 = 1 then 0 else 1
  (s.setFld (.pci k) 0x44 0 1 1).setFld (.pci (1 - k)) 0x44 0 1 0

end Sys2Proof.Machine
end

