-- ==== Sys2Proof/Machine/Pci.lean ====
section
/-! DEFINITION. The PCIe endpoints (R568 to R579, R669): links, the tier aperture, DMA queues, the home. -/

namespace Sys2Proof.Machine

/-- A command of an endpoint, which the part must have; without power, or in module reset, nothing happens (R644, R667). -/
def atPci (k : Nat) (s go : State) : Host.Outcome State Fault Refusal :=
  if k < 2 then .next (if powered s then go else s) else .fault .noSuchBlock

/-- The die an endpoint lies on (R21). -/
def pciDie (s : State) (k : Nat) : Nat := if k = 0 then 0 else s.part.lastDie

/-- An endpoint as the agent of its tier requests (R307, R570). -/
def pciAgent (s : State) (k : Nat) : Agent := ⟨pciDie s k, blockDest 6 (pciDie s k) 0, .request⟩

def linkUp (s : State) (k : Nat) : Bool := s.fld (.pci k) 0x40 9 1 == 1

/-- Whether the tiers answer an endpoint: its die's fabric runs, and the module is not in Curing (R577, R591). -/
def tiersOpen (s : State) (k : Nat) : Bool := !dieAsleep s (pciDie s k)

/-- n bytes that the spec leaves open. -/
def freeBytes (n : Nat) (s : State) : List Byte × State :=
  match n with
  | 0 => ([], s)
  | m + 1 =>
    let x := s.free
    let r := freeBytes m x.2
    (x.1.setWidth 8 :: r.1, r.2)

/-- The n bytes from byte b of a list of words. -/
def wordBytes (ws : List DWord) (b n : Nat) : List Byte :=
  (List.range n).map fun i => BitVec.ofNat 8 ((ws.getD ((b + i) / 8) 0).toNat / 256 ^ ((b + i) % 8))

/-- Bytes as words of eight. -/
def wholeWords : List Byte → List DWord
  | a :: b :: c :: d :: e :: f :: g :: h :: r => (h ++ g ++ f ++ e ++ d ++ c ++ b ++ a) :: wholeWords r
  | _ => []

/-! ### BAR reads and the aperture (R569, R570) -/

/-- BAR_READ_TIMEOUT (R569). -/
def execBarReadTimeout (k : Nat) (s : State) : Host.Outcome State Fault Refusal :=
  atPci k s (if linkUp s k then (s.record (.pci k) evErrAccess 0).emit (.readData 0) else s)

/-- The aperture entry of an address. -/
def apEntry (s : State) (n : Nat) : ApEntry := tget s.aperture n ⟨0, false, false, 0, 0⟩

/-- A completion with Unsupported Request (R570). -/
def unsupported (s : State) (k : Nat) : State := (s.count16 (.pci k) 0x48 16 1).emit (.unsupported k)

/-- A write through the aperture that is discarded (R570). -/
def discardWrite (s : State) (k : Nat) : State := (s.count16 (.pci k) 0x48 0 1).raise (.pci k) evPciAperture 0

/-- Whether a request lies in BAR4 and, as PCI Express has it, inside 4 KiB. -/
def inAperture (addr n : Nat) : Bool := decide (0 < n) && decide (addr < 2 ^ 36) && decide (addr % 4096 + n ≤ 4096)

/-- A read through the aperture (R570): a poisoned word makes the bytes open and sets the EP bit; none while it has to wait. -/
def apertureRead (s : State) (k addr len : Nat) : Option State :=
  let e := apEntry s (addr / 2 ^ 21)
  let off := addr % 2 ^ 21
  if !tiersOpen s k || !e.valid then some (unsupported s k)
  else
    let first := off / 8
    match accessWords s (pciAgent s k) e.job e.handle (e.seg.toNat * 2 ^ 18 + first) ((off + len - 1) / 8 - first + 1) with
    | (.data ws, t) => some (t.emit (.aperture k (wordBytes ws (off % 8) len) false))
    | (.poison, t) => let r := freeBytes len t; some (r.2.emit (.aperture k r.1 true))
    | (.refused, t) => some (unsupported t k)
    | (.wait, _) => none

/-- A write through the aperture (R570); none while it has to wait. -/
def apertureWrite (s : State) (k addr : Nat) (data : List Byte) : Option State :=
  let e := apEntry s (addr / 2 ^ 21)
  let off := addr % 2 ^ 21
  if !tiersOpen s k then some (unsupported s k)
  else if off % 8 ≠ 0 ∨ data.length % 8 ≠ 0 ∨ !e.valid ∨ !e.writeEn then some (discardWrite s k)
  else
    let ws := wholeWords data
    match accessPut (pciAgent s k) e.job e.handle (ws.length / 64 + 2) (e.seg.toNat * 2 ^ 18 + off / 8) ws s with
    | (.data _, _, t) => some t
    | (.wait, _, _) => none
    | (_, _, t) => some (discardWrite t k)

/-- Accesses made in their order, as far as none has to wait: a MOVED answer is resolved inside the endpoint (R570). -/
def apertureRun (k : Nat) : List ApAccess → State → State
  | [], s => s.setPci k { s.pci k with waiting := [] }
  | a :: r, s =>
    let done := match a with
      | .read addr len => apertureRead s k addr len
      | .write addr data => apertureWrite s k addr data
    match done with
    | some t => apertureRun k r t
    | none => s.setPci k { s.pci k with waiting := a :: r }

/-- An access that has come goes behind those that wait. -/
def apertureAccess (s : State) (k : Nat) (a : ApAccess) : State := apertureRun k ((s.pci k).waiting ++ [a]) s

/-- With no command to run, the accesses that wait are tried again. -/
def apertureIdle (s : State) : State :=
  [0, 1].foldl (fun t k => if (t.pci k).waiting.isEmpty then t else apertureRun k (t.pci k).waiting t) s

/-- APERTURE_READ (R570). -/
def execApertureRead (k addr len : Nat) (s : State) : Host.Outcome State Fault Refusal :=
  atPci k s (if linkUp s k && inAperture addr len then apertureAccess s k (.read addr len) else s)

/-- APERTURE_WRITE (R570). -/
def execApertureWrite (k addr : Nat) (data : List Byte) (s : State) : Host.Outcome State Fault Refusal :=
  atPci k s (if linkUp s k && inAperture addr data.length then apertureAccess s k (.write addr data) else s)

/-- The words of an aperture entry (R579). -/
def apWord (e : ApEntry) (k : Nat) : Word :=
  match k with
  | 0 => BitVec.ofNat 32 (e.handle.toNat + b2n e.valid * 2 ^ 20 + b2n e.writeEn * 2 ^ 21)
  | 1 => e.job.zeroExtend 32
  | _ => e.seg.zeroExtend 32

/-- AP_W0 or AP_W1 written: held until AP_W2 is (R579). -/
def apHold (s : State) (k off : Nat) (v : Word) : State := { s with loHeld := tset s.loHeld (.pci k, off) v }

/-- AP_W2 written: the entry that AP_SEL names takes it with what was written to AP_W0 and AP_W1 before (R579). -/
def apEntryWrite (s : State) (k : Nat) (v : Word) : State :=
  let n := s.fld (.pci k) 0x4C 0 15
  let e := apEntry s n
  let w0 := tget s.loHeld (.pci k, 0x50) (apWord e 0)
  let w1 := tget s.loHeld (.pci k, 0x54) (apWord e 1)
  { s with
    aperture := tset s.aperture n
      ⟨BitVec.ofNat 20 w0.toNat, bit w0 20, bit w0 21, BitVec.ofNat 16 w1.toNat, BitVec.ofNat 19 v.toNat⟩
    loHeld := tdel (tdel s.loHeld (.pci k, 0x50)) (.pci k, 0x54) }

/-- AP_ENTRY_WRITE (R579). -/
def execApEntryWrite (k : Nat) (v : Word) (s : State) : Host.Outcome State Fault Refusal := atPci k s (apEntryWrite s k v)

/-! ### DMA queues (R571, R572) -/

def qIx (q : Nat) : Fin 16 := ⟨q % 16, Nat.mod_lt q (by decide)⟩

def State.dq (s : State) (k q : Nat) : DmaQueue := (s.pci k).queues[qIx q]

def State.setDq (s : State) (k q : Nat) (v : DmaQueue) : State :=
  s.setPci k { s.pci k with queues := (s.pci k).queues.set (qIx q) v }

def DmaQueue.on (d : DmaQueue) : Bool := bit d.cfg 31

def DmaQueue.size (d : DmaQueue) : Nat := 2 ^ bits d.cfg 0 5

/-- A descriptor waits in a queue that is enabled and not halted. -/
def DmaQueue.ready (d : DmaQueue) : Bool :=
  d.on && !d.halted && d.head.toNat % d.size != d.tail.toNat % d.size

/-- The completion of the descriptor at HEAD: its entry, its vector, and where it failed the halt and DMA_FAULT (R572). -/
def dmaDone (s : State) (k q : Nat) (d : DmaDesc) (status moved : Nat) : State :=
  let x := s.dq k q
  let last := x.cplIdx + 1 == x.size
  let t := s.setDq k q { x with
    head := BitVec.ofNat 16 ((x.head.toNat + 1) % x.size)
    cplIdx := if last then 0 else x.cplIdx + 1
    phase := if last then !x.phase else x.phase
    halted := status != 0
    status := if status = 0 then x.status else BitVec.ofNat 8 status }
  let u := t.emit (.dmaCompletion k q x.head.toNat status x.phase moved)
  let w := if d.flags.toNat % 2 = 1 then u.msi k (2 + q) else u
  if status = 0 then w else w.raise (.pci k) evDmaFault 0

/-- Whether a transfer's fields are as R571 has them. -/
def dmaFieldsOk (d : DmaDesc) : Bool :=
  let n := d.length.toNat
  n % 8 == 0 && decide (8 ≤ n) && decide (n ≤ 2 ^ 24) && d.hostAddr.toNat % 8 == 0 && d.offset.toNat % 8 == 0
    && decide (d.offset.toNat < 2 ^ 40) && decide (d.handle.toNat < 2 ^ 20)

/-- The descriptor at the head of a queue, read from host memory: it is executed by the row of its opcode; an unknown
opcode, or an unused byte that is not 0, is a bad field. -/
def dmaNext (s : State) (k q : Nat) (d : DmaDesc) (opcode : Nat) (go : State) : Host.Outcome State Fault Refusal :=
  if 2 ≤ k ∨ 16 ≤ q then .fault .noSuchBlock
  else if !(s.dq k q).ready || !hostUp s k || !powered s || s.pstate == .curing then .next s
  else if 2 < d.opcode.toNat ∨ d.spare then .next (dmaDone s k q d 1 0)
  else if d.opcode.toNat = opcode then .next go
  else .next s

/-- DMA_NOP (R571). -/
def execDmaNop (k q : Nat) (d : DmaDesc) (s : State) : Host.Outcome State Fault Refusal :=
  dmaNext s k q d 0 (dmaDone s k q d 0 0)

/-- STATUS of a transfer that a tier stopped (R572). -/
def dmaStatus (g : Got) : Nat :=
  match g with
  | .data _ => 0
  | .poison => 3
  | .refused => 2
  | .wait => 0

/-- Host to tier: the words that came, written line by line; then an error completion of the host, if there was one. -/
def dmaIn (s : State) (k q : Nat) (d : DmaDesc) (data : List DWord) (err : Bool) : State :=
  let n := d.length.toNat / 8
  if !dmaFieldsOk d then dmaDone s k q d 1 0
  else if n < data.length ∨ (!err ∧ data.length ≠ n) then s
  else
    match accessPut (pciAgent s k) d.job (d.handle.setWidth 20) (n / 64 + 2) (d.offset.toNat / 8) data s with
    | (.wait, _, _) => s
    | (g, m, t) => dmaDone t k q d (if dmaStatus g = 0 ∧ err then 5 else dmaStatus g) (8 * m)

/-- DMA_HOST_TO_TIER (R572). -/
def execDmaHostToTier (k q : Nat) (d : DmaDesc) (data : List DWord) (err : Bool) (s : State) :
    Host.Outcome State Fault Refusal :=
  dmaNext s k q d 1 (dmaIn s k q d data err)

/-- The lines of n words of a tensor from word w on, as far as they are good: what stopped the transfer, and the words
read before it. -/
def dmaLines (g : Agent) (job : Half) (handle : BitVec 20) : Nat → Nat → Nat → State → Got × List DWord × State
  | 0, _, _, s => (.data [], [], s)
  | fuel + 1, w, n, s =>
    if n = 0 then (.data [], [], s)
    else
      let m := min n (64 - w % 64)
      match accessWords s g job handle w m with
      | (.data ws, t) => let r := dmaLines g job handle fuel (w + m) (n - m) t; (r.1, ws ++ r.2.1, r.2.2)
      | (x, t) => (x, [], t)

/-- Tier to host: the lines read, written to the host, then the completion. -/
def dmaOut (s : State) (k q : Nat) (d : DmaDesc) (err : Bool) : State :=
  let n := d.length.toNat / 8
  if !dmaFieldsOk d then dmaDone s k q d 1 0
  else
    match dmaLines (pciAgent s k) d.job (d.handle.setWidth 20) (n / 64 + 2) (d.offset.toNat / 8) n s with
    | (.wait, _, _) => s
    | (g, ws, t) =>
      if err then dmaDone t k q d 5 0
      else dmaDone (if ws.isEmpty then t else t.emit (.hostWrite k d.hostAddr ws)) k q d (dmaStatus g) (8 * ws.length)

/-- DMA_TIER_TO_HOST (R572). -/
def execDmaTierToHost (k q : Nat) (d : DmaDesc) (err : Bool) (s : State) : Host.Outcome State Fault Refusal :=
  dmaNext s k q d 2 (dmaOut s k q d err)

/-- A write to DQ_CFG (R494, R572, R579): ENABLE sets the indices to 0 and the phase to 1 and ends a halt. -/
def dqCfgWrite (s : State) (k q : Nat) (v : Word) : State :=
  let x := s.dq k q
  if bits v 0 5 < 4 ∨ 16 < bits v 0 5 then s.record (.pci k) evErrRange 0
  else if !bit v 31 then s.setDq k q { x with cfg := v &&& 0x8000001F }
  else s.setDq k q { x with
    cfg := v &&& 0x8000001F, head := 0, tail := 0, cplIdx := 0, phase := true, halted := false, status := 0 }

/-- DQ_ENABLE (R572). -/
def execDqEnable (k q : Nat) (v : Word) (s : State) : Host.Outcome State Fault Refusal :=
  if q < 16 then atPci k s (dqCfgWrite s k q v) else .fault .noSuchBlock

/-! ### Links and resets (R568, R574 to R576, R669) -/

/-- MAKE_HOME (R575), while the Mason runs. -/
def execMakeHome (k : Nat) (s : State) : Host.Outcome State Fault Refusal :=
  atPci k s (if s.mas.ready then moveHome s k else s)

/-- The queues of an endpoint that goes down: halted, a descriptor in progress with STATUS 4 (R572, R576). -/
def haltQueues (s : State) (k : Nat) : State :=
  (List.range 16).foldl (fun t q =>
    let x := t.dq k q
    if !x.on || x.halted then t
    else if x.ready then (t.setDq k q { x with halted := true, status := 4 }).raise (.pci k) evDmaFault 0
    else t.setDq k q { x with halted := true }) s

/-- An endpoint's link, or its Bus Master Enable, gone: its queues halt, and the home moves where it may. Accesses that wait inside it go
with the link. -/
def pciDown (s : State) (k : Nat) (link : Bool) : State :=
  let t := (if link then s.setFld (.pci k) 0x40 0 11 0 else s.setFld (.pci k) 0x40 10 1 0).setFld (.pci k) 0x40 11 1 1
  failover (haltQueues (if link then t.setPci k { t.pci k with waiting := [] } else t) k)

/-- PCIE_LINK_DOWN (R576). -/
def execPcieLinkDown (k : Nat) (link : Bool) (s : State) : Host.Outcome State Fault Refusal :=
  atPci k s (if linkUp s k && (link || hostUp s k) then pciDown s k link else s)

/-- Whether an endpoint's rails, die and reset allow its link (R661, R665, R667, R669). -/
def mayTrain (s : State) (k : Nat) : Bool :=
  (s.pci k).ready && powered s && !dieHeld s (pciDie s k)

/-- PCIE_LINK_UP (R575): the link up, at a speed and width of R568, or Bus Master Enable set. -/
def pciUp (s : State) (k : Nat) (bme : Bool) (speed width : Nat) : State :=
  if !mayTrain s k || speed < 1 || 6 < speed || !([1, 2, 4, 8, 16].contains width) then s
  else
    let old := s.reg (.pci k) 0x40
    let new := BitVec.ofNat 32 (speed + width * 2 ^ 4 + 2 ^ 9 + b2n bme * 2 ^ 10)
    let chg := bit old 11 || bits old 9 2 != bits new 9 2
    (s.setReg (.pci k) 0x40 (setBits new 11 1 (b2n chg))).setFld .clk 0x40 (18 + k) 1 1

def execPcieLinkUp (k : Nat) (bme : Bool) (speed width : Nat) (s : State) : Host.Outcome State Fault Refusal :=
  atPci k s (pciUp s k bme speed width)

/-- FLR (R568): the endpoint's DMA queues and MSI-X state. -/
def execFlr (k : Nat) (s : State) : Host.Outcome State Fault Refusal :=
  atPci k s (s.setPci k { s.pci k with queues := Vector.replicate 16 DmaQueue.reset, msix := [], pba := 0 })

/-- PERST_RELEASE (R669): the endpoint becomes ready, where its power is good. -/
def execPerstRelease (k : Nat) (s : State) : Host.Outcome State Fault Refusal :=
  atPci k s (s.setPci k { s.pci k with ready := true })

/-- Device ID of the part (R568). -/
def deviceId (part : Part) : Nat :=
  match part with
  | .td8At110 => 0xD208
  | .td8At125 => 0xD208
  | .td4At110 => 0xD204
  | .td2At110 => 0xD202

/-- Fields that a configuration doubleword must show, each a lowest bit, a width and a value: of the header the Device ID, the
class code and a single function; of the capabilities, which stand where the implementation has them, the identifiers, the
payload and read request sizes, 10-bit tags, Function Level Reset, and power state D0 (R568). The fields are laid out as PCI Express
has them (PRESUMED, log 218). -/
def configFields (part : Part) (dw : Nat) : List (Nat × Nat × Nat) :=
  let pcie := Config.pciCapability 0x10
  let power := Config.pciCapability 0x01
  if dw = 0 then [(16, 16, deviceId part)]
  else if dw = 2 then [(8, 24, 0x120000)]
  else if dw = 3 then [(23, 1, 0)]
  else if dw = pcie then [(0, 8, 0x10)]
  else if dw = pcie + 1 then [(0, 3, 2), (28, 1, 1)]
  else if dw = pcie + 2 then [(5, 3, Config.payloadSize % 3), (12, 3, Config.readRequest % 6)]
  else if dw = pcie + 9 then [(16, 2, 3)]
  else if dw = power then [(0, 8, 0x01)]
  else if dw = power + 1 then [(0, 2, 0)]
  else if dw = Config.pciCapability 0x11 then [(0, 8, 0x11)]
  else if dw = Config.aerCapability then [(0, 16, 0x0001)]
  else []

/-- PCIE_CONFIG_REQUEST (R568, R669): Retry Status until the endpoint is ready; then the configuration doubleword, whose bits the
spec leaves open but for these fields. -/
def configRequest (s : State) (k dw : Nat) : State :=
  if !(s.pci k).ready then s.emit (.configRetry k)
  else
    let x := s.free
    x.2.emit (.configData k ((configFields s.part dw).foldl (fun v f => setBits v f.1 f.2.1 f.2.2) (x.1.setWidth 32)))

def execPcieConfigRequest (k dw : Nat) (s : State) : Host.Outcome State Fault Refusal := atPci k s (configRequest s k dw)

end Sys2Proof.Machine
end

