-- ==== Sys2Proof/Machine/Optim.lean ====
section
/-! DEFINITION. The optimiser rules (R440, R443, R444), as OPTUPD and the Planes share them, and OPTUPD itself (R251 to R254,
R441). -/

namespace Sys2Proof.Machine

/-- A hyperparameter block decoded (R440). -/
structure Hyper where
  seed : DWord
  step : DWord
  epoch : DWord
  lr : Val
  wd : Val
  beta1 : Val
  omb1 : Val
  beta2 : Val
  omb2 : Val
  eps : Val
  gscale : Val
  bc1 : Val
  bc2 : Val
  deriving DecidableEq, Repr

/-- Half j of word k of a block of words. -/
def halfOf (ws : List Nat) (k j : Nat) : Nat := ws.getD k 0 / 2 ^ (32 * j) % 2 ^ 32

/-- A hyperparameter block from its eight words (R440). -/
def hyperOf (ws : List Nat) : Hyper where
  seed := BitVec.ofNat 64 (ws.getD 0 0)
  step := BitVec.ofNat 64 (halfOf ws 1 0)
  epoch := BitVec.ofNat 64 (halfOf ws 1 1)
  lr := elem 0 (halfOf ws 2 0)
  wd := elem 0 (halfOf ws 2 1)
  beta1 := elem 0 (halfOf ws 3 0)
  omb1 := elem 0 (halfOf ws 3 1)
  beta2 := elem 0 (halfOf ws 4 0)
  omb2 := elem 0 (halfOf ws 4 1)
  eps := elem 0 (halfOf ws 5 0)
  gscale := elem 0 (halfOf ws 5 1)
  bc1 := elem 0 (halfOf ws 6 0)
  bc2 := elem 0 (halfOf ws 6 1)

/-- r(a / b): the exact quotient rounded once to FP32 by RNE, IEEE 754 for special values (R213, R443). -/
def divR (a b : Val) : Val :=
  match a, b with
  | .nan, _ => .nan
  | _, .nan => .nan
  | .inf _, .inf _ => .nan
  | .inf x, .fin y _ _ => .inf (x ^^ y)
  | .fin x _ _, .inf y => .fin (x ^^ y) 0 0
  | .fin x ma ea, .fin y mb eb =>
    if mb = 0 then (if ma = 0 then .nan else .inf (x ^^ y))
    else if ma = 0 then .fin (x ^^ y) 0 0
    else (roundPos (x ^^ y) (log2Quot ma ea mb eb) (floorQuot ma ea mb eb) 0 .rne 0 false).1

/-- r(sqrt(x)), IEEE 754 for special values (R213, R443). -/
def sqrtR (x : Val) : Val :=
  match x with
  | .nan => .nan
  | .inf n => if n then .nan else .inf false
  | .fin n m e =>
    if m = 0 then .fin n 0 0
    else if n then .nan
    else (roundPos false (log2Sqrt m e) (floorSqrt m e) 0 .rne 0 false).1

/-- fin of R443: the stored value of a quantity from its exact expression. -/
def finR (h : Hyper) (idx : Nat) (x : Val) (fmt lane : Nat) : Val :=
  if fmt = 0 then rne32 x
  else (convertVal (convertVal x 0 .rto 0 false).1 1 .sr
    (rbits h.seed h.epoch h.step (BitVec.ofNat 64 (idx % 2 ^ 48)) lane) false).1

/-- sgn of R443. -/
def sgnVal (c : Val) : Val :=
  if c.isNan then .nan else if Val.lt Val.zero c then Val.ofInt 1 else if Val.lt c Val.zero then Val.ofInt (-1) else Val.zero

/-- update of R443: the new parameter and the two new states. -/
def optUpdate (rule pf sf : Nat) (h : Hyper) (idx : Nat) (p s1 s2 graw : Val) : Val × Val × Val :=
  let r := rne32
  let g := r (h.gscale.mul graw)
  match rule with
  | 0 =>
    let u := r (g.add (r (h.wd.mul p)))
    (finR h idx (p.sub (h.lr.mul u)) pf 0, s1, s2)
  | 1 =>
    let u := r (g.add (r (h.wd.mul p)))
    let m := finR h idx ((h.beta1.mul s1).add u) sf 1
    (finR h idx (p.sub (h.lr.mul m)) pf 0, m, s2)
  | 2 =>
    let u := r (g.add (r (h.wd.mul p)))
    let m := finR h idx ((h.beta1.mul s1).add u) sf 1
    let v := r (u.add (r (h.beta1.mul m)))
    (finR h idx (p.sub (h.lr.mul v)) pf 0, m, s2)
  | 3 =>
    let m := finR h idx ((r (h.beta1.mul s1)).add (h.omb1.mul g)) sf 1
    let w := finR h idx ((r (h.beta2.mul s2)).add (h.omb2.mul (r (g.mul g)))) sf 2
    let den := r ((sqrtR (r (w.mul h.bc2))).add h.eps)
    let t := r ((divR (r (m.mul h.bc1)) den).add (r (h.wd.mul p)))
    (finR h idx (p.sub (h.lr.mul t)) pf 0, m, w)
  | 4 =>
    let c := r ((r (h.beta1.mul s1)).add (h.omb1.mul g))
    let t := r ((sgnVal c).add (r (h.wd.mul p)))
    let m := finR h idx ((r (h.beta2.mul s1)).add (h.omb2.mul g)) sf 1
    (finR h idx (p.sub (h.lr.mul t)) pf 0, m, s2)
  | _ =>
    let u := r (g.add (r (h.wd.mul p)))
    let a := finR h idx (s1.add (u.mul u)) sf 1
    let t := divR u (r ((sqrtR a).add h.eps))
    (finR h idx (p.sub (h.lr.mul t)) pf 0, a, s2)

/-- State tensors of a rule (R444). -/
def optStates (rule : Nat) : Nat :=
  match rule with
  | 0 => 0
  | 3 => 2
  | _ => 1

/-! ### OPTUPD -/

/-- The decoded body of an OPTUPD (R251). -/
structure Opt where
  rule : Nat
  pf : Nat
  sf : Nat
  nelem : Nat
  index : Nat
  deriving DecidableEq, Repr

def optOf (i : EngInstr) : Opt where
  rule := bits (iw i 6) 0 4
  pf := bits (iw i 6) 4 4
  sf := bits (iw i 6) 8 4
  nelem := bits (iw i 7) 0 16
  index := (iw i 8).toNat + bits (iw i 9) 0 16 * 2 ^ 32

/-- Words of RANGE_W, at offsets from `base`, read once each for a read-modify-write (R258). -/
def readRecord (r : Run) (i : EngInstr) (base : Nat) : List Nat → List (Nat × Nat × Bool) × Run
  | [] => ([], r)
  | o :: rest =>
    let x := readRmw r i 2 (base + o)
    let y := readRecord x.2 i base rest
    ((o, x.1) :: y.1, y.2)

/-- What the elements of a record take from its words. -/
def recordData (ws : List (Nat × Nat × Bool)) : List (Nat × Nat) := ws.map fun w => (w.1, w.2.1)

/-- The bits written back to the words of a record that were read, from offset `base` (R252, R258). -/
def writeRecord (r : Run) (i : EngInstr) (base : Nat) (ws : List (Nat × Nat × Bool)) (b : Bits) : Run :=
  ws.foldl (fun r w =>
    writeRmw r i 2 (base + w.1) w.2 (b.data / 2 ^ (64 * w.1) % 2 ^ 64) (b.mask / 2 ^ (64 * w.1) % 2 ^ 64)) r

/-- One record of 16 parameters, in the order parameters, state 1, state 2 (R252). -/
def optRecord (r : Run) (i : EngInstr) (o : Opt) (h : Hyper) (k : Nat) : Run :=
  let cp : Conv := ⟨o.pf, 0, .rne, 0⟩
  let cs : Conv := ⟨o.sf, 0, .rne, 0⟩
  let cg : Conv := ⟨0, 0, .rne, 0⟩
  let ns := optStates o.rule
  let base := k * (cp.dataWords 16 + ns * cs.dataWords 16)
  let b1 := base + cp.dataWords 16
  let b2 := b1 + cs.dataWords 16
  let es := List.range (min 16 (o.nelem - 16 * k))
  let words := fun (c : Conv) => (es.flatMap fun e => c.wordsOf 16 e).eraseDups
  let g := readAt r i 0 (8 * k) (words cg)
  let p := readRecord g.2 i base (words cp)
  let s1 := if 1 ≤ ns then readRecord p.2 i b1 (words cs) else ([], p.2)
  let s2 := if 2 ≤ ns then readRecord s1.2 i b2 (words cs) else ([], s1.2)
  let out := es.map fun e =>
    optUpdate o.rule o.pf o.sf h (o.index + 16 * k + e) (cp.elemOf 16 (recordData p.1) e)
      (cs.elemOf 16 (recordData s1.1) e) (cs.elemOf 16 (recordData s2.1) e) (cg.elemOf 16 g.1 e)
  let pack := fun (c : Conv) (vs : List Val) =>
    (vs.zipIdx).foldl (fun (b : Bits) q => b.put (q.2 * c.width) c.width (codeOf c.fmt q.1)) Bits.none
  let r1 := writeRecord s2.2 i base p.1 (pack cp (out.map fun x => x.1))
  let r2 := writeRecord r1 i b1 s1.1 (pack cs (out.map fun x => x.2.1))
  writeRecord r2 i b2 s2.1 (pack cs (out.map fun x => x.2.2))

/-- A whole OPTUPD (R252). -/
def runOptupd (v : Ashlar) (i : EngInstr) : Run :=
  let o := optOf i
  let h := readAt (Run.start v) i 1 0 (List.range 8)
  (List.range (ceilDiv o.nelem 16)).foldl (fun r k => optRecord r i o (hyperOf (h.1.map fun w => w.2)) k) h.2

/-- The head of the vector queue, an OPTUPD of this rule, starts and does its whole work. -/
def optTurn (s : State) (a : Ash) (rule : Nat) : Host.Outcome State Fault Refusal :=
  atAsh s a <|
    .next (startHead s a .vector (fun i => opcodeOf i == 0x30 && bits (iw i 6) 0 4 == rule) fun t i =>
      t.commitRun a i (runOptupd (t.ash a) i))

/-- The further decode conditions of OPTUPD: true where one fails (R253, R441). -/
def optupdIllegal (v : Ashlar) (i : EngInstr) : Bool :=
  let o := optOf i
  decide (5 < o.rule) || decide (1 < o.pf) || decide (1 < o.sf) || o.nelem == 0
    || (v.win (rangeWin (irange i 2))).cls == 0
    || bits (iw i 6) 12 20 != 0 || bits (iw i 7) 16 16 != 0 || bits (iw i 9) 16 16 != 0
    || rangeLen (irange i 1) != 8

/-- OPTUPD, SGD (R443). -/
def execOptupdSgd (a : Ash) (s : State) : Host.Outcome State Fault Refusal := optTurn s a 0

/-- OPTUPD, momentum SGD (R443). -/
def execOptupdMomentum (a : Ash) (s : State) : Host.Outcome State Fault Refusal := optTurn s a 1

/-- OPTUPD, Nesterov (R443). -/
def execOptupdNesterov (a : Ash) (s : State) : Host.Outcome State Fault Refusal := optTurn s a 2

/-- OPTUPD, AdamW (R443). -/
def execOptupdAdamw (a : Ash) (s : State) : Host.Outcome State Fault Refusal := optTurn s a 3

/-- OPTUPD, Lion (R443). -/
def execOptupdLion (a : Ash) (s : State) : Host.Outcome State Fault Refusal := optTurn s a 4

/-- OPTUPD, Adagrad (R443). -/
def execOptupdAdagrad (a : Ash) (s : State) : Host.Outcome State Fault Refusal := optTurn s a 5

end Sys2Proof.Machine
end

