-- ==== Sys2Proof/Machine/Plane.lean ====
section
/-! DEFINITION. The Planes (R445 to R452, R455, R463 to R465): triggers, dispatch, work items, their answers, and writes of
descriptors. -/

namespace Sys2Proof.Machine

/-! ### Descriptors (R437, R455, R463) -/

/-- A sweep descriptor decoded. -/
structure Sweep where
  rule : Nat
  sparse : Bool
  pf : Nat
  sf : Nat
  job : Half
  phandle : BitVec 20
  ghandle : BitVec 20
  hhandle : BitVec 20
  hslot : Nat
  index : Nat
  bhandle : BitVec 20
  rowlen : Nat
  nelem : Nat
  deriving DecidableEq, Repr

def PlaneDesc.word (d : PlaneDesc) (k : Nat) : Word := d.regs[ix 10 k (by decide)]

def PlaneDesc.valid (d : PlaneDesc) : Bool := bit (d.word 0) 15

def PlaneDesc.job (d : PlaneDesc) : Half := BitVec.ofNat 16 (bits (d.word 0) 16 16)

/-- THRESH; 0 acts as 1. -/
def PlaneDesc.thresh (d : PlaneDesc) : Nat := max 1 (bits (d.word 5) 16 16)

def PlaneDesc.sweep (d : PlaneDesc) : Sweep where
  rule := bits (d.word 0) 0 3
  sparse := bit (d.word 0) 3
  pf := bits (d.word 0) 4 4
  sf := bits (d.word 0) 8 4
  job := d.job
  phandle := BitVec.ofNat 20 (bits (d.word 1) 0 20)
  ghandle := BitVec.ofNat 20 (bits (d.word 2) 0 20)
  hhandle := BitVec.ofNat 20 (bits (d.word 3) 0 20)
  hslot := bits (d.word 3) 20 12
  index := (d.word 4).toNat + bits (d.word 5) 0 16 * 2 ^ 32
  bhandle := BitVec.ofNat 20 (bits (d.word 7) 0 20)
  rowlen := if bits (d.word 7) 20 12 = 0 then 4096 else bits (d.word 7) 20 12
  nelem := (d.word 8).toNat + bits (d.word 9) 0 8 * 2 ^ 32

/-- Bytes of an element of a format: 2 for BF16, 4 for FP32. -/
def fmtBytes (f : Nat) : Nat := if f = 1 then 2 else 4

def Sweep.states (w : Sweep) : Nat := optStates w.rule

/-- B of R437. -/
def Sweep.recBytes (w : Sweep) : Nat := fmtBytes w.pf + w.states * fmtBytes w.sf

/-- G of R437. -/
def Sweep.group (w : Sweep) : Nat := 16 * (32 / w.recBytes)

/-- Words of a line in use. -/
def Sweep.lineWords (w : Sweep) : Nat := w.group * w.recBytes / 8

/-- LPR of R455. -/
def Sweep.rowLines (w : Sweep) : Nat := (w.rowlen + w.group - 1) / w.group

/-- Lines of the tensor (R437, R455). -/
def Sweep.lines (w : Sweep) : Nat :=
  if w.sparse then w.nelem / w.rowlen * w.rowLines else (w.nelem + w.group - 1) / w.group

/-- First element of a line and how many of its elements are swept (R437, R450, R455). -/
def Sweep.lineElems (w : Sweep) (line : Nat) : Nat × Nat :=
  if w.sparse then
    let j := line % w.rowLines * w.group
    (line / w.rowLines * w.rowlen + j, min w.group (w.rowlen - j))
  else (line * w.group, min w.group (w.nelem - line * w.group))

/-! ### Planes as state -/

def allCtls : List Ctl := [.stack0, .stack1, .lpddr, .dimm]

def State.plane (s : State) (die : Nat) (c : Ctl) : Plane := (s.die die).planes[ctlIx c]

def State.setPlane (s : State) (die : Nat) (c : Ctl) (p : Plane) : State :=
  let d := s.die die
  s.setDie die { d with planes := d.planes.set (ctlIx c) p }

def Plane.desc (p : Plane) (d : Nat) : PlaneDesc := p.descs[ix 64 d (by decide)]

def Plane.setDesc (p : Plane) (d : Nat) (x : PlaneDesc) : Plane := { p with descs := p.descs.set (ix 64 d (by decide)) x }

/-- Whether a descriptor is being dispatched. -/
def Plane.dispatching (p : Plane) (d : Nat) : Bool :=
  match p.disp with
  | some x => x.desc == d
  | none => false

/-- A valid descriptor whose trigger count holds joins the queue once (R447). -/
def Plane.enqueue (p : Plane) (d : Nat) : Plane :=
  let x := p.desc d
  if x.valid && holds x.tcount.toNat x.thresh && !p.queue.contains d && !p.dispatching d then
    { p with queue := p.queue ++ [d] }
  else p

/-- PLN.FAULT_INFO filled while it holds no fault, and PLANE_FAULT raised (R451, R464). -/
def State.planeFault (s : State) (die : Nat) (c : Ctl) (desc status seg : Nat) : State :=
  let p := Page.pln die c
  let t :=
    if s.fld p 0x74 31 1 = 1 then s
    else s.setReg p 0x74 (BitVec.ofNat 32 (desc % 64 + status % 4 * 64 + seg % 2 ^ 19 * 256 + 2 ^ 31))
  t.raise p evPlaneFault 0

/-- A packet at a tier block, held where a lintel on its way is down, discarded where poisoned. -/
def toCtl (s : State) (p : Packet) (go : Nat → Ctl → State → State) : Host.Outcome State Fault Refusal :=
  match ctlOfDest p.dest with
  | none => if destMissing s p.dest then .fault .noSuchBlock else .next s
  | some (die, c) =>
    if !blockExists s.part p.dest then .fault .noSuchBlock
    else if !routeUp s p then .next s
    else if p.poisoned then .next ((s.take p).discardAtBlock die p.src)
    else .next (go die c (s.take p))

/-! ### PLANE_TRIGGER (R447) -/

/-- A PSIG at a Plane: refused with code 5, or its INC added to the descriptor's trigger count. -/
def planeTrigger (p : Packet) (peg : BitVec 6) (inc : Byte) (job : Half) (die : Nat) (c : Ctl) (s : State) : State :=
  let pl := s.plane die c
  let d := peg.toNat
  let x := pl.desc d
  if !x.valid || x.job != job then s.nak p 5
  else s.setPlane die c ((pl.setDesc d { x with tcount := x.tcount + inc.zeroExtend 16 }).enqueue d)

def execPlaneTrigger (p : Packet) (s : State) : Host.Outcome State Fault Refusal :=
  match p.body with
  | .psig peg inc job => toCtl s p fun die c t => planeTrigger p peg inc job die c t
  | _ => .next s

/-! ### What a Plane reads of the tiers (R403, R445) -/

/-- A Plane as the agent of its requests, class T (R445). -/
def planeAgent (die : Nat) (c : Ctl) : Agent := ⟨die, ctlDest die c, .plane⟩

/-- A Plane's read of n words of one line. -/
def planeRead (s : State) (die : Nat) (c : Ctl) (fd : Word) (off n : Nat) : Got × State :=
  accessRead s (planeAgent die c) fd off n

/-- Words w to w + n − 1 of a tensor. -/
def planeWords (s : State) (die : Nat) (c : Ctl) (job : Half) (handle : BitVec 20) (w n : Nat) : Got × State :=
  accessWords s (planeAgent die c) job handle w n

/-! ### The sweep of an item (R450, R455) -/

/-- Words as one number, word k at bit 64·k. -/
def wordsNat (ws : List DWord) : Nat :=
  match ws with
  | [] => 0
  | w :: r => w.toNat + 2 ^ 64 * wordsNat r

/-- n words of a number. -/
def natWords (v : Nat) : Nat → List DWord
  | 0 => []
  | n + 1 => BitVec.ofNat 64 v :: natWords (v / 2 ^ 64) n

/-- b bytes at byte offset o of a number. -/
def field (v o b : Nat) : Nat := v / 2 ^ (8 * o) % 2 ^ (8 * b)

def putField (v o b x : Nat) : Nat := v - field v o b * 2 ^ (8 * o) + x % 2 ^ (8 * b) * 2 ^ (8 * o)

/-- Elements counted while a line is updated: those whose parameter became NaN, and those of which a value is infinite. -/
structure LineSum where
  line : Nat
  nan : Nat
  inf : Nat
  deriving DecidableEq, Repr

/-- One element of a line updated by R443: position j, gradient code g, parameter index idx. -/
def sweepElem (w : Sweep) (h : Hyper) (idx j g : Nat) (a : LineSum) : LineSum :=
  let bp := fmtBytes w.pf
  let bs := fmtBytes w.sf
  let o1 := w.group * bp
  let o2 := o1 + w.group * bs
  let at1 := fun (o : Nat) => elem w.sf (field a.line (o + j * bs) bs)
  let r := optUpdate w.rule w.pf w.sf h idx (elem w.pf (field a.line (j * bp) bp)) (at1 o1) (at1 o2) (elem 0 g)
  let l1 := putField a.line (j * bp) bp (codeOf w.pf r.1)
  let l2 := if 1 ≤ w.states then putField l1 (o1 + j * bs) bs (codeOf w.sf r.2.1) else l1
  let l3 := if 2 ≤ w.states then putField l2 (o2 + j * bs) bs (codeOf w.sf r.2.2) else l2
  ⟨l3, a.nan + b2n r.1.isNan,
    a.inf + b2n (r.1.isInf || (decide (1 ≤ w.states) && r.2.1.isInf)
      || (decide (2 ≤ w.states) && r.2.2.isInf))⟩

/-- n elements of a line from position 0, the first of them element e0 of the tensor, its gradient at 4-byte place g0. -/
def sweepElems (w : Sweep) (h : Hyper) (grads e0 g0 n : Nat) (line : Nat) : LineSum :=
  (List.range n).foldl (fun a j => sweepElem w h (w.index + e0 + j) j (field grads (4 * (g0 + j)) 4) a) ⟨line, 0, 0⟩

/-- One line of an item swept: its gradient and its used words read, the elements updated, the words written back; or how
the item stops. -/
def sweepLine (s : State) (die : Nat) (c : Ctl) (w : Sweep) (h : Hyper) (fd : Word) (off line : Nat) : Got × State :=
  let q := w.lineElems line
  let g0 := q.1 / 2
  match planeWords s die c w.job w.ghandle g0 ((q.1 + q.2 + 1) / 2 - g0) with
  | (.data gs, t) =>
    (match planeRead t die c fd off w.lineWords with
     | (.data ws, u) =>
       let r := sweepElems w h (wordsNat gs) q.1 (q.1 % 2) q.2 (wordsNat ws)
       let p := Page.pln die c
       let u1 := (u.count16 p 0x78 0 r.nan).count16 p 0x78 16 r.inf
       let u2 := if perfFrozen u1 p 0x90 then u1 else u1.perfAdd p 0x80 q.2
       let tier := fdTier fd
       let n := slotCount (off / 8) w.lineWords
       let u3 := ((u2.heat die tier (fdFrame fd) off).slotsT die (ctlOf tier off) (ctlDest die c) n).tcSlots die (ctlOf tier off) 0x60 n
       (.data [], u3.tierWrite die tier (fdFrame fd) (off / 8) (natWords r.line w.lineWords) [])
     | x => x)
  | x => x

/-- The lines of an item from byte offset off of its segment on: n lines at most; rows whose bit is 0 are passed over. The
answer is a status and the first line not written; none while the item waits. -/
def sweepLines (die : Nat) (c : Ctl) (w : Sweep) (h : Hyper) (fd : Word) (seg : Nat) (touched : Nat → Bool) :
    Nat → Nat → State → Option (BitVec 2 × Nat × State)
  | 0, off, s => some (0, off, s)
  | n + 1, off, s =>
    let line := seg * 4096 + off / 512
    if w.lines ≤ line then some (0, off, s)
    else if w.sparse && !touched (line / w.rowLines) then sweepLines die c w h fd seg touched n (off + 512) s
    else
      match sweepLine s die c w h fd off line with
      | (.data _, t) => sweepLines die c w h fd seg touched n (off + 512) t
      | (.poison, t) => some (2, off, t)
      | (.refused, t) => some (3, off, t)
      | (.wait, _) => none

/-- The touched-row bits of the rows of a segment from byte offset off on: a first row, and the bits read (R455). -/
def readTouched (s : State) (die : Nat) (c : Ctl) (w : Sweep) (seg off : Nat) : Got × Nat × State :=
  let first := seg * 4096 + off / 512
  let last := min (seg * 4096 + 4095) (w.lines - 1)
  if !w.sparse || decide (w.lines ≤ first) then (.data [], 0, s)
  else
    let r0 := first / w.rowLines / 64
    let r1 := last / w.rowLines / 64
    let x := planeWords s die c w.job w.bhandle r0 (r1 + 1 - r0)
    (x.1, 64 * r0, x.2)

/-- A whole item: its hyperparameter block, its bitmap, its lines; none while it waits. -/
def sweepItem (s : State) (die : Nat) (c : Ctl) (w : Sweep) (fd : Word) (seg off : Nat) :
    Option (BitVec 2 × Nat × State) :=
  match planeWords s die c w.job w.hhandle (8 * w.hslot) 8 with
  | (.poison, t) => some (2, off, t)
  | (.refused, t) => some (3, off, t)
  | (.wait, _) => none
  | (.data hs, t) =>
    match readTouched t die c w seg off with
    | (.poison, _, u) => some (2, off, u)
    | (.refused, _, u) => some (3, off, u)
    | (.wait, _, _) => none
    | (.data bs, row0, u) =>
      let m := wordsNat bs
      sweepLines die c w (hyperOf (hs.map fun x => x.toNat)) fd seg (fun k => m / 2 ^ (k - row0) % 2 == 1)
        (4096 - off / 512) off u

/-- The segment of a tensor that a frame holds, by the reverse map. -/
def heldSegment (s : State) (die : Nat) (fd : Word) (job : Half) (handle : BitVec 20) : Option Nat :=
  match (s.frame die (fdTier fd) (fdFrame fd)).use with
  | .seg j h k => if j = job ∧ h = handle then some k else none
  | _ => none

/-- The head item of a Plane executed and answered (R449, R450). -/
def planeWorkItem (s : State) (die : Nat) (c : Ctl) : State :=
  let pl := s.plane die c
  match pl.items with
  | [] => s
  | p :: rest =>
    match p.body with
    | .plane r =>
      let pop := fun (t : State) => tierServe (t.setPlane die c { t.plane die c with items := rest }) die c
      let reply := fun (t : State) (st : BitVec 2) (off : Nat) =>
        (pop t).send (replyTo p (.mresp r.tag st r.nw (BitVec.ofNat 21 off) 0 []))
      let off := r.off.toNat
      let d := pl.desc r.nw.toNat
      if off % 512 ≠ 0 then reply (s.turnAway die c .refused) 3 off
      else
        match requestStatus s die c r.fd off 1 with
        | .moved => reply s 1 off
        | .poison => reply (s.turnAway die c .poison) 2 off
        | .refused => reply (s.turnAway die c .refused) 3 off
        | .ok =>
          match (if d.valid then heldSegment s die r.fd d.job d.sweep.phandle else none) with
          | none => reply (s.turnAway die c .refused) 3 off
          | some seg =>
            match sweepItem s die c d.sweep r.fd seg off with
            | none => s
            | some (st, o, t) => reply t st (if st = 1 then o else off)
    | _ => tierServe (s.setPlane die c { pl with items := rest }) die c

def execPlaneWorkItem (die : Nat) (ctl : Ctl) (s : State) : Host.Outcome State Fault Refusal :=
  atDie s die (.next (planeWorkItem s die ctl))

/-! ### Dispatch (R448, R451) -/

/-- Items of a dispatch outstanding at a Plane. -/
def Dispatch.atPlane (d : Dispatch) (t : Dest) : Nat := (d.outstanding.filter fun o => decide (o.target = t)).length

/-- A work item sent (R449). -/
def sendItem (s : State) (die : Nat) (c : Ctl) (d : Dispatch) (fd : Word) (seg off : Nat) : Dispatch × State :=
  let tag := BitVec.ofNat 15 d.nextTag
  let t := ctlDest (fdDie fd) (ctlOf (fdTier fd) off)
  ({ d with outstanding := d.outstanding ++ [⟨tag, t, fd, seg⟩], nextTag := d.nextTag + 1 },
   s.send ⟨2, t, ctlDest die c, false, .plane ⟨tag, BitVec.ofNat 21 off, BitVec.ofNat 6 d.desc, fd⟩⟩)

/-- The dispatch of a descriptor stops: nothing more is handed out, the fault recorded (R451). -/
def stopDispatch (s : State) (die : Nat) (c : Ctl) (d : Dispatch) (status seg : Nat) : Dispatch × State :=
  ({ d with stopped := true, again := [] }, s.planeFault die c d.desc status seg)

/-- Whether segment s has been handed out in the first pass. -/
def Dispatch.wasSent (d : Dispatch) (seg : Nat) : Bool := d.second && d.sent.contains seg

/-- One segment looked up and handed out where there is room: none where the dispatch has to wait. -/
def handOut (s : State) (die : Nat) (c : Ctl) (w : Sweep) (d : Dispatch) (seg off : Nat) (t3Only : Bool) :
    Option (Dispatch × State × Bool) :=
  match s.lookup die w.job w.phandle seg with
  | (.missing, t) => some ((stopDispatch t die c d 3 seg).1, (stopDispatch t die c d 3 seg).2, false)
  | (.poison, t) => some ((stopDispatch t die c d 2 seg).1, (stopDispatch t die c d 2 seg).2, false)
  | (.found fd, t) =>
    if t3Only && fdTier fd != 3 then some (d, t, false)
    else if d.atPlane (ctlDest (fdDie fd) (ctlOf (fdTier fd) off)) < 16 then
      let r := sendItem t die c d fd seg off
      some (r.1, r.2, true)
    else none

/-- The dispatch as far as it goes: items to be sent again first, then the passes in order. -/
def runDispatch (die : Nat) (c : Ctl) (w : Sweep) (nseg : Nat) : Nat → Dispatch → State → Dispatch × State
  | 0, d, s => (d, s)
  | n + 1, d, s =>
    if d.stopped then (d, s)
    else
      match d.again with
      | a :: rest =>
        (match handOut s die c w d a.1 a.2 false with
         | none => (d, s)
         | some (e, t, _) => runDispatch die c w nseg n { e with again := if e.stopped then [] else rest } t)
      | [] =>
        if nseg ≤ d.next then
          if d.second then (d, s) else runDispatch die c w nseg n { d with second := true, next := 0 } s
        else if d.wasSent d.next then runDispatch die c w nseg n { d with next := d.next + 1 } s
        else
          match handOut s die c w d d.next 0 (!d.second) with
          | none => (d, s)
          | some (e, t, sent) =>
            runDispatch die c w nseg n { e with
              next := d.next + 1, sent := if sent && !d.second then d.sent ++ [d.next] else d.sent } t

/-- Segments of a tensor: nseg of R448. -/
def Sweep.segments (w : Sweep) : Nat := (w.lines + 4095) / 4096

/-- The completion PSIG of a dispatch (R448). -/
def completePsig (s : State) (die : Nat) (c : Ctl) (x : PlaneDesc) : State :=
  let w := x.word 6
  s.sendOr1 ⟨2, mkDest (bits w 6 9) (bits w 15 8), ctlDest die c, false,
    .psig (BitVec.ofNat 6 (bits w 0 6)) (BitVec.ofNat 8 (bits w 24 8)) x.job⟩

/-- A dispatch carried on; once everything has answered it ends, with its PSIG unless it was stopped. -/
def stepDispatch (s : State) (die : Nat) (c : Ctl) (d : Dispatch) : State :=
  let x := (s.plane die c).desc d.desc
  let w := x.sweep
  let r := runDispatch die c w w.segments (2 * w.segments + d.again.length + 4) d s
  let e := r.1
  let t := r.2
  let ended := e.outstanding.isEmpty && (e.stopped || (e.again.isEmpty && e.second && decide (w.segments ≤ e.next)))
  if ended then
    let u := t.setPlane die c ({ t.plane die c with disp := none }.enqueue d.desc)
    if e.stopped then u else completePsig u die c x
  else t.setPlane die c { t.plane die c with disp := some e }

/-- PLANE_DISPATCH (R447, R448): the next descriptor of the queue starts, or the dispatch that runs goes on. -/
def planeDispatch (s : State) (die : Nat) (c : Ctl) : State :=
  let pl := s.plane die c
  match pl.disp with
  | some d => stepDispatch s die c d
  | none =>
    match pl.queue with
    | [] => s
    | k :: rest =>
      let x := pl.desc k
      let d : Dispatch := ⟨k, false, 0, [], [], [], 0, false⟩
      stepDispatch (s.setPlane die c { pl.setDesc k { x with tcount := x.tcount - BitVec.ofNat 16 x.thresh } with
        queue := rest, disp := some d }) die c d

def execPlaneDispatch (die : Nat) (ctl : Ctl) (s : State) : Host.Outcome State Fault Refusal :=
  atDie s die (.next (planeDispatch s die ctl))

/-- An item's answer at its dispatcher (R448, R451); one that nothing waits for is discarded. -/
def itemAnswer (s : State) (die : Nat) (c : Ctl) (tag : BitVec 15) (status : BitVec 2) (off : Nat) : State :=
  match (s.plane die c).disp with
  | none => s
  | some d =>
    match d.outstanding.find? fun o => decide (o.tag = tag) with
    | none => s
    | some o =>
      let e := { d with outstanding := d.outstanding.erase o }
      if status = 0 then stepDispatch s die c e
      else if status = 1 then
        stepDispatch s die c (if e.stopped then e else { e with again := e.again ++ [(o.seg, off)] })
      else
        let r := if e.stopped then (e, s.planeFault die c d.desc status.toNat o.seg) else stopDispatch s die c e status.toNat o.seg
        stepDispatch r.2 die c r.1

/-- PLANE_ITEM_ANSWER (R448). -/
def execPlaneItemAnswer (p : Packet) (s : State) : Host.Outcome State Fault Refusal :=
  match p.body with
  | .mresp tag status _ off _ _ => toCtl s p fun die c t => itemAnswer t die c tag status off.toNat
  | _ => .next s

/-! ### PLN_DESC_WRITE (R452, R463) -/

/-- The bits of DESCk that hold fields. -/
def descMask (k : Nat) : Nat :=
  match k with
  | 0 => 0xFFFF8FFF
  | 1 => 0x000FFFFF
  | 2 => 0x000FFFFF
  | 9 => 0x000000FF
  | _ => 0xFFFFFFFF

/-- Whether a descriptor breaks a condition of R463. -/
def descBad (x : PlaneDesc) : Bool :=
  let w := x.sweep
  decide (5 < w.rule) || decide (1 < w.pf) || decide (1 < w.sf) || bit (x.word 6) 23 || bits (x.word 6) 24 8 == 0
    || (w.sparse && w.nelem % w.rowlen != 0)

/-- Whether a descriptor is queued or dispatching, or an item held by the Plane names it (R452). -/
def Plane.busy (p : Plane) (d : Nat) : Bool :=
  p.queue.contains d || p.dispatching d || p.items.any fun q =>
    match q.body with
    | .plane r => r.nw.toNat == d
    | _ => false

/-- A descriptor x rewritten as y; refused where it is queued or dispatching or an item names it, and where it is or becomes
valid and breaks a condition (R452, R463). Every write meets these refusals, the Mason's at a load, a relocation and an unload
too. -/
def putDesc (s : State) (die : Nat) (c : Ctl) (d : Nat) (x y : PlaneDesc) : State :=
  if (s.plane die c).busy d then s.record (.pln die c) evErrAccess 0
  else if (x.valid || y.valid) && descBad y then s.record (.pln die c) evErrRange 0
  else s.setPlane die c (((s.plane die c).setDesc d y).enqueue d)

/-- A write to DESC0 to DESC9 of the descriptor DESC_SEL names. -/
def plnDescWrite (s : State) (die : Nat) (c : Ctl) (off : Nat) (v : Word) : State :=
  let d := s.fld (.pln die c) 0x40 0 6
  let k := (off - 0x44) / 4
  let x := (s.plane die c).desc d
  putDesc s die c d x { x with regs := x.regs.set (ix 10 k (by decide)) (v &&& BitVec.ofNat 32 (descMask k)) }

/-- PLN_DESC_WRITE (R463): the Mason's write; an offset that is no descriptor register is no such write. -/
def execPlnDescWrite (die : Nat) (ctl : Ctl) (off : Nat) (v : Word) (s : State) : Host.Outcome State Fault Refusal :=
  atDie s die (if 0x44 ≤ off ∧ off ≤ 0x68 ∧ off % 4 = 0 then .next (plnDescWrite s die ctl off v) else .next s)

end Sys2Proof.Machine
end

