-- ==== Sys2Proof/Machine/Plumb.lean ====
section
/-! DEFINITION. The PLB: samples and counts arriving at their slot (R216, R219 to R221), snapshots (R222), and a slot's
configuration (R224 to R226). -/

namespace Sys2Proof.Machine

def slotIx (k : Nat) : Fin 33 := ⟨k % 33, Nat.mod_lt k (by decide)⟩

def State.slot (s : State) (die k : Nat) : PlumbSlot := (s.die die).plb[slotIx k]

def State.setSlot (s : State) (die k : Nat) (x : PlumbSlot) : State :=
  s.setDie die { s.die die with plb := (s.die die).plb.set (slotIx k) x }

/-- Value n of the 24 with k added: 32 bits wide, saturating (R222). -/
def bumpLive (l : Vector Word 24) (n k : Nat) : Vector Word 24 :=
  let i := ix 24 n (by decide)
  l.set i (BitVec.ofNat 32 (min 0xFFFFFFFF (l[i].toNat + k)))

/-! ### Arrivals -/

/-- A sample at its slot: a count in each column's bin, one sample, those skipped before it (R218, R219). SNAP_SAMPLES counts the
samples that reach the PLB (DEDUCED, log 209). -/
def slotSample (x : PlumbSlot) (bins : List Nat) (skipped : Nat) : PlumbSlot :=
  let l := bins.foldl (fun l b => bumpLive l (min b 15) 1) x.live
  { x with
    live := bumpLive (bumpLive l 22 1) 23 skipped
    alarmLive := x.alarmLive + (bins.filter fun b => decide (x.alarmBin.toNat ≤ b)).length }

/-- PLUMB_SAMPLE_ARRIVE (R219, R220): the ashlar's oldest finished sample reaches its slot; the alarm is raised once. -/
def execPlumbSampleArrive (a : Ash) (s : State) : Host.Outcome State Fault Refusal :=
  atAsh s a <|
    let v := s.ash a
    match v.plumbDone with
    | [] => .next s
    | bins :: rest =>
      let k := v.slot.slot
      let x := slotSample (s.slot a.die k) bins v.plumbSkipped
      let t := s.setAsh a { v with plumbDone := rest, plumbSkipped := 0 }
      if x.alarmCount ≠ 0 ∧ !x.alarm ∧ x.alarmCount.toNat ≤ x.alarmLive ∧ k < 32 then
        .next ((t.setSlot a.die k { x with alarm := true }).raise (.plb a.die) evPlumbAlarm 0)
      else .next (t.setSlot a.die k x)

/-- The place of a counter among the 24 values (R223). -/
def satPlace (c : SatCounter) : Nat :=
  match c with
  | .mx => 16
  | .ld => 17
  | .st => 18
  | .vx => 19
  | .nan => 20
  | .sclamp => 21

/-- SAT_COUNT_ARRIVE (R216, R221): a count reaches its slot; FMT_SAT is raised when the sum of the four saturation counts
reaches a multiple of 2^SAT_LOG2 while SATFLAG is clear. -/
def execSatCountArrive (a : Ash) (s : State) : Host.Outcome State Fault Refusal :=
  atAsh s a <|
    let v := s.ash a
    match v.satOut with
    | [] => .next s
    | c :: rest =>
      let k := v.slot.slot
      let x := s.slot a.die k
      let n := satPlace c
      let sum := if n < 20 then x.satSum + 1 else x.satSum
      let y := { x with live := bumpLive x.live n 1, satSum := sum }
      let t := s.setAsh a { v with satOut := rest }
      if n < 20 ∧ x.satEn ∧ !x.satFlag ∧ sum % 2 ^ x.satLog2.toNat = 0 then
        .next ((t.setSlot a.die k { y with satFlag := true }).raise (.plb a.die) evFmtSat 0)
      else .next (t.setSlot a.die k y)

/-! ### Snapshots (R222) -/

def slotSnap (x : PlumbSlot) : PlumbSlot := { x with snap := x.live, live := Vector.replicate 24 0 }

def slotClear (x : PlumbSlot) : PlumbSlot := { x with live := Vector.replicate 24 0, alarmLive := 0, satSum := 0 }

/-- A command of one slot of a die. -/
def onSlot (s : State) (die slot : Nat) (f : PlumbSlot → PlumbSlot) : Host.Outcome State Fault Refusal :=
  atDieIf s die (decide (slot < 33)) (.next (s.setSlot die slot (f (s.slot die slot))))

/-- SLOT_SNAP (R222). -/
def execSlotSnap (die slot : Nat) (s : State) : Host.Outcome State Fault Refusal := onSlot s die slot slotSnap

/-- SLOT_CLEAR (R222). -/
def execSlotClear (die slot : Nat) (s : State) : Host.Outcome State Fault Refusal := onSlot s die slot slotClear

/-! ### Configuration (R224 to R226) -/

/-- Whether a rectangle holds no ashlar. -/
def rectEmpty (w : Word) : Bool := bits w 16 5 == 0 || bits w 24 4 == 0

/-- Whether a slot's new rectangle is refused: off the die, over another valid slot's, or without ashlars for a slot that
is to be assigned (R224, R225). -/
def bayRefused (s : State) (die k : Nat) (w : Word) : Bool :=
  if rectEmpty w then bit w 31
  else !rectOnDie w || (List.range 32).any fun j =>
    j != k && bit (s.slot die j).bay 31 && rectsMeet (s.slot die j).bay w

/-- A write to a register of the slot selected; a slot above 32 is none (R224 to R226). -/
def slotWrite (s : State) (die k off : Nat) (w : Word) : State :=
  if 33 ≤ k then s
  else
    let p := Page.plb die
    let x := s.slot die k
    if off = 0x44 then
      let b := setBits (w &&& 0x8F1F0F0F) 31 1 (if k = 32 then 0 else bits w 31 1)
      if x.busy then s.record p evErrAccess 0
      else if bayRefused s die k b then s.record p evErrRange 0
      else s.setSlot die k { x with oldBay := x.bay, bay := b, busy := true }
    else if off = 0x48 then
      if x.busy then s.record p evErrAccess 0
      else s.setSlot die k { x with
        oldBay := x.bay, busy := true, plumbEn := bit w 0 && decide (k < 32)
        rateLog2 := BitVec.ofNat 5 (min 20 (max 8 (bits w 1 5))) }
    else if off = 0x4C then
      if x.busy then s.record p evErrAccess 0
      else s.setSlot die k { x with
        alarmBin := BitVec.ofNat 4 (bits w 0 4), alarmCount := BitVec.ofNat 16 (bits w 4 16)
        satLog2 := BitVec.ofNat 5 (bits w 20 5), satEn := bit w 25 }
    else if off = 0x50 then
      let y := if bit w 0 then slotSnap x else x
      s.setSlot die k (if bit w 1 then slotClear y else y)
    else if off = 0x54 then
      let y := if bit w 0 then { x with alarm := false, alarmLive := 0 } else x
      s.setSlot die k (if bit w 1 then { y with satFlag := false } else y)
    else s

/-- SLOT_CONFIG_WRITE (R225): a write to SLOT_BAY or SLOT_CFG of the slot that SLOT_SEL names. -/
def execSlotConfigWrite (_w : Writer) (die off : Nat) (v : Word) (s : State) : Host.Outcome State Fault Refusal :=
  atDie s die <|
    if off = 0x44 ∨ off = 0x48 then .next (slotWrite s die (s.fld (.plb die) 0x40 0 6) off v) else .next s

/-- One ashlar takes its copy of the configuration: its slot's inside the new rectangle, none in the old one alone, where it
still names this slot; its row-chunk count starts again (R216, R217, R225). -/
def slotCopyTo (s : State) (die k : Nat) (x : PlumbSlot) (col lrow : Nat) : State :=
  if !inRect x.bay col lrow && !inRect x.oldBay col lrow then s
  else
    match physicalRow s die lrow with
    | none => s
    | some p =>
      let a : Ash := ⟨die, col, p⟩
      s.onAsh a fun v => if !inRect x.bay col lrow && v.slot.slot != k then v else { v with
        plumbCount := 0
        slot := if inRect x.bay col lrow then ⟨k, x.plumbEn, x.rateLog2.toNat⟩ else ⟨32, false, 12⟩ }

/-- The configuration of slot k in every ashlar of its old and new rectangles. -/
def distribute (s : State) (die k : Nat) (x : PlumbSlot) : State :=
  (List.range 96).foldl (fun t r => (List.range 128).foldl (fun u c => slotCopyTo u die k x c r) t) s

/-- SLOT_CONFIG_DONE (R225). -/
def execSlotConfigDone (die slot : Nat) (s : State) : Host.Outcome State Fault Refusal :=
  atDieIf s die (decide (slot < 33)) <|
    let x := s.slot die slot
    if x.busy then .next ((distribute s die slot x).setSlot die slot { x with busy := false, oldBay := x.bay })
    else .next s

/-- The value a read of a slot register shows (R223 to R228); a slot above 32 reads 0. -/
def slotRead (s : State) (die k off : Nat) : Word :=
  if 33 ≤ k then 0
  else
    let x := s.slot die k
    if off = 0x44 then x.bay
    else if off = 0x48 then BitVec.ofNat 32 (b2n x.plumbEn + x.rateLog2.toNat * 2)
    else if off = 0x4C then
      BitVec.ofNat 32 (x.alarmBin.toNat + x.alarmCount.toNat * 2 ^ 4 + x.satLog2.toNat * 2 ^ 20 + b2n x.satEn * 2 ^ 25)
    else if off = 0x54 then BitVec.ofNat 32 (b2n x.alarm + b2n x.satFlag * 2 + b2n x.busy * 4)
    else if 0x60 ≤ off ∧ off < 0xC0 then x.snap[ix 24 ((off - 0x60) / 4) (by decide)]
    else 0

/-- ALARM_MAP or SAT_MAP: one bit for each of slots 0 to 31 (R227). -/
def slotMap (s : State) (die : Nat) (f : PlumbSlot → Bool) : Word :=
  BitVec.ofNat 32 ((List.range 32).foldl (fun acc k => acc + b2n (f (s.slot die k)) * 2 ^ k) 0)

end Sys2Proof.Machine
end

