-- ==== Sys2Proof/Machine/RegRead.lean ====
section
/-! DEFINITION. Where a register lies (R673, R680 to R683) and what a read of it shows (R14 to R18 and each page's own
tables). -/

namespace Sys2Proof.Machine

/-! ### Addresses (R680, R681) -/

/-- The page of a BAR0 address; none in a reserved range. -/
def bar0Page (addr : Nat) : Option Page :=
  let d := addr / 0x8000000
  let o := addr % 0x8000000
  if 0x1000000 ≤ o ∧ o < 0x4100000 then
    let i := (o - 0x1000000) / 0x1000
    some (.ash ⟨d, i % 128, i / 128⟩)
  else
    match o / 0x1000 with
    | 0x00 => some (.mor d)
    | 0x01 => some (.key d)
    | 0x02 => some (.plb d)
    | 0x03 => some (.cfgDie d)
    | 0x04 => some (.lin d .north)
    | 0x05 => some (.lin d .east)
    | 0x06 => some (.lin d .south)
    | 0x07 => some (.lin d .west)
    | 0x08 => some (.hbc d 0)
    | 0x09 => some (.hbc d 1)
    | 0x0A => some (.lpc d)
    | 0x0B => some (.dmc d)
    | 0x0C => some (.hod d)
    | 0x10 => some (.pln d .stack0)
    | 0x11 => some (.pln d .stack1)
    | 0x12 => some (.pln d .lpddr)
    | 0x13 => some (.pln d .dimm)
    | 0x20 => some (.eth d)
    | 0x21 => some (.ing d)
    | 0x22 => some (.egr d)
    | 0x28 => some (.jhl d 0)
    | 0x29 => some (.jhl d 1)
    | _ => none

/-- The page of a BAR2 address; none in a reserved range. -/
def bar2Page (addr : Nat) : Option Page :=
  match addr / 0x1000 with
  | 0 => some .mas
  | 1 => some .cfg
  | 2 => some .tim
  | 3 => some .pwr
  | 4 => some .clk
  | 5 => some .thm
  | 6 => some .pin
  | 7 => some .fus
  | 8 => some (.pci 0)
  | 9 => some (.pci 1)
  | _ => none

/-- A page answers: a die's while its fabric runs and is clocked, a module's while the module has power and is out of reset
(R569, R577, R591, R681). -/
def pageAnswers (s : State) (p : Page) : Bool :=
  powered s && (!pageOfDie p || !dieAsleep s (pageDie p))

/-! ### The header (R673) -/

/-- The controller of a tier page; a Plane's page runs on fclk (R34). -/
def pageCtl (p : Page) : Option Ctl :=
  match p with
  | .hbc _ 0 => some .stack0
  | .hbc _ _ => some .stack1
  | .lpc _ => some .lpddr
  | .dmc _ => some .dimm
  | _ => none

/-- READY: the block is clocked and out of reset; a controller that lost its clock is not (R665). -/
def pageReady (s : State) (p : Page) : Bool :=
  match pageCtl p with
  | some c => !(s.die (pageDie p)).stopped.contains c
  | none => true

/-- The header registers that are computed. -/
def headerRead (s : State) (p : Page) (off : Nat) : Option Word :=
  let frozen := match p with
    | .ash a => (s.ash a).frozen
    | _ => false
  match off with
  | 0x00 => some (pageId p)
  | 0x04 => some (pageCaps s.part p)
  | 0x08 => some (BitVec.ofNat 32 ((if hasEnable p then s.fld p 0x08 0 1 else 1) + b2n frozen * 4))
  | 0x0C => some (BitVec.ofNat 32 (b2n (pageReady s p) + b2n frozen * 2))
  | _ => none

/-! ### The ashlar's page (R84 to R96, R141 to R144, R297 to R303, R358, R359, R392, R394) -/

/-- Whether the oldest started load or store program can send nothing: its load ring is full, or a request it has to send
stands at a port it may not use (R87, R286, R355). -/
def progBlocked (s : State) (a : Ash) : Bool :=
  let v := s.ash a
  match (v.eng .stream).queue.find? fun i => i.phase = .running || i.phase = .readsRetired with
  | some i =>
    (match progFor v i.seq with
     | some k =>
       let p := v.prog k
       let w := v.win (streamWin i)
       if (unsentPiece p).isSome then p.looking.isNone && portBusy s a (ashVc v)
       else opcodeOf i == 1 && decide (p.launched < (loadOf i).total) && decide (w.nslots ≤ w.occ.toNat + w.rsv.toNat)
     | none => false)
  | none => false

/-- The state code of an engine's head (R87): the lowest cause from 2 up, else executing or idle. A head that waits for a
mask buffer or for a ring that a running program holds has code 3 (R241, R273). Bank arbitration has no state in the
model. A send that waits for a Keystone grant or the reply to a connect shows 5, as for its other waits (DEDUCED, log 207). -/
def stallCode (s : State) (a : Ash) (e : Engine) : Nat :=
  let v := s.ash a
  let x := v.eng e
  let blocked := (e == .send && bit v.sdBlock 0) || (e == .stream && progBlocked s a)
  let frozen := v.frozen && !x.queue.isEmpty
  let last := if blocked then 5 else if x.faulted then 6 else if frozen then 7 else if engExecuting v e then 1 else 0
  match frontOf v e with
  | none => last
  | some i =>
    if !v.won.contains (engineIx e).val && !(unsatisfied v (waitsOf i.words)).isEmpty then 2
    else if !rangesFree v i || !masksReady v i || ringHeld v i then 3
    else if !(ringReady v i 0 && ringReady v i 1 && ringReady v i 2 && rpopReady v i) then 5
    else last

def ashCoord (s : State) (a : Ash) : Word :=
  let l := logicalRow s a.die a.row
  BitVec.ofNat 32 (a.col + l.getD 0x7F * 2 ^ 7 + a.row * 2 ^ 14 + a.die * 2 ^ 21 + b2n l.isNone * 2 ^ 31)

def jstateCode (v : Ashlar) : Nat :=
  match v.joiner.state with
  | .halted => 0
  | .running => if v.frozen then 5 else 1
  | .stalled => if v.frozen then 5 else 2
  | .ended => 3
  | .faulted => 4

def joinerRead (s : State) (a : Ash) (off : Nat) : Option Word :=
  let v := s.ash a
  let j := v.joiner
  match off with
  | 0x100 => some (BitVec.ofNat 32 (b2n j.autorun * 8 + b2n j.handlerEn * 16))
  | 0x104 => some (BitVec.ofNat 32 (jstateCode v + b2n j.handler * 8 + b2n j.msg.isSome * 16 + j.stall.toNat * 32))
  | 0x108 => some (j.pc.zeroExtend 32)
  | 0x10C => some (BitVec.ofNat 32 (j.entry.toNat + j.hentry.toNat * 2 ^ 16))
  | 0x110 => some (BitVec.ofNat 32 (b2n j.active + b2n j.armed * 2))
  | 0x114 => some (BitVec.ofNat 32 (j.lastCause.toNat + b2n j.double * 256))
  | 0x118 => some (j.epc.zeroExtend 32)
  | 0x11C => some j.lastVal
  | 0x120 => some j.al[0]
  | 0x124 => some j.al[1]
  | 0x128 => some j.al[2]
  | 0x12C => some j.al[3]
  | 0x130 => some (xyWord j.bayX j.bayY)
  | 0x138 => some (if jregOpen v then jregRead s a else 0)
  | 0x13C => some j.pending
  | 0x140 => some (BitVec.ofNat 32 (j.bkpt0.toNat + b2n j.bkpt0En * 2 ^ 31))
  | 0x144 => some (BitVec.ofNat 32 (j.bkpt1.toNat + b2n j.bkpt1En * 2 ^ 31))
  | _ => none

/-- WINn_RING as it reads: of a window that is not VALID what was written, whatever KIND holds; a message ring's USED is the
ring's own, and a valid plain window's register is 0 (R298, R359). -/
def winRingWord (w : Window) : Word :=
  if !w.valid then (if w.kind = 3 then setBits w.ring 16 13 w.used.toNat else w.ring)
  else if w.kind = 3 then BitVec.ofNat 32 (bits w.ring 0 3 + w.used.toNat * 2 ^ 16)
  else if w.kind = 0 then 0
  else w.ring &&& ringMask w.kind

def windowRead (v : Ashlar) (n k : Nat) : Word :=
  let w := v.win n
  match k with
  | 0 => BitVec.ofNat 32 (w.base.toNat + w.size.toNat * 2 ^ 13 + w.cls.toNat * 2 ^ 26 + w.kind.toNat * 2 ^ 28
      + b2n w.remote * 2 ^ 30 + b2n w.valid * 2 ^ 31)
  | 1 => winRingWord w
  | 2 => BitVec.ofNat 32 (w.epoch.toNat + b2n w.isOpen * 2 ^ 8 + w.stale.toNat * 2 ^ 16)
  | _ =>
    if w.kind = 3 then BitVec.ofNat 32 (w.rd.toNat + w.wr.toNat * 2 ^ 13 + w.recs.toNat * 2 ^ 26)
    else if w.kind = 0 then 0
    else BitVec.ofNat 32 (w.head + w.tail.toNat * 2 ^ 4 + w.occ.toNat * 2 ^ 8 + w.rsv.toNat * 2 ^ 13 + b2n w.held * 2 ^ 18)

def endpointRead (s : State) (a : Ash) (n k : Nat) : Word :=
  let e := (s.ash a).ep n
  match k with
  | 0 => BitVec.ofNat 32 (b2n e.valid + b2n e.ring * 2 + b2n e.dyn * 4 + e.tlen.toNat * 8 + e.rwin.toNat * 2 ^ 5
      + e.apeg.toNat * 2 ^ 9 + b2n e.apegEn * 2 ^ 15)
  | 1 => epStatus s a n
  | 2 => BitVec.ofNat 32 (e.peer.toNat + e.pchan.toNat * 2 ^ 17 + b2n e.peerValid * 2 ^ 21)
  | _ => BitVec.ofNat 32 (e.drops.toNat + e.poisoned.toNat * 2 ^ 16)

/-- A chunk that INFLIGHT counts: its request has gone out, and it still stands in its program, its slot not full or its write
not acknowledged; an answer MOVED does not take it back (R286, R302). -/
def chunkOut (c : Chunk) : Bool := c.asked

def progRead (v : Ashlar) (n k : Nat) : Word :=
  let p := v.progs[ix 4 n (by decide)]
  if k = 0 then
    BitVec.ofNat 32 (b2n p.running + p.op.toNat * 2 + p.rwin.toNat * 2 ^ 4 + min 31 (p.inflight.filter chunkOut).length * 2 ^ 8
      + p.seq.toNat * 2 ^ 13 + b2n p.faulted * 2 ^ 18)
  else BitVec.ofNat 32 p.chunks

def pegRead (s : State) (a : Ash) (n k : Nat) : Word :=
  let v := s.ash a
  let q := v.peg n
  let mask := fun (take : Bool) (kept : BitVec 5) => (if v.frozen then kept else waiterMask v (joinerWait v) n take).toNat
  match k with
  | 0 => q.value.zeroExtend 32
  | 1 => BitVec.ofNat 32 (mask true q.take + mask false q.watch * 2 ^ 8)
  | 2 => BitVec.ofNat 32 (q.src.toNat + q.kind.toNat * 2 ^ 17 + q.sub.toNat * 2 ^ 20 + b2n q.multi * 2 ^ 23
      + q.inc.toNat * 2 ^ 24)
  | _ => BitVec.ofNat 32 (b2n q.signalled + b2n q.wdog * 2 + b2n (pegExempt s a n) * 4 + q.deferred.toNat * 2 ^ 16)

def contextWord (v : Ashlar) : Word :=
  BitVec.ofNat 32 (v.job.toNat + b2n v.clsT * 2 ^ 16 + b2n v.ctxValid * 2 ^ 17)

def ashRead (s : State) (a : Ash) (off : Nat) : Option Word :=
  let v := s.ash a
  if 0x100 ≤ off ∧ off < 0x200 then joinerRead s a off
  else if 0x200 ≤ off ∧ off < 0x300 then some (windowRead v ((off - 0x200) / 16) (off % 16 / 4))
  else if 0x300 ≤ off ∧ off < 0x380 then some (endpointRead s a ((off - 0x300) / 16) (off % 16 / 4))
  else if 0x380 ≤ off ∧ off < 0x3A0 then some (progRead v ((off - 0x380) / 8) (off % 8 / 4))
  else if 0x400 ≤ off ∧ off < 0x700 then some (pegRead s a ((off - 0x400) / 16) (off % 16 / 4))
  else
    match off with
    | 0x40 => some (ashCoord s a)
    | 0x48 => some (engineStatus v)
    | 0x4C => some (BitVec.ofNat 32 (stallCode s a .matrix + stallCode s a .vector * 16 + stallCode s a .stream * 256
        + stallCode s a .send * 4096))
    | 0x54 => some (contextWord v)
    | 0x3A0 => some (v.srSeed.setWidth 32)
    | 0x3A4 => some ((v.srSeed >>> 32).setWidth 32)
    | 0x3AC => some (BitVec.ofNat 32 (nextVisit v + v.scrubPasses.toNat * 2 ^ 16))
    | 0x71C => some (BitVec.ofNat 32 v.faddQueue.length)
    | _ => none

/-! ### Die pages -/

/-- LO and HI of a counter kept as one number with OVF in bit 63 (R91). -/
def counterWord (v : Nat) (hi : Bool) : Word := BitVec.ofNat 32 (if hi then v / 2 ^ 32 else v)

def keyRead (s : State) (d off : Nat) : Option Word :=
  let k := s.key d
  if off = 0x40 then
    some (BitVec.ofNat 32 (k.used + k.fifo.length * 2 ^ 8))
  else none

def plbRead (s : State) (d off : Nat) : Option Word :=
  if off = 0x58 then some (slotMap s d fun x => x.alarm)
  else if off = 0x5C then some (slotMap s d fun x => x.satFlag)
  else if 0x44 ≤ off ∧ off < 0xC0 then some (slotRead s d (s.fld (.plb d) 0x40 0 6) off)
  else none

/-- TC_QUEUE (R431). -/
def tierCtlRead (s : State) (d : Nat) (c : Ctl) (off : Nat) : Option Word :=
  if off = 0x50 then some (BitVec.ofNat 32 ((s.queued d c true).length + (s.queued d c false).length * 2 ^ 8)) else none

def linRead (s : State) (d : Nat) (side : Side) (off : Nat) : Option Word :=
  if off = 0x40 then some (BitVec.ofNat 32 (sideIndex side + ((neighbour s.part d side).getD 0) * 4)) else none

/-- STATE code of a socket (R426). -/
def svcCode (v : Svc) : Nat :=
  match v with
  | .absent => 0
  | .present => 1
  | .training => 2
  | .init => 3
  | .online => 4
  | .evacuating => 5
  | .empty => 6
  | .safe => 7
  | .rejected => 8
  | .lost => 9

def dmcRead (s : State) (d off : Nat) : Option Word :=
  let k := (s.die d).socket
  match off with
  | 0x84 => some (BitVec.ofNat 32 (svcCode k.svc + k.reason.toNat * 16 + b2n k.presence * 2 ^ 8 + b2n k.power * 2 ^ 9
      + b2n k.indicator * 2 ^ 10))
  | 0x88 => some (BitVec.ofNat 32 (svcLeft s d))
  | 0x8C => some (match k.spdRead, k.dimm with
      | true, some m => BitVec.ofNat 32 (m.cap.toNat + b2n m.ranks * 4 + b2n m.stacked * 8 + m.rate.toNat * 2 ^ 16)
      | _, _ => 0)
  | _ => none

def hodRead (s : State) (d off : Nat) : Option Word :=
  let h := (s.die d).hod
  match off with
  | 0x58 => some (BitVec.ofNat 32 (h.moves.length + h.promo.length * 2 ^ 8 + h.demo.length * 2 ^ 16))
  | 0x5C => some (BitVec.ofNat 32 (freeFrames s d 1))
  | 0x60 => some (BitVec.ofNat 32 (freeFrames s d 2))
  | 0x64 => some (BitVec.ofNat 32 (freeFrames s d 3))
  | _ => none

def plnRead (s : State) (d : Nat) (c : Ctl) (off : Nat) : Option Word :=
  let pl := s.plane d c
  let n := s.fld (.pln d c) 0x40 0 6
  if 0x44 ≤ off ∧ off ≤ 0x68 then some ((pl.desc n).word ((off - 0x44) / 4))
  else if off = 0x6C then
    some (BitVec.ofNat 32 ((pl.desc n).tcount.toNat + b2n (pl.queue.contains n) * 2 ^ 16 + b2n (pl.dispatching n) * 2 ^ 17))
  else if off = 0x70 then
    some (BitVec.ofNat 32 (pl.items.length + (match pl.disp with
      | some x => x.desc * 2 ^ 8 + 2 ^ 14
      | none => 0) + pl.queue.length * 2 ^ 15))
  else none

def ethRead (s : State) (d off : Nat) : Option Word :=
  let p := Page.eth d
  let e := (s.die d).eth
  let cnt := tget e.counts (s.fld p 0x48 0 2, s.fld p 0x48 4 4) 0
  match off with
  | 0x50 => some (counterWord cnt false)
  | 0x54 => some (counterWord cnt true)
  | 0x58 => some (BitVec.ofNat 32 e.punts.length)
  | 0x60 =>
    let w := 4 * s.fld p 0x5C 2 9
    some (BitVec.ofNat 32 (leBytes (slice (e.punts.headD []) w 4)))
  | 0x68 => some (tget e.mtx (s.fld p 0x64 2 9) 0)
  | 0x6C => some (setBits (setBits (s.reg p 0x6C) 17 1 0) 18 1 (b2n e.mgmt.isSome))
  | _ => none

def ingRead (s : State) (d off : Nat) : Option Word :=
  let p := Page.ing d
  let g := (s.die d).ing
  let r := g.route (s.fld p 0x80 0 4)
  let x := g.group (s.fld p 0x90 0 3)
  let cnt := tget g.counts (s.fld p 0xB8 0 5) 0
  match off with
  | 0x48 => some (tget g.prog (s.fld p 0x44 0 8) 0)
  | 0x58 => some (tget g.fmin (s.fld p 0x54 0 4) 0)
  | 0x5C => some (tget g.fmax (s.fld p 0x54 0 4) 0xFFFFFFFF)
  | 0x78 => some (BitVec.ofNat 32 g.table.length)
  | 0x84 => some (entryWord r.entry 0)
  | 0x88 => some (entryWord r.entry 1)
  | 0x8C => some (BitVec.ofNat 32 (r.attach.toNat + r.group.toNat * 2 ^ 4 + r.member.toNat * 2 ^ 7 + b2n r.live * 2 ^ 9))
  | 0x94 => some (BitVec.ofNat 32 (b2n x.en + x.nflit.toNat * 2))
  | 0x98 => some (BitVec.ofNat 32 (x.queue.length + b2n x.ovf * 2 ^ 6))
  | 0xAC => some (BitVec.ofNat 32 g.capFree)
  | 0xB0 => some (counterWord g.capDrops false)
  | 0xB4 => some (counterWord g.capDrops true)
  | 0xC0 => some (counterWord cnt false)
  | 0xC4 => some (counterWord cnt true)
  | 0xC8 => some g.seq
  | _ => none

def egrRead (s : State) (d off : Nat) : Option Word :=
  let p := Page.egr d
  let g := (s.die d).egr
  let i := g.input (s.fld p 0x40 0 3)
  let x := g.group (s.fld p 0x50 0 3)
  let t := s.fld p 0x70 0 6
  let cnt := tget g.counts (s.fld p 0x90 0 4) 0
  match off with
  | 0x44 => some (BitVec.ofNat 32 (b2n i.valid + i.group.toNat * 2 + i.member.toNat * 16 + i.version.toNat * 2 ^ 16))
  | 0x48 => some (BitVec.ofNat 32 (i.peer.toNat + i.pchan.toNat * 2 ^ 17 + b2n i.peerValid * 2 ^ 21))
  | 0x54 => some x.written
  | 0x58 => some (BitVec.ofNat 32 (x.mode.toNat + b2n x.pending * 4
      + min 31 (openComparisons x).length * 8))
  | 0x5C => some x.swseq
  | 0x60 => some x.last
  | 0x74 => some (tget g.d0 t 0)
  | 0x78 => some (tget g.d1 t 0)
  | 0x80 => some (tget g.patches (t, s.fld p 0x7C 0 3) 0)
  | 0x88 => some (BitVec.ofNat 32 (mreadN g.store (4 * s.fld p 0x84 2 12) 4))
  | 0x98 => some (counterWord cnt false)
  | 0x9C => some (counterWord cnt true)
  | _ => none

def jhlRead (s : State) (d k off : Nat) : Option Word :=
  if 0x84 ≤ off ∧ off ≤ 0x8C then some (tunnelRead s d k ((off - 0x84) / 4))
  else if 0x94 ≤ off ∧ off ≤ 0xAC ∧ k = 0 then some (redRegRead s d ((off - 0x94) / 4))
  else if off = 0x90 ∧ k ≠ 0 then some 0
  else none

/-- CFG.LOAD_STATUS of a die: loads running and waiting, orders sent without an answer (R615). -/
def loadStatus (s : State) (d : Nat) : Word :=
  let l := s.mas.loads.filter fun x => x.die == d
  let run := l.filter fun x => x.active
  let saves := (s.mas.jobs.flatMap fun j => j.saves).filter fun a => a.die == d
  BitVec.ofNat 32 (run.length + min 255 (l.length - run.length) * 4
    + min 2047 ((run.map fun x => if x.draining then 0 else x.left.length).foldl (· + ·) saves.length) * 2 ^ 10)

/-! ### Module pages -/

def masRead (s : State) (off : Nat) : Option Word :=
  match off with
  | 0x84 => some (BitVec.ofNat 32 (s.fld .mas 0x84 0 3
      + b2n ((List.range s.part.dies).any fun d => s.fld (.cfgDie d) 0x50 16 1 == 1) * 8 + s.mas.jobs.length * 2 ^ 16))
  | 0x100 => some (s.serial.setWidth 32)
  | 0x104 => some ((s.serial >>> 32).setWidth 32)
  | 0x108 => some (BitVec.ofNat 32 (s.part.target + s.part.dies * 2 ^ 8))
  | 0x11C => some (BitVec.ofNat 32 ((s.time - s.mas.readyAt).toNat / 1000000000))
  | _ => none

/-- Whether a TRIM or TEMP register belongs to a die the part has (R685, R688). -/
def dieRegister (off base : Nat) : Option Nat := if base ≤ off ∧ off < base + 32 then some ((off - base) / 4) else none

def pwrRead (s : State) (off : Nat) : Option Word :=
  if off = 0x40 then
    some (BitVec.ofNat 32 ((match s.pstate with
      | .active => 0
      | .trim => 1
      | .curing => 2) + s.fld .pwr 0x40 2 1 * 4))
  else
    match dieRegister off 0x60 with
    | some d => if d < s.part.dies then none else some 0
    | none => none

/-- The module's filtered alert sources that are levels (R690). -/
def alertSrc (s : State) : Word :=
  let feed := decide (s.fld .pwr 0x48 0 16 < 3000) || decide (s.fld .pwr 0x4C 0 16 < 3000)
  setBits (setBits (s.reg .pin 0x84) 3 1 (b2n (s.fld .mas 0x84 0 3 != 1))) 5 1 (b2n feed)

def fusRead (s : State) (off : Nat) : Option Word :=
  let present := (List.range 4).foldl (fun acc i => acc + b2n (s.fuses.keys[ix 4 i (by decide)]).isSome * 2 ^ i) 0
  if off = 0x40 then some (BitVec.ofNat 32 s.fuses.rollback)
  else if off = 0x44 then
    some (BitVec.ofNat 32 (present + s.fuses.revoked.toNat * 16 + b2n s.fuses.imgKey * 2 ^ 8
      + s.flash.cornerstone.hdr.keyIdx.toNat * 2 ^ 9))
  else if 0x4C ≤ off ∧ off ≤ 0x78 then
    let h := (s.fuses.keys[ix 4 (s.fld .fus 0x48 0 2) (by decide)]).getD 0
    some (BitVec.ofNat 32 (h.toNat / 2 ^ (8 * (off - 0x4C))))
  else none

def pciRead (s : State) (k off : Nat) : Option Word :=
  let e := apEntry s (s.fld (.pci k) 0x4C 0 15)
  let q := s.dq k (s.fld (.pci k) 0x5C 0 4)
  if 0x800 ≤ off ∧ off < 0xC00 then some (msixWord (s.pci k) (off - 0x800))
  else if 0x100 ≤ off ∧ off < 0x140 then some ((s.dq k ((off - 0x100) / 4)).tail.zeroExtend 32)
  else
    match off with
    | 0x50 => some (apWord e 0)
    | 0x54 => some (apWord e 1)
    | 0x58 => some (apWord e 2)
    | 0x60 => some (q.base.setWidth 32)
    | 0x64 => some ((q.base >>> 32).setWidth 32)
    | 0x68 => some (q.cpl.setWidth 32)
    | 0x6C => some ((q.cpl >>> 32).setWidth 32)
    | 0x70 => some q.cfg
    | 0x74 => some (q.head.zeroExtend 32)
    | 0x78 => some (BitVec.ofNat 32 (b2n q.halted + q.status.toNat * 2 ^ 8))
    | 0xC00 => some ((s.pci k).pba.setWidth 32)
    | 0xC04 => some (((s.pci k).pba >>> 32).setWidth 32)
    | _ => none

/-! ### A read (R15, R18) -/

/-- A register that shows structured state, or none where it is plain. -/
def pageRead (s : State) (p : Page) (off : Nat) : Option Word :=
  match headerRead s p off with
  | some w => some w
  | none =>
    match p with
    | .ash a => ashRead s a off
    | .key d => keyRead s d off
    | .plb d => plbRead s d off
    | .lin d side => linRead s d side off
    | .hbc d k => tierCtlRead s d (if k = 0 then .stack0 else .stack1) off
    | .lpc d => tierCtlRead s d .lpddr off
    | .dmc d => if off = 0x50 then tierCtlRead s d .dimm off else dmcRead s d off
    | .hod d => hodRead s d off
    | .pln d c => plnRead s d c off
    | .eth d => ethRead s d off
    | .ing d => ingRead s d off
    | .egr d => egrRead s d off
    | .jhl d k => jhlRead s d k off
    | .cfgDie d => if off = 0x40 then some (loadStatus s d) else none
    | .mas => masRead s off
    | .tim => if off = 0x40 then some (s.time.setWidth 32)
      else if off = 0x44 then some ((s.time >>> 32).setWidth 32) else none
    | .pwr => pwrRead s off
    | .pin => if off = 0x84 then some (alertSrc s) else none
    | .fus => fusRead s off
    | .pci k => pciRead s k off
    | _ => none

/-- The bits of a plain register that a read shows: not those of W1S and WO fields, nor reserved ones (R15, R16). -/
def readMask (p : Page) (off : Nat) : Nat :=
  (regFields p off).foldl (fun m f =>
    match f.acc with
    | .w1s => m
    | .wo => m
    | _ => m ||| ((2 ^ f.width - 1) * 2 ^ f.lo)) 0

/-- The value a register shows now. -/
def regValue (s : State) (p : Page) (off : Nat) : Word :=
  match pageRead s p off with
  | some w => w
  | none => s.reg p off &&& BitVec.ofNat 32 (readMask p off)

/-- The HI offset of the pair whose LO register this is (R18): the pairs of each page, DBG_DATA not being one. -/
def pairHi (p : Page) (off : Nat) : Option Nat :=
  let counters := fun (lo hi : Nat) => if lo ≤ off ∧ off < hi ∧ off % 8 = 0 then some (off + 4) else none
  let among := fun (l : List Nat) => if l.contains off then some (off + 4) else none
  if off = 0x20 then some 0x24
  else
    match p with
    | .ash _ => if off = 0x3A0 then some 0x3A4 else counters 0x60 0xA0
    | .mor _ => among [0x50]
    | .lin _ _ => among [0x50, 0x58]
    | .key _ => among [0x50, 0x58]
    | .hbc _ _ => among [0x58, 0x60, 0x68]
    | .lpc _ => among [0x58, 0x60, 0x68]
    | .dmc _ => among [0x58, 0x60, 0x68]
    | .hod _ => among [0x68, 0x70, 0x78]
    | .pln _ _ => among [0x80, 0x88]
    | .eth _ => among [0x50, 0x70]
    | .ing _ => among [0xB0, 0xC0]
    | .egr _ => among [0x98]
    | .jhl _ _ => among [0x44, 0x60, 0x68]
    | .mas => among [0x40, 0x54, 0x64, 0x100, 0x110]
    | .cfg => among [0x50, 0x60]
    | .tim => among [0x40, 0x48, 0x50]
    | .pwr => among [0x90, 0x98]
    | .pci _ => among [0x60, 0x68]
    | _ => none

/-- The plain RC fields of a register after a read: back at their reset value (R15, R364). -/
def clearRc (s : State) (p : Page) (off : Nat) : State :=
  (regFields p off).foldl (fun t f => if f.acc = .rc then t.setFld p off f.lo f.width f.reset else t) s

/-- What a read clears besides: STALE of a window, the drop counts of an endpoint; and the error of a closed JREG_DATA
(R144, R299, R358). -/
def ashAfterRead (s : State) (a : Ash) (off : Nat) : State :=
  if 0x200 ≤ off ∧ off < 0x300 ∧ off % 16 = 8 then
    let n := (off - 0x200) / 16
    s.onAsh a fun v => v.setWin n { v.win n with stale := 0 }
  else if 0x300 ≤ off ∧ off < 0x380 ∧ off % 16 = 12 then
    let n := (off - 0x300) / 16
    s.onAsh a fun v => v.setEp n { v.ep n with drops := 0, poisoned := 0 }
  else if off = 0x138 ∧ !jregOpen (s.ash a) then s.record (.ash a) evErrAccess 0
  else s

/-- The effects of a read; CTX_PEAK starts again from the counts of that moment (R183). -/
def afterRead (s : State) (p : Page) (off : Nat) : State :=
  match p with
  | .key d => if off = 0x44 then (clearRc s p off).keyPeaks d else clearRc s p off
  | .ash a => ashAfterRead (clearRc s p off) a off
  | _ => clearRc s p off

/-- CLK.FREQ: the selected die's fclk as measured, within 1 MHz, 0 while it is stopped (R649, R687). -/
def freqRead (s : State) : Word × State :=
  let d := s.fld .clk 0x48 0 3
  let x := s.free
  let live := decide (d < s.part.dies) && s.fld .clk 0x40 d 1 == 1 && s.pstate != .curing
  let mhz := if live then s.part.nominalMHz * (16 - s.fld .pwr (0x60 + 4 * d) 4 3) / 16 + x.1.toNat % 3 - 1 else 0
  (BitVec.ofNat 32 (mhz + s.part.nominalMHz * 2 ^ 16), if live then x.2 else s)

/-- An ASH page of a retired row: the ashlar is in bypass (R680). -/
def bypassed (s : State) (p : Page) : Bool :=
  match p with
  | .ash a => (retiredRows s a.die).contains a.row
  | _ => false

/-- What a read brings to light: corrected errors of links and lintels, the crossings of a lintel, whether its queues are empty
(R353, R364). -/
def revealed (s : State) (p : Page) (off : Nat) : State :=
  match p with
  | .mor d =>
    if off = 0x6C then
      let x := correctedCount s (s.die d).linkFlits
      (x.2.setDie d { x.2.die d with linkFlits := 0 }).count16 p 0x6C 0 x.1
    else s
  | .lin d side =>
    let e := (s.die d).edges[ix 4 (sideIndex side) (by decide)]
    if off = 0x44 then (let x := lintelEmpty s d side; x.2.setFld p 0x44 1 1 x.1)
    else if off = 0x4C ∧ e.crossed ≠ 0 then
      let x := latencyWord s d side
      (x.2.setDie d ((x.2.die d).onEdge side fun e => { e with crossed := 0 })).setReg p 0x4C x.1
    else if off = 0x60 then
      let x := correctedCount s e.checked
      (x.2.setDie d ((x.2.die d).onEdge side fun e => { e with checked := 0 })).count16 p 0x60 0 x.1
    else s
  | _ => s

/-- A register read: its value, and the state after it. A LO half latches its HI half; the next read of HI gives what was
latched (R18). One latch of a register serves every reader (DESIGN CHOICE, log 206). -/
def readReg (s0 : State) (p : Page) (off : Nat) : Word × State :=
  let s := if pageExists s0.part p then revealed s0 p off else s0
  if !pageExists s.part p then (0, s)
  else if bypassed s p && off != 0 && off != 0x40 then (0, s.record p evErrAccess 0)
  else if p = .clk ∧ off = 0x4C then freqRead s
  else
    match pairHi p off with
    | some hi => (regValue s p off, afterRead { s with latch := tset s.latch (p, hi) (regValue s p hi) } p off)
    | none =>
      let v := tget s.latch (p, off) (regValue s p off)
      (v, afterRead { s with latch := tdel s.latch (p, off) } p off)

end Sys2Proof.Machine
end

