-- ==== Sys2Proof/Machine/Jobs.lean ====
section
/-! DEFINITION. The Mason's jobs (R466 to R499, R623 to R641): finding a job, a bay or a member, the rectangle it holds, the
fences and group modes that follow it, dumps, and what happens when a member faults. -/

namespace Sys2Proof.Machine

/-! ### Jobs, bays and members -/

def State.onMas (s : State) (f : Mason → Mason) : State := { s with mas := f s.mas }

/-- The module is neither in Curing nor on its way there (R648, R654). -/
def awake (s : State) : Bool := s.pstate != .curing && s.fld .pwr 0x40 2 1 == 0

/-- The Mason places, loads and recovers: it runs, and the fabrics do (R47, R654). -/
def steady (s : State) : Bool := s.mas.ready && awake s

def State.job (s : State) (id : Half) : Option Job := s.mas.jobs.find? fun j => j.id == id

/-- The job of the same number replaced. -/
def State.setJob (s : State) (j : Job) : State :=
  s.onMas fun m => { m with jobs := m.jobs.map fun x => if x.id = j.id then j else x }

def State.onJob (s : State) (id : Half) (f : Job → Job) : State :=
  s.onMas fun m => { m with jobs := m.jobs.map fun x => if x.id = id then f x else x }

def Job.onBay (j : Job) (b : Nat) (f : Bay → Bay) : Job :=
  { j with bays := j.bays.zipIdx.map fun q => if q.2 = b then f q.1 else q.1 }

def Bay.onMember (b : Bay) (m : Nat) (f : Member → Member) : Bay :=
  { b with members := b.members.zipIdx.map fun q => if q.2 = m then f q.1 else q.1 }

def State.bay (s : State) (id : Half) (b : Nat) : Option Bay := (s.job id).bind fun j => j.bays[b]?

def State.member (s : State) (id : Half) (b m : Nat) : Option Member := (s.bay id b).bind fun x => x.members[m]?

def State.onBay (s : State) (id : Half) (b : Nat) (f : Bay → Bay) : State := s.onJob id fun j => j.onBay b f

def State.onMember (s : State) (id : Half) (b m : Nat) (f : Member → Member) : State :=
  s.onBay id b fun x => x.onMember m f

def State.memberState (s : State) (id : Half) (b m : Nat) (v : MemberState) : State :=
  s.onMember id b m fun x => { x with state := v }

/-- A member that holds a rectangle. -/
def Member.placed (m : Member) : Bool := m.state != .unplaced

/-- Indices of the members of a bay in a state. -/
def Bay.membersIn (b : Bay) (v : MemberState) : List Nat :=
  (b.members.zipIdx.filter fun q => q.1.state == v).map fun q => q.2

def Bay.serving (b : Bay) : List Nat := b.membersIn .serving

/-! ### Rectangles -/

/-- A rectangle in the layout of PLB.SLOT_BAY (R224). -/
def rectWord (x y w h : Nat) : Word :=
  BitVec.ofNat 32 (x / 8 % 16 + y / 8 % 16 * 2 ^ 8 + w / 8 % 32 * 2 ^ 16 + h / 8 % 16 * 2 ^ 24 + 2 ^ 31)

def Bay.rect (b : Bay) (m : Member) : Word := rectWord m.x m.y b.img.w b.img.h

/-- The ashlars of a rectangle of a die, row by row. -/
def rectAsh (s : State) (die x y w h : Nat) : List Ash :=
  (List.range h).flatMap fun r =>
    match physicalRow s die (y + r) with
    | some p => (List.range w).map fun c => ⟨die, x + c, p⟩
    | none => []

def Bay.ashlars (s : State) (b : Bay) (m : Member) : List Ash :=
  if m.placed then rectAsh s m.die m.x m.y b.img.w b.img.h else []

def Job.ashlars (s : State) (j : Job) : List Ash := j.bays.flatMap fun b => b.members.flatMap fun m => b.ashlars s m

/-- Whether a member's rectangle holds an ashlar. -/
def Bay.holds (s : State) (b : Bay) (m : Member) (a : Ash) : Bool :=
  m.placed && m.die == a.die &&
    (match logicalRow s a.die a.row with
     | some r => inRect (b.rect m) a.col r
     | none => false)

/-- Every member: job, bay index, member index. -/
def allMembers (s : State) : List (Half × Nat × Nat) :=
  s.mas.jobs.flatMap fun j => j.bays.zipIdx.flatMap fun b => (List.range b.1.members.length).map fun m => (j.id, b.2, m)

/-- The member whose rectangle holds an ashlar. -/
def memberAt (s : State) (a : Ash) : Option (Half × Nat × Nat) :=
  (allMembers s).find? fun k =>
    match s.bay k.1 k.2.1 with
    | some b =>
      (match b.members[k.2.2]? with
       | some m => b.holds s m a
       | none => false)
    | none => false

/-! ### Fences (R354, R608) -/

/-- A fence written and in force at every router (R354). -/
def setFence (s : State) (die n : Nat) (w : Word) : State :=
  let t := fenceWrite s die n w
  let d := t.die die
  let v := t.reg (.mor die) (0x80 + 4 * n)
  ((t.setDie die { d with fences := d.fences.set (ix 16 n (by decide)) v }).setFld (.mor die) 0x70 n 1 (bits v 31 1)).openPorts

/-- The fences of a die that a member holds, at its place and at one it is moved from. -/
def Member.fencesOn (m : Member) (die : Nat) : List Nat :=
  (if m.die = die then [m.fence] else []) ++ (match m.old with
    | some o => if o.die = die then [o.fence] else []
    | none => [])

/-- The lowest fence of a die that no member holds; 16 where every fence is taken. -/
def freeFence (s : State) (die : Nat) : Nat :=
  let used := s.mas.jobs.flatMap fun j => j.bays.flatMap fun b => b.members.flatMap fun m => m.fencesOn die
  ((List.range 16).find? fun n => !used.contains n && s.fld (.mor die) (0x80 + 4 * n) 31 1 == 0).getD 16

/-- The die of a bay's receiving port. -/
def Bay.portDie (s : State) (b : Bay) : Option Nat := if b.img.port < s.part.dies then some b.img.port else none

/-- LIVE of the ingress routes of a member. -/
def setLive (s : State) (b : Bay) (m : Nat) (live : Bool) : State :=
  match b.portDie s with
  | none => s
  | some d => s.onIng d fun g => settleGroups { g with routes := g.routes.map fun r =>
      if r.group.toNat = b.img.group % 8 ∧ r.member.toNat = m ∧ r.entry.valid = true then { r with live := live } else r }

/-- A member's rectangle fenced, with LIFT where it is asked for (R608, R609, R610); LIVE of its routes is cleared first (R518). -/
def fenceMember (s : State) (id : Half) (b m : Nat) (lift : Bool) : State :=
  match s.bay id b with
  | none => s
  | some x =>
    match x.members[m]? with
    | none => s
    | some y =>
      let n := if y.fence < 16 then y.fence else freeFence s y.die
      if 16 ≤ n then s
      else
        let t := (setFence (setLive s x m false) y.die n (x.rect y)).onMember id b m fun z => { z with fence := n }
        if lift then t.setFld (.cfgDie y.die) 0x44 n 1 1 else t

/-- A member's fence and LIFT cleared. -/
def unfenceMember (s : State) (id : Half) (b m : Nat) : State :=
  match s.member id b m with
  | none => s
  | some y =>
    if 16 ≤ y.fence then s
    else ((setFence s y.die y.fence 0).setFld (.cfgDie y.die) 0x44 y.fence 1 0).onMember id b m fun z => { z with fence := 16 }

/-! ### Ashlars of a member -/

def freezeAll (s : State) (l : List Ash) : State := l.foldl (fun t a => freezeOn t a) s

def thawAll (s : State) (l : List Ash) : State := l.foldl (fun t a => freezeOff t a) s

/-- Every engine flushed, where the ashlar is frozen (R77). -/
def flushAll (s : State) (l : List Ash) : State :=
  l.foldl (fun t a => t.onAsh a fun v => if v.frozen then (enginesOf 0xF).foldl flushEngine v else v) s

def softResetAll (s : State) (l : List Ash) : State := l.foldl (fun t a => softReset t a) s

/-- ASH.CONTEXT of every ashlar (R89, R610). -/
def contextAll (s : State) (l : List Ash) (w : Word) : State := l.foldl (fun t a => contextWrite t a w) s

/-- ASH.CONTEXT of a job. -/
def jobContext (j : Job) : Word := BitVec.ofNat 32 (j.id.toNat + b2n j.clsT * 2 ^ 16 + 2 ^ 17)

/-- An ashlar's page holds a recorded fault (R625). -/
def holdsFault (s : State) (a : Ash) : Bool :=
  let p := Page.ash a
  s.fld p 0x58 31 1 == 1 || s.fld p 0x1C 31 1 == 1 || s.fld p 0x704 31 1 == 1

/-! ### Ingress and egress of a bay (R518, R530, R531) -/

/-- MODE and SOLO of the members that serve, in a bay of n: SILENT, SINGLE, COMPARE for a twinned bay, VOTE for a tripled one
(R530, R629). -/
def modeFor (n : Nat) (serving : List Nat) : Nat :=
  match serving with
  | [] => 0
  | [m] => 1 + m % 4 * 4
  | _ => if n = 2 then 2 else 3

/-- GRP_MODE written for the members that serve, its other fields kept. -/
def writeGroup (s : State) (b : Bay) (serving : List Nat) : State :=
  match b.portDie s with
  | none => s
  | some d => grpModeWrite s d b.img.group (setBits ((s.die d).egr.group b.img.group).written 0 4 (modeFor b.members.length serving))

/-- GRP_MODE written for the members of a bay that now serve. -/
def settleMode (s : State) (id : Half) (b : Nat) : State :=
  match s.bay id b with
  | none => s
  | some x => writeGroup s x x.serving

/-- IN_CFG.VERSION of a member's inputs (R458, R629). -/
def setVersion (s : State) (b : Bay) (m : Nat) (v : Half) : State :=
  match b.portDie s with
  | none => s
  | some d => s.onEgr d fun g => { g with ins := g.ins.map fun i =>
      if i.group.toNat = b.img.group % 8 ∧ i.member.toNat = m then { i with version := v } else i }

/-! ### Dumps (R639 to R641) -/

/-- The dump tensor: handle 0xF_FFFF of JOB_ID 0xFFFF, 2^27 words long. -/
def dumpWords : Nat := 2 ^ 27

/-- One word of the dump tensor written, where the tensor stands in the tables. -/
def dumpWord (s : State) (w v : Nat) : State :=
  match s.walk 0 0xFFFF 0xFFFFF (w / 2 ^ 18) with
  | .found fd => s.tierWrite (fdDie fd) (fdTier fd) (fdFrame fd) (w % 2 ^ 18) [BitVec.ofNat 64 v] []
  | _ => s

/-- Words of a record or of a list written from word `at'` on. -/
def dumpRecord (s : State) (at' : Nat) (r : Record) : State := r.foldl (fun t x => dumpWord t (at' + x.1) x.2) s

/-- The first 256 bytes of a page, read register by register, as 32 words. -/
def dumpPage (s : State) (p : Page) : List Word × State :=
  (List.range 64).foldl (fun (r : List Word × State) k =>
    let x := readReg r.2 p (4 * k)
    (r.1 ++ [x.1], x.2)) ([], s)

/-- The rest of what R390 and R357 have the Mason read of an ashlar, in the bytes after PEG_FQ (DESIGN CHOICE, log 187): WAITERS,
LAST and FLAGS of each peg, PEG_WDOG_INFO and PEG_WDOG_VAL, ENGINE_STATUS and ENGINE_STATE. -/
def dumpRest (s : State) (a : Ash) : Record :=
  pairUp 7919 (((List.range 48).flatMap fun n => [pegRead s a n 1, pegRead s a n 2, pegRead s a n 3])
    ++ [0x704, 0x708, 0x48, 0x4C].map fun off => regValue s (.ash a) off)

/-- A dump set for one member: header, index, records, pages; then its directory entry, NEXT and DUMP_READY. -/
def dumpSet (s : State) (code : Nat) (id : Half) (b m : Nat) (l : List Ash) : State :=
  match s.bay id b with
  | none => s
  | some x =>
    match x.members[m]? with
    | none => s
    | some y =>
      let n := l.length
      let port := (x.portDie s).getD y.die
      let len := 32 + 2 * n + 8192 * n + 160
      let at0 := s.mas.dumpOff / 8
      let at' := if at0 + len ≤ dumpWords then at0 else 512
      let head := at' + 32 + 2 * n
      let t := dumpRecord s at' [(0, code + b * 2 ^ 16 + m * 2 ^ 32 + y.die * 2 ^ 40), (1, s.time.toNat),
        (2, y.x + y.y * 2 ^ 16 + n * 2 ^ 32)]
      let t := l.zipIdx.foldl (fun t q =>
        let a := q.1
        let d := ashDest s a
        let r := saveRecord s a ++ dumpExtra (s.ash a) ++ dumpRest s a
        dumpRecord (dumpRecord t (at' + 32 + 2 * q.2)
          [(0, destX d + destY d * 2 ^ 16 + a.row * 2 ^ 32), (1, 8 * (32 + 2 * n + 8192 * q.2))]) (head + 8192 * q.2) r) t
      let pages := [Page.mor y.die, .key y.die, .plb y.die, .ing port, .egr port]
      let t := pages.zipIdx.foldl (fun t q =>
        let r := dumpPage t q.1
        dumpRecord r.2 0 (pairUp (head + 8192 * n + 32 * q.2) r.1)) t
      let k := t.mas.dumpSet
      let t := dumpRecord t (2 + 2 * (k % 255)) [(0, k + 8 * at' * 2 ^ 32), (1, 8 * len + code * 2 ^ 32 + id.toNat * 2 ^ 48)]
      let t := dumpWord t 0 ((k + 1) % 2 ^ 32)
      let t := t.onMas fun q => { q with dumpSet := (k + 1) % 2 ^ 32, dumpOff := 8 * (at' + len) }
      t.masEvent evDumpReady id (pageSrc t .mas)

/-! ### A faulted member (R623, R624) -/

/-- A command refused where the spec gives REASON no code: an open value (R497). -/
def refused (s : State) (tag : Word) : State :=
  let f := s.free
  f.2.complete tag 5 (f.1.toNat % 256) 0 0

/-- The command a job's end answers, if one waits for it. -/
def answerWait (s : State) (id : Half) (status event result : Nat) : State :=
  match s.job id with
  | none => s
  | some j =>
    match j.wait with
    | none => s
    | some w => (s.onJob id fun x => { x with wait := none }).complete w.1 status 0 event result

/-- Every ashlar of a job frozen behind fences, its bays dumped, and the job FAULTED (R390, R624, R639). A pre-emption of it that
has not come to its saves goes on at step 2, and its end marks the job FAULTED (R485). -/
def faultJob (s : State) (id : Half) (code : Nat) : State :=
  match s.job id with
  | none => s
  | some j =>
    let draining := j.state == .preempting && j.step != 6
    if j.state = .faulted ∨ (draining ∧ j.cause ≠ 0) then s
    else
      let members := j.bays.zipIdx.flatMap fun b => (List.range b.1.members.length).map fun m => (b.2, m)
      let t := members.foldl (fun t k => fenceMember t id k.1 k.2 false) s
      let t := freezeAll t (j.ashlars t)
      let t := members.foldl (fun t k =>
        match (t.bay id k.1).bind fun b => b.members[k.2]?.map fun m => b.ashlars t m with
        | some l => if l.isEmpty then t else dumpSet t code id k.1 k.2 l
        | none => t) t
      if draining then t.onJob id fun x => { x with step := 2, cause := BitVec.ofNat 16 code }
      else answerWait (t.onJob id fun x => { x with state := .faulted, saves := [], cause := BitVec.ofNat 16 code }) id 9 code 0

/-- A member faulted by the event in hand (R623). -/
def Member.fault (y : Member) (s : State) (code : Nat) : Member :=
  { y with state := .faulted, cause := BitVec.ofNat 16 code, faultAt := s.mas.raisedAt }

/-- A member of a class S bay taken out of service: its routes are no longer LIVE, egress releases the members left, and
where none is left the bay goes SILENT (R610, R624). -/
def faultServing (s : State) (id : Half) (b m code : Nat) : State :=
  match s.bay id b with
  | none => s
  | some x =>
    let t := settleMode ((setLive s x m false).onMember id b m fun y => y.fault s code) id b
    match t.bay id b with
    | some y => if y.serving.isEmpty then t.masEvent evBaySilent id (pageSrc t .mas) else t
    | none => t

/-- A member faulted by an event (R623, R624): a fault during its load is absorbed (R612), and one of a member already
faulted changes nothing. -/
def faultMember (s : State) (id : Half) (b m : Nat) (code : Nat) : State :=
  match s.job id, s.member id b m with
  | some j, some y =>
    if j.clsT then (if y.placed ∧ y.state ≠ .loading then faultJob s id code else s)
    else if y.state = .serving then faultServing s id b m code
    else if y.state = .rebuilt ∨ y.state = .loaded ∨ y.state = .stopped then s.onMember id b m fun z => z.fault s code
    else s
  | _, _ => s

/-- The member that holds an ashlar faulted. -/
def faultAsh (s : State) (a : Ash) (code : Nat) : State :=
  match memberAt s a with
  | some k => faultMember s k.1 k.2.1 k.2.2 code
  | none => s

end Sys2Proof.Machine
end

