-- ==== Sys2Proof/Machine/Course.lean ====
section
/-! DEFINITION. Spare courses (R23, R26, R633 to R635): a retired row, the state that moves with its logical row, and the
course map kept in the persistent store. -/

namespace Sys2Proof.Machine

/-- The page of an ashlar of a die after rows have moved; other pages stay. -/
def movePage (die : Nat) (mv : Nat → Nat) (p : Page) : Page :=
  match p with
  | .ash a => if a.die = die then .ash { a with row := mv a.row } else p
  | _ => p

def moveAsh (die : Nat) (mv : Nat → Nat) (a : Ash) : Ash := if a.die = die then { a with row := mv a.row } else a

/-- The entries of a table keyed by something that names an ashlar: those of the row moved onto nothing, or of the retired
row's place, go; the others move. -/
def moveTable {κ α : Type} (moved : κ → Bool) (f : κ → κ) (t : Table κ α) : Table κ α :=
  (t.filter fun e => moved e.1).map fun e => (f e.1, e.2)

/-- Whether an ashlar lies on a row that is kept: not of this die, or carrying a logical row. -/
def keptAsh (s : State) (die : Nat) (a : Ash) : Bool := a.die != die || (logicalRow s die a.row).isSome

def keptPage (s : State) (die : Nat) (p : Page) : Bool :=
  match p with
  | .ash a => keptAsh s die a
  | _ => true

/-- The complete state of the ashlars and routers of a die moved to the physical rows that carry their logical rows now:
`s` as it was before the map changed, `t` with the new map (R634). -/
def copyRows (s t : State) (die : Nat) : State :=
  let mv := fun r => ((logicalRow s die r).bind fun l => physicalRow t die l).getD r
  let page := movePage die mv
  let ash := moveAsh die mv
  let report := fun (r : Report) => { r with page := page r.page }
  { t with
    ashlars := moveTable (keptAsh s die) ash t.ashlars
    regs := moveTable (keptPage s die) page t.regs
    latch := moveTable (fun k => keptPage s die k.1) (fun k => (page k.1, k.2)) t.latch
    loHeld := moveTable (fun k => keptPage s die k.1) (fun k => (page k.1, k.2)) t.loHeld
    reports := t.reports.map report
    heldEvents := t.heldEvents.map report
    supply := { t.supply with cured := { t.supply.cured with frozen := t.supply.cured.frozen.map ash } }
    mas := { t.mas with
      inboxes := t.mas.inboxes.map fun l => l.map report
      summary := t.mas.summary.map ash
      probe := t.mas.probe.map fun e => (ash e.1, e.2.1, e.2.2.map fun x => (ash x.1, x.2))
      jobs := t.mas.jobs.map fun j => { j with saves := j.saves.map ash, recorded := j.recorded.map fun x => (ash x.1, x.2) }
      loads := t.mas.loads.map fun l =>
        let u := { l with left := l.left.map ash }
        if u.die = die ∧ u.active = true then { u with active := false, left := [], failed := false } else u } }

/-- RESULT of COURSE_CMD. -/
def courseResult (s : State) (die r : Nat) : State := s.setFld (.cfgDie die) 0x54 9 2 r

/-- The course map with one more retired row. -/
def mapRow (s : State) (die row : Nat) : State :=
  if s.fld (.cfgDie die) 0x50 7 1 = 0 then s.setFld (.cfgDie die) 0x50 0 8 (row + 128)
  else s.setFld (.cfgDie die) 0x50 8 8 (row + 128)

/-- The map in the persistent store. -/
def storeCourse (s : State) (die : Nat) : State :=
  keepStore s { s.kept with courses := s.kept.courses.set (dieIdx die) (s.reg (.cfgDie die) 0x50) }

/-- A row retired (R634): a spare without a logical row is only marked, any other moves the rows from it on. -/
def shiftRows (s : State) (die row : Nat) : State :=
  let t := courseResult (mapRow s die row) die 0
  if (logicalRow s die row).isNone then t else copyRows s t die

/-- A third failure: the die is DIE_DEGRADED (R26, R635). -/
def degradeDie (s : State) (die : Nat) : State :=
  let t := storeCourse ((courseResult s die 2).setFld (.cfgDie die) 0x50 16 1 1) die
  if s.fld (.cfgDie die) 0x50 16 1 = 1 then t else t.masEvent evDieDegraded 0xFFFF (pageSrc t (.cfgDie die))

/-- An ashlar where its logical row lies after a row has been retired. -/
def movedAsh (s t : State) (a : Ash) : Ash :=
  { a with row := ((logicalRow s a.die a.row).bind fun r => physicalRow t a.die r).getD a.row }

/-- The bay of the failed ashlar faulted with the code that showed the failure, where its row lies now (R623, R634). -/
def faultFailed (s t : State) : Option (Ash × Nat) → State
  | some (a, code) => faultAsh t (movedAsh s t a) code
  | none => t

/-- The row of a die that the Mason declares failed (R26, R633, R634): retired, the failed ashlar's bay faulted, the map stored,
ROW_RETIRED posted. -/
def retireRow (s : State) (die row : Nat) (failed : Option (Ash × Nat)) : State :=
  if (retiredRows s die).contains row then faultFailed s (courseResult s die 1) failed
  else if (retiredRows s die).length = 2 then faultFailed s (degradeDie s die) failed
  else
    let t := faultFailed s (shiftRows s die row) failed
    let u := storeCourse t die
    u.masEvent evRowRetired 0xFFFF (pageSrc u (.cfgDie die))

/-- The code that a failed ashlar's member is faulted with where no event shows the failure. -/
def failCode (s : State) (a : Ash) : Nat :=
  if s.fld (.ash a) 0x1C 31 1 = 1 then s.fld (.ash a) 0x1C 0 16 else evCode .mas evRowRetired

/-- A row that a command names, retired: which ashlar of it has failed is a free value. -/
def retireNamed (s : State) (die row : Nat) : State :=
  if (retiredRows s die).contains row ∨ (retiredRows s die).length = 2 then retireRow s die row none
  else
    let x := s.free
    let a : Ash := ⟨die, x.1.toNat % 128, row⟩
    retireRow x.2 die row (some (a, failCode s a))

/-- COURSE_SHIFT (R634). -/
def execCourseShift (die row : Nat) (s : State) : Host.Outcome State Fault Refusal :=
  atDieIf s die (decide (row < 98)) (.next (retireNamed s die row))

/-- A write to COURSE_CMD (R635): a ROW that names no row retires nothing. -/
def courseCmd (s : State) (die : Nat) (v : Word) : State :=
  let t := s.setFld (.cfgDie die) 0x54 0 7 (bits v 0 7)
  if bit v 7 && decide (bits v 0 7 < 98) then retireNamed t die (bits v 0 7) else t

/-- COURSE_CMD_RETIRE (R635). -/
def execCourseCmdRetire (die : Nat) (v : Word) (s : State) : Host.Outcome State Fault Refusal :=
  atDie s die (.next (courseCmd s die v))

/-! ### Router accesses that fail (R633) -/

/-- Whether the router access of a die has been under way for more than 1,024 fclk cycles, by the time base (R363, R649). -/
def raccLate (s : State) (die : Nat) : Bool :=
  match (s.die die).raccAt with
  | some t => decide (1024 * 16000 < (s.time - t).toNat * s.part.nominalMHz * (16 - levelOf s die))
  | none => false

/-- The row of the router that RACC_ADDR names retired, if it is a row of the grid that is not retired yet, and the bay of the
router's ashlar faulted. -/
def raccFailed (s : State) (die : Nat) : State :=
  let a : Ash := ⟨die, s.fld (.mor die) 0x60 0 7, s.fld (.mor die) 0x60 7 7⟩
  if 98 ≤ a.row ∨ (retiredRows s die).contains a.row then s else retireRow s die a.row (some (a, failCode s a))

/-- A router access carried: one that ends with ERR or was late shows that the row has failed (R633). -/
def raccOver (s t : State) (die : Nat) : State :=
  let u := t.setDie die { t.die die with raccAt := none }
  if s.mas.ready && (t.fld (.mor die) 0x68 3 1 == 1 || raccLate s die) then raccFailed u die else u

/-- A router access that stays BUSY too long shows it as soon as the Mason looks at the die (R633). -/
def raccWatch (s : State) (die : Nat) : State :=
  if raccLate s die then raccFailed (s.setDie die { s.die die with raccAt := none }) die else s

/-- RACC_READ (R360): the access under way carried, or one started and carried; while a write is under way it has no effect
(R363). -/
def execRaccRead (die : Nat) (s : State) : Host.Outcome State Fault Refusal :=
  atDie s die (.next
    (if s.fld (.mor die) 0x68 1 2 = 3 then s.record (.mor die) evErrAccess 0 else raccOver s (raccRead s die) die))

/-- RACC_WRITE (R360), as RACC_READ. -/
def execRaccWrite (die : Nat) (s : State) : Host.Outcome State Fault Refusal :=
  atDie s die (.next
    (if s.fld (.mor die) 0x68 0 1 = 1 ∧ s.fld (.mor die) 0x68 2 1 = 1 then s.record (.mor die) evErrAccess 0
     else raccOver s (raccWrite s die) die))

/-- The stored maps applied after the fabrics start, before any bay loads (R635). -/
def applyCourses (s : State) : State :=
  (List.range s.part.dies).foldl (fun t d =>
    let w := t.kept.courses[dieIdx d]
    let one := fun (u : State) (lo : Nat) =>
      if bit w (lo + 7) && !(retiredRows u d).contains (bits w lo 7) then shiftRows u d (bits w lo 7) else u
    (one (one t 0) 8).setFld (.cfgDie d) 0x50 16 1 (bits w 16 1)) s

end Sys2Proof.Machine
end

