-- ==== Sys2Proof/Machine/RegWrite.lean ====
section
/-! DEFINITION. What a register write does, page by page, by the access codes of R15 and each page's own rules. Writes of the
command registers of CFG, PWR and FUS are completed in Machine/Bus.lean. -/

namespace Sys2Proof.Machine

/-! ### Plain registers (R15 to R18) -/

/-- A register after a write of v: RW fields take it, W1C bits written 1 clear, the rest stay. -/
def storedWord (p : Page) (off : Nat) (old v : Word) : Word :=
  (regFields p off).foldl (fun w f =>
    match f.acc with
    | .rw => setBits w f.lo f.width (bits v f.lo f.width)
    | .w1c => setBits w f.lo f.width (bits old f.lo f.width - (bits old f.lo f.width &&& bits v f.lo f.width))
    | _ => w) old

/-- A plain write; a register that does not change stays as it is listed. -/
def plainWrite (s : State) (p : Page) (off : Nat) (v : Word) : State :=
  let new := storedWord p off (s.reg p off) v
  if new = s.reg p off then s else s.setReg p off new

/-- The registers that go back to 0 when bit 31, VALID, of a record is cleared (R90, R184, R386, R431, R451, R544, R615,
R673). -/
def recordRegs (p : Page) (off : Nat) : List Nat :=
  match p, off with
  | _, 0x1C => [0x1C, 0x20, 0x24]
  | .ash _, 0x58 => [0x58]
  | .ash _, 0x704 => [0x704, 0x708]
  | .key _, 0x48 => [0x48]
  | .hbc _ _, 0x4C => [0x4C]
  | .lpc _, 0x4C => [0x4C]
  | .dmc _, 0x4C => [0x4C]
  | .pln _ _, 0x74 => [0x74]
  | .egr _, 0x64 => [0x64, 0x68]
  | .cfgDie _, 0x48 => [0x48]
  | _, _ => []

/-- A record released by a 1 written to its VALID bit. -/
def recordClear (s : State) (p : Page) (off : Nat) (v : Word) : State :=
  if bit v 31 then (recordRegs p off).foldl (fun t o => t.setReg p o 0) s else s

/-- LO offsets of the writable pairs that take effect when HI is written (R18). -/
def writePairs (p : Page) : List Nat :=
  match p with
  | .mas => [0x40, 0x54, 0x64]
  | .cfg => [0x50, 0x60]
  | .pwr => [0x90, 0x98]
  | .tim => [0x48]
  | .pci _ => [0x60, 0x68]
  | .ash _ => [0x3A0]
  | _ => []

def holdLo (s : State) (p : Page) (off : Nat) (v : Word) : State := { s with loHeld := tset s.loHeld (p, off) v }

/-- A pair's HI half written: the LO half held before it, or the LO half as it stands, and the state without it. -/
def takeLo (s : State) (p : Page) (off : Nat) (live : Word) : Word × State :=
  (tget s.loHeld (p, off) live, { s with loHeld := tdel s.loHeld (p, off) })

/-- The HI half of a plain pair written. -/
def plainPair (s : State) (p : Page) (lo : Nat) (v : Word) : State :=
  let x := takeLo s p lo (s.reg p lo)
  plainWrite (plainWrite x.2 p lo (if p = .mas then x.1 &&& 0xFFFFFFC0 else x.1)) p (lo + 4) v

/-! ### Performance counters (R92, R186, R431, R434, R464) -/

/-- A page's performance-control register and the LO offsets of its counters. -/
def perfBank (p : Page) : Option (Nat × List Nat) :=
  match p with
  | .ash _ => some (0xA0, [0x60, 0x68, 0x70, 0x78, 0x80, 0x88, 0x90, 0x98])
  | .key _ => some (0x60, [0x50, 0x58])
  | .hbc _ _ => some (0x70, [0x58, 0x60, 0x68])
  | .lpc _ => some (0x70, [0x58, 0x60, 0x68])
  | .dmc _ => some (0x70, [0x58, 0x60, 0x68])
  | .hod _ => some (0x80, [0x68, 0x70, 0x78])
  | .pln _ _ => some (0x90, [0x80, 0x88])
  | _ => none

/-- CLEAR: every counter of the page and its OVF flag at 0. -/
def perfClear (s : State) (p : Page) : State :=
  match perfBank p with
  | some (_, l) => l.foldl (fun t o => t.setPair p o 0) s
  | none => s

/-- Whether a command may act on a page now: it exists, answers, and no bypass covers it (R680, R681). -/
def pageLive (s : State) (p : Page) : Bool := pageExists s.part p && pageAnswers s p && !bypassed s p

/-- PERF_CLEAR (R92). -/
def execPerfClear (p : Page) (s : State) : Host.Outcome State Fault Refusal :=
  if !pageExists s.part p then .fault .noSuchBlock
  else .next (if pageLive s p then perfClear s p else s)

/-! ### The header (R673 to R676) -/

/-- Registers from 0x040 upward back at reset. -/
def resetRegs (s : State) (p : Page) : State :=
  { s with
    regs := tset s.regs p ((tget s.regs p []).filter fun e => decide (e.1 < 0x40))
    latch := s.latch.filter fun e => !(e.1.1 == p && decide (0x40 ≤ e.1.2))
    loHeld := s.loHeld.filter fun e => !(e.1.1 == p) }

/-- The block of a page at reset, its queues empty; a Jeham port's discards are counted in ERRS.UE (R674). -/
def resetBlock (s : State) (p : Page) : State :=
  match p with
  | .eth d => s.onEth d fun _ => Eth.reset
  | .ing d => s.onIng d fun _ => Ing.reset
  | .egr d => s.onEgr d fun _ => Egr.reset
  | .jhl d k =>
    let t := (jhlDiscard s d k).setJhl d k Jhl.reset
    if k = 0 then t.setDie d { t.die d with red := Vector.replicate 16 RedCtx.reset } else t
  | _ => s

/-- SOFT_RESET of a page (R76, R674). -/
def pageSoftReset (s : State) (p : Page) : State :=
  match p with
  | .ash a => softReset s a
  | _ =>
    if !hasEnable p then s
    else if s.fld p 0x08 0 1 = 1 then s.record p evErrAccess 0
    else resetBlock (resetRegs s p) p

/-- PAGE_SOFT_RESET (R674). -/
def execPageSoftReset (p : Page) (s : State) : Host.Outcome State Fault Refusal :=
  if !pageExists s.part p then .fault .noSuchBlock
  else .next (if pageLive s p then pageSoftReset s p else s)

/-- ENABLE written where the page has it (R506, R554, R674): a disabled Ethernet port's logical ports are down. -/
def enableWrite (s : State) (p : Page) (on : Bool) : State :=
  match p with
  | .eth d =>
    let t := s.setFld p 0x08 0 1 (b2n on)
    if on then t else (List.range 4).foldl (fun u i => linkChange u d i false) t
  | .jhl d k => jhlEnable s d k on
  | _ => if hasEnable p then s.setFld p 0x08 0 1 (b2n on) else s

/-- A write to CTRL: SOFT_RESET is judged on ENABLE as it stood (R674). -/
def ctrlWrite (s : State) (p : Page) (v : Word) : State :=
  let t := if bit v 1 then pageSoftReset s p else s
  match p with
  | .ash a => if bit v 2 then freezeOn t a else freezeOff t a
  | _ => enableWrite t p (bit v 0)

/-- INT_ENABLE written: an event that waits in INT_STATUS goes to the Mason once EVENT is enabled (R675). -/
def intEnableWrite (s : State) (p : Page) (v : Word) : State :=
  let t := s.setReg p 0x14 (v &&& 7)
  let code := s.fld p 0x1C 0 16
  if s.fld p 0x14 1 1 = 0 ∧ bit v 1 ∧ s.fld p 0x10 1 1 = 1 ∧ s.fld p 0x1C 31 1 = 1 then
    t.report p ⟨code / 4096, code % 4096 - pageBlock p * 64⟩ (t.pair p 0x20)
  else t

/-- INT_FORCE: the INT_STATUS bits written are set, without an event (R673). -/
def intForce (s : State) (p : Page) (v : Word) : State :=
  pciIrq s (s.setReg p 0x10 (s.reg p 0x10 ||| (v &&& 7))) p

/-- INT_FORCE (R673). -/
def execIntForce (p : Page) (v : Word) (s : State) : Host.Outcome State Fault Refusal :=
  if !pageExists s.part p then .fault .noSuchBlock
  else .next (if pageLive s p then intForce s p v else s)

def headerWrite (s : State) (p : Page) (off : Nat) (v : Word) : State :=
  match off with
  | 0x08 => ctrlWrite s p v
  | 0x14 => pciIrq s (intEnableWrite s p v) p
  | 0x18 => intForce s p v
  | 0x1C => recordClear s p off v
  | _ => plainWrite s p off v

/-! ### The ashlar's page -/

def jctrlWrite (s : State) (a : Ash) (v : Word) : State :=
  let t := s.onJ a fun j => { j with autorun := bit v 3, handlerEn := bit v 4 }
  let t := if bit v 0 then t.onAsh a (leaveBoundary joinerRun) else t
  let t := if bit v 2 then t.onAsh a (leaveBoundary joinerStep) else t
  if bit v 1 then joinerHalt t a else t

/-- ASH.JBANK written (R131): ARM and DISARM together have no effect and record ERR_ACCESS. -/
def jbankWrite (s : State) (a : Ash) (v : Word) : State :=
  if bit v 2 && bit v 3 then s.record (.ash a) evErrAccess 0
  else if bit v 2 then s.onAsh a bankArm
  else if bit v 3 then s.onJ a fun j => { j with armed := false }
  else s

/-- The Joiner's registers (R141 to R145). -/
def joinerWrite (s : State) (a : Ash) (off : Nat) (v : Word) : State :=
  match off with
  | 0x100 => jctrlWrite s a v
  | 0x108 =>
    let st := (s.ash a).joiner.state
    if st = .halted ∨ st = .ended ∨ st = .faulted then
      s.onJ a fun j => { j with pc := BitVec.ofNat 11 v.toNat, bkptPass := false }
    else s
  | 0x10C => s.onJ a fun j => { j with entry := BitVec.ofNat 11 v.toNat, hentry := BitVec.ofNat 11 (bits v 16 11) }
  | 0x110 => jbankWrite s a v
  | 0x114 => if bit v 8 then s.onJ a fun j => { j with double := false } else s
  | 0x130 => bayorgWrite s a v
  | 0x138 => jregWrite s a v
  | 0x140 => s.onJ a fun j => { j with bkpt0 := BitVec.ofNat 11 v.toNat, bkpt0En := bit v 31 }
  | 0x144 => s.onJ a fun j => { j with bkpt1 := BitVec.ofNat 11 v.toNat, bkpt1En := bit v 31 }
  | _ =>
    if 0x120 ≤ off ∧ off < 0x130 then
      s.onJ a fun j => { j with al := j.al.set (ix 4 ((off - 0x120) / 4) (by decide)) v }
    else plainWrite s (.ash a) off v

/-- WINn_REMOTE: a close, then an open, of a window that is VALID and REMOTE (R277, R299). -/
def winRemoteWrite (s : State) (a : Ash) (n : Nat) (v : Word) : State :=
  s.onAsh a fun u =>
    let w := u.win n
    if !(w.valid && w.remote) then u
    else
      let w := if bit v 10 then closeWin w else w
      u.setWin n (if bit v 9 then openWin w else w)

/-- WINn_STATUS, writable for a message ring (R268, R359). -/
def winStatusWrite (s : State) (a : Ash) (n : Nat) (v : Word) : State :=
  let u := s.ash a
  let w := u.win n
  if w.kind ≠ 3 then s
  else if !contextWritable u then s.record (.ash a) evErrAccess 0
  else s.setAsh a (u.setWin n { w with
    rd := BitVec.ofNat 13 v.toNat, wr := BitVec.ofNat 13 (bits v 13 13), recs := BitVec.ofNat 5 (bits v 26 5), vcs := [] })

def windowWrite (s : State) (a : Ash) (n k : Nat) (v : Word) : State :=
  match k with
  | 0 => winCfgWrite s a n v
  | 1 => winRingWrite s a n v
  | 2 => winRemoteWrite s a n v
  | _ => winStatusWrite s a n v

def endpointWrite (s : State) (a : Ash) (n k : Nat) (v : Word) : State :=
  match k with
  | 0 => epCfgWrite s a n v
  | 1 => s.onAsh a fun u =>
      let e := u.ep n
      u.setEp n { e with overrun := e.overrun && !bit v 5, poison := e.poison && !bit v 6 }
  | 2 => epPeerWrite s a n v
  | _ => s

def pegWrite (s : State) (a : Ash) (n k : Nat) (v : Word) : State :=
  match k with
  | 0 => pegValueWrite s a n v
  | 3 => s.onAsh a fun u =>
      let q := u.peg n
      u.setPeg n { q with signalled := q.signalled && !bit v 0, wdog := q.wdog && !bit v 1 }
  | _ => s

/-- ENGINE_CTRL: RESUME, then FLUSH where the ashlar is frozen (R77, R79). -/
def engineCtrlWrite (s : State) (a : Ash) (v : Word) : State :=
  let t := s.onAsh a fun u => (enginesOf (BitVec.ofNat 4 (bits v 0 4))).foldl resumeEngine u
  if (t.ash a).frozen then t.onAsh a fun u => (enginesOf (BitVec.ofNat 4 (bits v 4 4))).foldl flushEngine u else t

/-- SR_SEED's HI half: the generator takes both halves, in a frozen or idle ashlar (R303). -/
def seedWrite (s : State) (a : Ash) (v : Word) : State :=
  let x := takeLo s (.ash a) 0x3A0 ((s.ash a).srSeed.setWidth 32)
  if !contextWritable (s.ash a) then x.2.record (.ash a) evErrAccess 0
  else x.2.onAsh a fun u => { u with srSeed := v ++ x.1 }

def ashWrite (s : State) (a : Ash) (off : Nat) (v : Word) : State :=
  if 0x100 ≤ off ∧ off < 0x200 then joinerWrite s a off v
  else if 0x200 ≤ off ∧ off < 0x300 then windowWrite s a ((off - 0x200) / 16) (off % 16 / 4) v
  else if 0x300 ≤ off ∧ off < 0x380 then endpointWrite s a ((off - 0x300) / 16) (off % 16 / 4) v
  else if 0x400 ≤ off ∧ off < 0x700 then pegWrite s a ((off - 0x400) / 16) (off % 16 / 4) v
  else
    match off with
    | 0x44 => engineCtrlWrite s a v
    | 0x54 => contextWrite s a v
    | 0xC0 => if bit v 0 = bit v 1 then s else if bit v 0 then dbgRead s a else dbgWrite s a
    | 0x3A4 => seedWrite s a v
    | 0x714 => writePegSig s a v
    | _ => plainWrite s (.ash a) off v

/-! ### Die pages -/

/-- KEY.CTX_CMD (R187). DESIGN CHOICE (log 138): a write that sets RELEASE and RELEASE_RECT releases the context first, and
BUSY is looked at once. -/
def keyCmdWrite (s : State) (d : Nat) (v : Word) : State :=
  keyReleaseCmd s d fun t =>
    let t := plainWrite t (.key d) 0x64 v
    let t := if bit v 6 then keyRelease t d (bits v 0 6) else t
    if bit v 7 then keyReleaseRect t d (bits v 8 4) else t

/-- MOR's fences and the router accesses (R354, R360, R363). -/
def morWrite (s : State) (d off : Nat) (v : Word) : State :=
  if 0x80 ≤ off ∧ off < 0xC0 then fenceWrite s d ((off - 0x80) / 4) v
  else if off = 0x68 then raccStart s d v
  else plainWrite s (.mor d) off v

/-- SVC_CTRL (R432): EVACUATE, CANCEL and READMIT in that order. -/
def svcWrite (s : State) (d : Nat) (v : Word) : State :=
  let t := if bit v 0 then socketEvacuate s d else s
  let t := if bit v 1 then socketCancel t d else t
  if bit v 2 then socketReadmit t d else t

/-- Whether ETH.MODE names a combination of R502; WIDTH 0 is no logical port. -/
def modeLegal (width lrate fec : Nat) : Bool :=
  match lrate with
  | 0 => fec == 0 && (width == 0 || width == 3)
  | 1 => (fec == 0 && (width == 0 || width == 3)) || (fec == 1 && width != 2)
  | 2 => fec == 2
  | 3 => fec == 2
  | 4 => fec == 2
  | _ => false

/-- A write to ETH.MODE (R504). -/
def ethModeWrite (s : State) (d : Nat) (v : Word) : State :=
  if enabled s (.eth d) then s.record (.eth d) evErrAccess 0
  else if !modeLegal (bits v 0 2) (bits v 4 3) (bits v 8 2) then s.record (.eth d) evErrRange 0
  else plainWrite s (.eth d) 0x40 v

def ethWrite (s : State) (d off : Nat) (v : Word) : State :=
  match off with
  | 0x40 => ethModeWrite s d v
  | 0x58 => if bit v 5 then s.onEth d fun e => { e with punts := e.punts.drop 1 } else s
  | 0x68 => s.onEth d fun e => { e with mtx := tset e.mtx (s.fld (.eth d) 0x64 2 9) v }
  | 0x6C =>
    let t := plainWrite s (.eth d) 0x6C v
    if bit v 17 then mtxGo t d else t
  | _ => plainWrite s (.eth d) off v

/-- A write that ING takes only while ENABLE is 0 (R543). -/
def ingIdle (s : State) (d : Nat) (go : State) : State :=
  if enabled s (.ing d) then s.record (.ing d) evErrAccess 0 else go

/-- ING.CFG: FREE is set to NREC when CAP_EN goes from 0 to 1 (R522). -/
def ingCfgWrite (s : State) (d : Nat) (v : Word) : State :=
  let t := plainWrite s (.ing d) 0x40 v
  if bit v 8 && s.fld (.ing d) 0x40 8 1 == 0 then t.onIng d fun g => { g with capFree := s.fld (.ing d) 0xA8 0 24 } else t

/-- The route entry RT_SEL names (R518, R543). -/
def routeWrite (s : State) (d off : Nat) (v : Word) : State :=
  s.onIng d fun g =>
    let n := s.fld (.ing d) 0x80 0 4
    let r := g.route n
    settleGroups (g.setRoute n (
      if off = 0x8C then { r with
        attach := BitVec.ofNat 3 v.toNat, group := BitVec.ofNat 3 (bits v 4 3), member := BitVec.ofNat 2 (bits v 7 2)
        live := bit v 9 }
      else { r with entry := setEntryWord r.entry ((off - 0x84) / 4) v }))

/-- LK_CMD: INSERT, DELETE and READ in that order (R514, R543). -/
def lkCmdWrite (s : State) (d : Nat) (v : Word) : State :=
  let t := if bit v 0 then lkInsert s d else s
  let t := if bit v 1 then lkDelete t d else t
  if bit v 2 then lkRead t d else t

def ingWrite (s : State) (d off : Nat) (v : Word) : State :=
  let p := Page.ing d
  let grp := s.fld p 0x90 0 3
  match off with
  | 0x40 => ingCfgWrite s d v
  | 0x44 => ingIdle s d (plainWrite s p off v)
  | 0x48 => ingIdle s d (s.onIng d fun g => { g with prog := tset g.prog (s.fld p 0x44 0 8) v })
  | 0x4C => ingIdle s d (plainWrite s p off v)
  | 0x58 => s.onIng d fun g => { g with fmin := tset g.fmin (s.fld p 0x54 0 4) v }
  | 0x5C => s.onIng d fun g => { g with fmax := tset g.fmax (s.fld p 0x54 0 4) v }
  | 0x74 => lkCmdWrite s d v
  | 0x84 => routeWrite s d off v
  | 0x88 => routeWrite s d off v
  | 0x8C => routeWrite s d off v
  | 0x94 => s.onIng d fun g => g.setGroup grp { g.group grp with en := bit v 0, nflit := BitVec.ofNat 2 (bits v 1 2) }
  | 0x98 => s.onIng d fun g => g.setGroup grp { g.group grp with ovf := (g.group grp).ovf && !bit v 6 }
  | 0xC8 => ingIdle s d (s.onIng d fun g => { g with seq := v })
  | _ => plainWrite s p off v

def egrWrite (s : State) (d off : Nat) (v : Word) : State :=
  let p := Page.egr d
  let inp := s.fld p 0x40 0 3
  let t := s.fld p 0x70 0 6
  match off with
  | 0x44 => s.onEgr d fun g => g.setInput inp { g.input inp with
      valid := bit v 0, group := BitVec.ofNat 3 (bits v 1 3), member := BitVec.ofNat 2 (bits v 4 2)
      version := BitVec.ofNat 16 (bits v 16 16) }
  | 0x48 => s.onEgr d fun g => g.setInput inp { g.input inp with
      peer := BitVec.ofNat 17 v.toNat, pchan := BitVec.ofNat 4 (bits v 17 4), peerValid := bit v 21 }
  | 0x54 => grpModeWrite s d (s.fld p 0x50 0 3) v
  | 0x74 => tplD0Write s d t v
  | 0x78 => tplD1Write s d t v
  | 0x80 => tplPatchWrite s d t (s.fld p 0x7C 0 3) v
  | 0x88 => s.onEgr d fun g => { g with store := mwriteN g.store (4 * s.fld p 0x84 2 12) 4 v.toNat }
  | _ => plainWrite s p off v

def jhlWrite (s : State) (d k off : Nat) (v : Word) : State :=
  if off = 0x50 then
    let t := plainWrite s (.jhl d k) off v
    if bit v 30 then jhlRetrain t d k else t
  else if 0x84 ≤ off ∧ off ≤ 0x8C then tunnelWrite s d k ((off - 0x84) / 4) v
  else if off = 0x90 ∧ k ≠ 0 then s
  else if 0x94 ≤ off ∧ off ≤ 0xAC then (if k = 0 then redRegWrite s d ((off - 0x94) / 4) v else s)
  else plainWrite s (.jhl d k) off v

/-! ### Module pages -/

def masWrite (s : State) (off : Nat) (v : Word) : State :=
  match off with
  | 0x48 => ringCfgWrite s 0 v
  | 0x5C => ringCfgWrite s 1 v
  | 0x6C => ringCfgWrite s 2 v
  | 0x4C => hcqTailWrite s v
  | 0x60 => hcplHeadWrite s v
  | 0x70 => hevqHeadWrite s v
  | _ => plainWrite s .mas off v

def timWrite (s : State) (off : Nat) (v : Word) : State :=
  match off with
  | 0x4C => timSet s v
  | 0x5C => timAdj s v
  | _ => plainWrite s .tim off v

/-- The lowest power cap of the part (R651). -/
def capMin (part : Part) : Nat := if part.dies = 8 then 2000 else if part.dies = 4 then 1100 else 600

/-- PWR (R651, R652, R685): low caps are stored as the minimum, floors of absent dies are no registers. -/
def pwrWrite (s : State) (off : Nat) (v : Word) : State :=
  if off = 0x54 then
    let w := bits v 0 16
    plainWrite s .pwr off (setBits v 0 16 (if w = 0 then 0 else max w (capMin s.part)))
  else
    match dieRegister off 0x60 with
    | some d => if d < s.part.dies then plainWrite s .pwr off v else s
    | none => plainWrite s .pwr off v

/-- THM.WARN and THM.CRIT (R659, R688). -/
def thmWrite (s : State) (off : Nat) (v : Word) : State :=
  let d := bits v 0 7
  let ok := if off = 0x40 then decide (80 ≤ d) && decide (d ≤ 100) && decide (d < s.fld .thm 0x44 0 7)
    else decide (100 ≤ d) && decide (d ≤ 108) && decide (s.fld .thm 0x40 0 7 < d)
  if off = 0x40 ∨ off = 0x44 then (if ok then plainWrite s .thm off v else s.record .thm evErrRange 0)
  else plainWrite s .thm off v

/-- A word of an MSI-X table written: a pending vector that is no longer masked is signalled (R573). -/
def msixWrite (s : State) (k off : Nat) (v : Word) : State :=
  let w := if off % 16 = 12 then v &&& 1 else if off % 16 = 0 then v &&& 0xFFFFFFFC else v
  let t := s.setPci k { s.pci k with msix := tset (s.pci k).msix off w }
  let n := off / 16
  if off % 16 = 12 ∧ !bit v 0 ∧ (t.pci k).pba.getLsbD n then
    (t.setPci k { t.pci k with pba := (t.pci k).pba &&& ~~~((1 : DWord) <<< n) }).msi k n
  else t

/-- DQn_TAIL: a doorbell at or past the ring's size is ignored (R495, R579). -/
def dqTailWrite (s : State) (k q : Nat) (v : Word) : State :=
  if bits v 0 16 < (s.dq k q).size then s.setDq k q { s.dq k q with tail := BitVec.ofNat 16 v.toNat }
  else s.record (.pci k) evErrRange 0

/-- The HI half of DQ_BASE or DQ_CPL of the queue DMA_SEL names. -/
def dqPair (s : State) (k off : Nat) (v : Word) : State :=
  let q := s.fld (.pci k) 0x5C 0 4
  let x := s.dq k q
  if off = 0x60 then
    let l := takeLo s (.pci k) off (x.base.setWidth 32)
    l.2.setDq k q { x with base := v ++ l.1 }
  else
    let l := takeLo s (.pci k) off (x.cpl.setWidth 32)
    l.2.setDq k q { x with cpl := v ++ l.1 }

def pciWrite (s : State) (k off : Nat) (v : Word) : State :=
  if 0x800 ≤ off ∧ off < 0xC00 then msixWrite s k (off - 0x800) v
  else if 0x100 ≤ off ∧ off < 0x140 then dqTailWrite s k ((off - 0x100) / 4) v
  else
    match off with
    | 0x44 =>
      let t := plainWrite s (.pci k) off v
      if bit v 1 && t.mas.ready then moveHome t k else t
    | 0x50 => apHold s k off v
    | 0x54 => apHold s k off v
    | 0x58 => apEntryWrite s k v
    | 0x64 => dqPair s k 0x60 v
    | 0x6C => dqPair s k 0x68 v
    | 0x70 => dqCfgWrite s k (s.fld (.pci k) 0x5C 0 4) v
    | _ => plainWrite s (.pci k) off v

/-! ### A write -/

/-- A write to a register of a page, from 0x040 upward. -/
def blockWrite (s : State) (p : Page) (off : Nat) (v : Word) : State :=
  match p with
  | .ash a => ashWrite s a off v
  | .mor d => morWrite s d off v
  | .key d => if off = 0x64 then keyCmdWrite s d v else plainWrite s p off v
  | .plb d => if 0x44 ≤ off ∧ off ≤ 0x54 then slotWrite s d (s.fld p 0x40 0 6) off v else plainWrite s p off v
  | .dmc d => if off = 0x80 then svcWrite s d v else plainWrite s p off v
  | .hod d => if off = 0x54 then hodCmd s d v else plainWrite s p off v
  | .pln d c => if 0x44 ≤ off ∧ off ≤ 0x68 then plnDescWrite s d c off v else plainWrite s p off v
  | .eth d => ethWrite s d off v
  | .ing d => ingWrite s d off v
  | .egr d => egrWrite s d off v
  | .jhl d k => jhlWrite s d k off v
  | .cfgDie d => if off = 0x54 then courseCmd s d v else plainWrite s p off v
  | .mas => masWrite s off v
  | .tim => timWrite s off v
  | .pwr => pwrWrite s off v
  | .thm => thmWrite s off v
  | .pci k => pciWrite s k off v
  | _ => plainWrite s p off v

/-- The HI half of a writable pair: what the two halves make (R18). -/
def pairWrite (s : State) (p : Page) (lo : Nat) (v : Word) : State :=
  match p with
  | .ash _ => blockWrite s p (lo + 4) v
  | .tim => blockWrite s p (lo + 4) v
  | .pci _ => blockWrite s p (lo + 4) v
  | _ => plainPair s p lo v

/-- A register write (R15 to R18, R673, R680): no effect on an absent page; an ashlar in bypass records ERR_ACCESS. -/
def writeReg (s : State) (p : Page) (off : Nat) (v : Word) : State :=
  if !pageExists s.part p then s
  else if bypassed s p then s.record p evErrAccess 0
  else if off < 0x40 then headerWrite s p off v
  else if (writePairs p).contains off then holdLo s p off v
  else if (writePairs p).contains (off - 4) then pairWrite s p (off - 4) v
  else
    match perfBank p with
    | some (ctl, _) =>
      if off = ctl then (let t := plainWrite s p off v; if bit v 1 then perfClear t p else t)
      else if recordRegs p off ≠ [] then recordClear s p off v
      else blockWrite s p off v
    | none => if recordRegs p off ≠ [] then recordClear s p off v else blockWrite s p off v

end Sys2Proof.Machine
end

