-- ==== Sys2Proof/Machine/Verify.lean ====
section
/-! DEFINITION. What the Mason verifies before an image takes effect: the checks of R586, and the contents of a job image set
under R468, R471, R481, R597 to R602. -/

namespace Sys2Proof.Machine

/-! ### Checks 1 to 7 (R586) -/

/-- Checks 1 to 5: the event and the CAUSE code of the first that fails (R586, R614). -/
def checkHeader (s : State) (h : ImgHeader) (kind : Nat) (corner : Bool) : Option (Ev × Nat) :=
  if !h.formatOk then some (evImgFormat, 1)
  else if s.fuses.keys[ix 4 h.keyIdx.toNat (by decide)] ≠ some h.keyHash ∨ s.fuses.revoked.getLsbD h.keyIdx.toNat then
    some (evImgKey, 2)
  else if !h.sigOk then some (evImgSig, 3)
  else if h.svn < s.fuses.rollback ∧ !corner then some (evImgRollback, 4)
  else if h.kind ≠ kind ∨ !(h.target = s.part.target ∨ (kind = 3 ∧ h.target = 7)) then some (evImgTarget, 5)
  else none

/-- Checks 6 and 7 over the sections of an image. -/
def checkSections (h : ImgHeader) (l : List Section) : Option (Ev × Nat) :=
  if !(l.all fun x => x.crcOk && x.digestOk) then some (evImgDigest, 6)
  else if h.enc && !(l.all fun x => x.decryptOk) then some (evImgDecrypt, 7)
  else none

/-! ### Configuration frames (R600) -/

/-- A configuration frame. -/
structure CfgFrame where
  space : Nat
  cls : Nat
  start : Nat
  words : List DWord
  deriving DecidableEq, Repr

/-- Bits of an image word. -/
def dbits (w : DWord) (lo n : Nat) : Nat := w.toNat / 2 ^ lo % 2 ^ n

/-- The frames of a run, and what is left of it where the last frame exceeds it or has no payload. -/
def runFrames : Nat → List DWord → List CfgFrame × List DWord
  | 0, l => ([], l)
  | fuel + 1, l =>
    match l with
    | [] => ([], [])
    | h :: r =>
      let n := dbits h 18 13
      if n = 0 ∨ r.length < n then ([], l)
      else
        let x := runFrames fuel (r.drop n)
        (⟨dbits h 0 3, dbits h 3 2, dbits h 5 13, r.take n⟩ :: x.1, x.2)

def framesOf (l : List DWord) : List CfgFrame × List DWord := runFrames l.length l

/-! ### Check 8 (R468, R469, R471, R481, R601, R602) -/

/-- Whether a bay image may write a value at an ASH page offset (R602). -/
def imageWritable (off v : Nat) : Bool :=
  off % 4 == 0 &&
  (off == 0x50 || (decide (0x200 ≤ off) && decide (off < 0x300))
    || (decide (0x300 ≤ off) && decide (off < 0x380) && (off % 16 == 0 || off % 16 == 8))
    || off == 0x3A8 || (decide (0x400 ≤ off) && decide (off < 0x700) && off % 16 == 0)
    || off == 0x700 || off == 0x70C || off == 0x710 || off == 0x10C || (off == 0x100 && v % 8 == 0)
    || (decide (0x120 ≤ off) && decide (off < 0x130)))

/-- Whether the reserved bits of a frame are 0: of its header, and of the payload of SPACE 3 and SPACE 4 (R600). -/
def frameClean (h : DWord) (body : List DWord) : Bool :=
  dbits h 31 33 == 0 &&
  (match dbits h 0 3 with
   | 3 => dbits h 5 13 == 0 && body.all fun w => dbits w 44 20 == 0
   | 4 => dbits h 5 13 == 0 && body.all fun w => dbits w 40 24 == 0
   | _ => true)

/-- Whether the reserved bits of every frame of a run are 0. -/
def runClean : Nat → List DWord → Bool
  | 0, _ => true
  | fuel + 1, l =>
    match l with
    | [] => true
    | h :: r =>
      let n := dbits h 18 13
      frameClean h (r.take n) && (n == 0 || runClean fuel (r.drop n))

/-- Whether what a bay image lists keeps its reserved bits 0 (R470, R600, R601). -/
def bayClean (b : BayImage) : Bool :=
  (b.runs.all fun r => runClean r.words.length r.words) && b.relocs.all fun r => dbits r 56 8 == 0

/-- Whether a frame stays inside its space and writes only what an image may write. -/
def frameOk (f : CfgFrame) : Bool :=
  decide (f.words.length ≤ 6144) &&
  match f.space with
  | 0 => decide (f.start + f.words.length ≤ 6144) && f.cls != 3
  | 1 => decide (f.start + f.words.length ≤ 512)
  | 2 => decide (f.start + f.words.length ≤ 1024)
  | 3 => f.words.all fun w => imageWritable (dbits w 32 12) (dbits w 0 32)
  | 4 => f.words.all fun w => decide (dbits w 32 8 < 0x40)
  | _ => false

/-- Whether a run's frames fill it and are each legal. -/
def runOk (r : AshRun) : Bool :=
  let x := framesOf r.words
  x.2.isEmpty && x.1.all frameOk

/-- Bytes of a run, eight a word. -/
def runBytes (ws : List DWord) : List Byte := ws.flatMap fun w => toLe w.toNat 8

/-- Word 0 of the outbound entries that a run configures, each as written last. -/
def runEntries (ws : List DWord) : List (Nat × Word) :=
  let w4 := (framesOf ws).1.flatMap fun f => if f.space = 4 then f.words else []
  (List.range 16).filterMap fun k =>
    ((w4.filter fun w => dbits w 32 8 == 4 * k).getLast?).map fun w => (k, BitVec.ofNat 32 (dbits w 0 32))

/-- The class rule of R468: class T configures no outbound channel on VC0 or VC1, class S none on VC2. -/
def classOk (clsT : Bool) (b : BayImage) : Bool :=
  b.runs.all fun r => (runEntries r.words).all fun e => !bit e.2 0 || (if clsT then bits e.2 4 2 == 2 else bits e.2 4 2 != 2)

/-- The longest task of a class T bay within PREEMPT_LIMIT microseconds at the grade's fclk (R481, R501). -/
def longestOk (s : State) (clsT : Bool) (b : BayImage) : Bool :=
  !clsT || decide (b.longest ≤ max 100 (s.fld .mas 0x7C 0 24) * s.part.nominalMHz)

/-- A relocation record's SYM as what it names: the own bay, another bay by its index, or a block code. -/
inductive Sym where
  | own
  | bay (i : Nat)
  | block (code : Nat)
  | bad
  deriving DecidableEq, Repr

def symOf (nbay sym : Nat) : Sym :=
  if sym = 0 then .own
  else if sym ≤ 239 then (if sym ≤ nbay then .bay (sym - 1) else .bad)
  else if sym ≤ 0xF9 then .block (sym - 0xF0)
  else .bad

/-- Whether a relocation record meets R471. -/
def relocOk (nbay : Nat) (b : BayImage) (r : DWord) : Bool :=
  let form := dbits r 4 2
  let site := dbits r 20 11
  decide (dbits r 6 7 < b.w) && decide (dbits r 13 7 < b.h) && symOf nbay (dbits r 31 8) != .bad
    && (match dbits r 0 4 with
        | 1 => form == 1 || form == 2
        | 2 => (form == 0 || form == 3) && decide (site < 1024)
        | 3 => form == 3 && decide (site < 16)
        | 4 => form == 3 && decide (site < 8)
        | 5 => form == 0 && decide (site < 64)
        | _ => false)

/-- Whether what SYM, TX and TY name can lie on a bay's own die: an offset from its own origin leaves no die, another bay has
no other port, a block of R470 is on the bay's die. Bays without a port are told apart when they are placed (R474). -/
def staysOnDie (j : JobImage) (b : BayImage) (sym tx ty : Nat) : Bool :=
  match symOf j.bays.length sym with
  | .own => decide (tx < 128) && decide (ty < 96)
  | .bay i => (match j.bays[i]? with
      | some c => (b.port == 0xFF || c.port == 0xFF || c.port == b.port) && decide (tx < 128) && decide (ty < 96)
      | none => false)
  | .block _ => true
  | .bad => false

/-- Whether a timed route's limit admits its planned D, and it stays on its die (R469, R601). -/
def routeOk (j : JobImage) (b : BayImage) (r : Route) : Bool :=
  !r.timed || (decide (r.d + 2 ≤ r.dmax) && staysOnDie j b r.sym r.tx r.ty)

/-- The VALID outbound entries on VC0 that a bay configures: the ashlar relative to the origin, word 0, and the relocation
record that rewrites it, if one does (R470). -/
def vc0Entries (b : BayImage) : List ((Nat × Nat) × Word × Option DWord) :=
  b.runs.flatMap fun r => (runEntries r.words).filterMap fun e =>
    if bit e.2 0 ∧ bits e.2 4 2 = 0 then
      some ((r.xr, r.yr), e.2, b.relocs.find? fun x =>
        dbits x 0 4 == 3 && dbits x 6 7 == r.xr && dbits x 13 7 == r.yr && dbits x 20 11 == e.1)
    else none

/-- Destinations of the VC0 entries that no relocation record rewrites. -/
def fixedVc0 (b : BayImage) : List Dest :=
  (vc0Entries b).filterMap fun e => if e.2.2.isNone then some (BitVec.ofNat 17 (bits e.2.1 14 17)) else none

/-- Whether no VC0 entry of a bay leads off its die, with or without a route record (R28, R318): where the die is not known
yet, `spotOk` sees to it. -/
def vc0Ok (s : State) (j : JobImage) (b : BayImage) : Bool :=
  ((vc0Entries b).all fun e => match e.2.2 with
    | some x => staysOnDie j b (dbits x 31 8) (dbits x 39 9) (dbits x 48 8)
    | none => true)
  && (decide (s.part.dies ≤ b.port) || (fixedVc0 b).all fun d => destDie s.part d == b.port)

/-- Whether W, H, MEMBERS and NRUN are in range (R597). -/
def sizeOk (b : BayImage) : Bool :=
  b.w % 8 == 0 && decide (8 ≤ b.w) && decide (b.w ≤ 128) && b.h % 8 == 0 && decide (8 ≤ b.h) && decide (b.h ≤ 96)
    && decide (1 ≤ b.members) && decide (b.members ≤ 3) && decide (b.runs.length ≤ b.w * b.h)

/-- Whether the runs lie in the rectangle, each ashlar named once, none above 65,536 bytes. -/
def runsPlaced (b : BayImage) : Bool :=
  (b.runs.all fun r => decide (r.xr < b.w) && decide (r.yr < b.h) && decide (r.words.length ≤ 8192))
    && decide ((b.runs.map fun r => (r.xr, r.yr)).Nodup)

/-- Whether the job header's counts and places are in range (R596). -/
def jobHeaderOk (s : State) (j : JobImage) : Bool :=
  j.headerOk && decide (1 ≤ j.bays.length) && decide (j.bays.length ≤ 239) && decide (j.priority < 8)
    && (j.planes.all fun x => decide (x.1 < 64) && x.2.length == 10) && decide (j.planes.length ≤ 64)
    && (j.reds.all fun x => decide (x.1 < s.part.dies) && decide (x.2.1 < 16) && x.2.2.length == 6)
    && decide ((j.tensors.map fun t => t.handle).Nodup)
    && j.tensors.all fun t => decide (1 ≤ dbits t.word 40 2) && decide (dbits t.word 40 2 ≤ dbits t.word 42 2)

/-- Check 8: the contents of a job image set, in the order of R601's table. -/
def checkJob (s : State) (j : JobImage) : Option (Ev × Nat) :=
  let n := j.bays.length
  if !(jobHeaderOk s j && j.bays.all fun b => b.formatOk && bayClean b) then some (evImgFormat, 1)
  else if !(j.bays.all fun b => sizeOk b && runsPlaced b && b.runs.all runOk) then some (evCfgRange, 1)
  else if !(j.bays.all fun b => b.routes.all (routeOk j b) && vc0Ok s j b) then some (evCfgRoute, 1)
  else if !(j.bays.all fun b => b.relocs.all (relocOk n b)) then some (evImgReloc, 1)
  else if !(j.bays.all fun b => classOk j.clsT b && longestOk s j.clsT b) then some (evImgClass, 1)
  else if !(j.bays.all fun b => b.runs.all fun r => crc32 (runBytes r.words) == r.rcrc) then some (evImgDigest, 6)
  else none

/-! ### TD1 images (R171, R588)

DESIGN CHOICE (log 181): an image does not list its engine instructions. The MMA and MWLOAD instructions of an image are
taken to be the places of data memory at a multiple of 16 bytes (R111) whose words, as the run leaves them, have the form
that R58 and R153 give the header and the ranges of one. -/

/-- 64-bit word w of data memory as the frames of a run leave it, where they write it (R600). -/
def runDmem (fs : List CfgFrame) (w : Nat) : Option Nat :=
  ((fs.filter fun f => f.space == 1 && decide (f.start ≤ w) && decide (w < f.start + f.words.length)).getLast?).bind
    fun f => (f.words[w - f.start]?).map fun d => d.toNat

/-- Whether the 16 bytes from 64-bit word 2k on begin an MMA or an MWLOAD (R58, R111, R153). -/
def matrixAt (fs : List CfgFrame) (k : Nat) : Bool :=
  match runDmem fs (2 * k), runDmem fs (2 * k + 1), runDmem fs (2 * k + 2), runDmem fs (2 * k + 3) with
  | some a, some b, some c, some _ =>
    let h := BitVec.ofNat 32 (a % 2 ^ 32)
    bits h 30 2 == 0 && (bits h 24 6 == 1 || bits h 24 6 == 2) && bits h 20 4 == 10 && bits h 0 4 == 0
      && bits h 18 2 != 3 && bits h 10 2 != 3 && b / 2 ^ 32 % 4 == 0 && c % 4 == 0 && c / 2 ^ 32 % 4 == 0
      && decide (2 * k + 8 ≤ 512)
  | _, _, _, _ => false

/-- The handle in the SLOAD that the 16 bytes from 64-bit word 2k on begin, where they begin one (R58, R111, R280). -/
def sloadHandle (fs : List CfgFrame) (k : Nat) : Option Nat :=
  match runDmem fs (2 * k), runDmem fs (2 * k + 3) with
  | some a, some d =>
    let h := BitVec.ofNat 32 (a % 2 ^ 32)
    if bits h 30 2 = 2 ∧ bits h 24 6 = 1 ∧ bits h 20 4 = 10 ∧ 2 * k + 8 ≤ 512 then some (d / 2 ^ 32 % 2 ^ 20) else none
  | _, _ => none

/-- Whether a bay image reads a tensor: some SLOAD of it names the handle (R479; DESIGN CHOICE, log 181). -/
def bayReads (b : BayImage) (handle : Nat) : Bool :=
  b.runs.any fun r =>
    let fs := (framesOf r.words).1
    (List.range 253).any fun k => sloadHandle fs k == some handle

/-- Whether some matrix instruction of a run sets BUCKET, bit 18 of its word 6 (R154). -/
def runBucket (r : AshRun) : Bool :=
  let fs := (framesOf r.words).1
  (List.range 253).any fun k => matrixAt fs k && ((runDmem fs (2 * k + 3)).getD 0).testBit 18

/-- A payload word of data memory with BUCKET set where it holds word 6 of a matrix instruction. -/
def bucketWord (fs : List CfgFrame) (w : Nat) (d : DWord) : DWord :=
  if w % 2 = 1 ∧ 3 ≤ w ∧ matrixAt fs ((w - 3) / 2) then d ||| 0x40000 else d

/-- The words of a run with BUCKET set in every matrix instruction: headers stand, payloads follow. -/
def bucketWords (fs : List CfgFrame) : Nat → List DWord → List DWord
  | 0, l => l
  | fuel + 1, l =>
    match l with
    | [] => []
    | h :: r =>
      let n := dbits h 18 13
      if n = 0 ∨ r.length < n then l
      else
        let body := (r.take n).zipIdx.map fun q =>
          if dbits h 0 3 = 1 then bucketWord fs (dbits h 5 13 + q.2) q.1 else q.1
        h :: body ++ bucketWords fs fuel (r.drop n)

def bucketRun (r : AshRun) : AshRun :=
  let ws := bucketWords (framesOf r.words).1 r.words.length r.words
  { r with words := ws, rcrc := crc32 (runBytes ws) }

/-- An image set as the loader takes it on: with BUCKET in every matrix instruction of a TD1 image (R171). -/
def loaderImage (j : JobImage) : JobImage :=
  if j.hdr.td1 then { j with bays := j.bays.map fun b => { b with runs := b.runs.map bucketRun } } else j

/-- The first check that a job image set fails (R586); a TD8 image that sets BUCKET is refused last (R171). -/
def verifyJob (s : State) (j : JobImage) : Option (Ev × Nat) :=
  match checkHeader s j.hdr 2 false with
  | some e => some e
  | none =>
    match checkSections j.hdr (j.sec :: (j.bays.map fun b => b.sec) ++ j.inits.map fun i => i.sec) with
    | some e => some e
    | none =>
      match checkJob s j with
      | some e => some e
      | none => if !j.hdr.td1 && j.bays.any fun b => b.runs.any runBucket then some (evImgTarget, 5) else none

def verifyFirmware (s : State) (f : FirmwareImage) : Option (Ev × Nat) :=
  match checkHeader s f.hdr 3 false with
  | some e => some e
  | none => checkSections f.hdr [f.sec]

/-- A fabric image as a flash write verifies it: every check over every section (R607). -/
def verifyFabric (s : State) (f : FabricImage) (corner : Bool) : Option (Ev × Nat) :=
  match checkHeader s f.hdr 1 corner with
  | some e => some e
  | none => checkSections f.hdr (f.secs.map fun x => x.sec)

end Sys2Proof.Machine
end

