-- ==== Sys2Proof/Machine/Container.lean ====
section
/-! DEFINITION. The image container byte by byte (R583 to R587, R592), and the contents of its sections (R596 to R599): from the
bytes of an image to the form that the checks and the loader work on. -/

namespace Sys2Proof.Machine

/-! ### Fields of bytes -/

/-- n bytes from an offset on, as far as there are any. -/
def bytesAt (b : List Byte) (off n : Nat) : List Byte := (b.drop off).take n

/-- The little-endian field of n bytes at an offset. -/
def fieldAt (b : List Byte) (off n : Nat) : Nat := leBytes (bytesAt b off n)

/-- Whether n bytes from an offset on are 0. -/
def zerosAt (b : List Byte) (off n : Nat) : Bool := (bytesAt b off n).all fun x => x == 0

/-- Bytes as 64-bit words, the last one filled with zeros. -/
def wordsOf (b : List Byte) : List DWord := (List.range ((b.length + 7) / 8)).map fun k => BitVec.ofNat 64 (fieldAt b (8 * k) 8)

/-! ### Header and section table (R583, R584) -/

/-- An entry of the section table, but for its reserved bytes. -/
structure SectEntry where
  off : Nat
  slen : Nat
  type : Nat
  index : Nat
  crc : Nat
  digest : Nat
  spareOk : Bool
  deriving DecidableEq, Repr

def sectEntry (b : List Byte) (k : Nat) : SectEntry :=
  let e := bytesAt b (256 + 80 * k) 80
  ⟨fieldAt e 0 8, fieldAt e 8 8, fieldAt e 16 2, fieldAt e 18 2, fieldAt e 20 4, fieldAt e 24 48, zerosAt e 72 8⟩

/-- The section table; NSECT above 1,024 fails check 1 whatever the table holds. -/
def sectTable (b : List Byte) : List SectEntry := (List.range (min 1024 (fieldAt b 14 2))).map (sectEntry b)

/-- Where the key block starts. -/
def keyBlock (b : List Byte) : Nat := 256 + 80 * fieldAt b 14 2

/-- The next multiple of 4,096. -/
def pageUp (n : Nat) : Nat := (n + 4095) / 4096 * 4096

/-- Whether each section starts at the next multiple of 4,096 bytes after what stands before it, which keeps any two apart. -/
def sectsPlaced (len : Nat) : Nat → List SectEntry → Bool
  | _, [] => true
  | after, e :: r => e.off == pageUp after && decide (e.off + e.slen ≤ len) && sectsPlaced len (e.off + e.slen) r

/-- Whether a section's TYPE belongs to the image's KIND, its length and INDEX to its TYPE (R584, R592). -/
def sectTypeOk (kind : Nat) (e : SectEntry) : Bool :=
  match e.type with
  | 0x01 => kind == 1 && decide (e.slen ≤ 7 * 2 ^ 20)
  | 0x02 => kind == 3 && decide (e.slen ≤ 31 * 2 ^ 20) && e.index == 0
  | 0x10 => kind == 2 && e.index == 0
  | 0x11 => kind == 2
  | 0x12 => kind == 2
  | _ => false

/-- Check 1 of R586. -/
def containerOk (b : List Byte) : Bool :=
  let kind := fieldAt b 6 1
  let n := fieldAt b 14 2
  let len := fieldAt b 16 8
  let t := sectTable b
  fieldAt b 0 4 == 0x4A445A43 && fieldAt b 4 2 == 1 && decide (1 ≤ kind) && decide (kind ≤ 3)
    && decide (fieldAt b 7 1 < 8) && decide (fieldAt b 8 4 ≤ 64) && decide (fieldAt b 12 1 < 4) && decide (fieldAt b 13 1 < 8)
    && decide (1 ≤ n) && decide (n ≤ 1024) && decide (len ≤ b.length) && zerosAt b 40 216
    && decide (keyBlock b + 256 ≤ len) && zerosAt b (keyBlock b + 97) 15 && zerosAt b (keyBlock b + 208) 48
    && t.all (fun e => e.spareOk && sectTypeOk kind e) && sectsPlaced len (keyBlock b + 256) t
    && (kind != 2 || (t.filter fun e => e.type == 0x10).length == 1)

/-- The header with what its key block gives (R583, R585): the hash of the public key, and whether the signature over header and
section table is valid. -/
def imageHeader (b : List Byte) : ImgHeader :=
  let flags := BitVec.ofNat 8 (fieldAt b 13 1)
  let key := bytesAt b (keyBlock b) 256
  { formatOk := containerOk b
    kind := fieldAt b 6 1
    target := fieldAt b 7 1 % 8
    svn := fieldAt b 8 4
    keyIdx := BitVec.ofNat 2 (fieldAt b 12 1)
    keyHash := Config.sha384 (key.take 97)
    sigOk := Config.signatureOk (key.take 97) (bytesAt key 112 48) (bytesAt key 160 48) (b.take (keyBlock b))
    enc := flags.getLsbD 0
    td1 := flags.getLsbD 1
    advance := flags.getLsbD 2
    buildId := BitVec.ofNat 64 (fieldAt b 24 8) }

/-! ### Sections (R584, R587) -/

/-- The stored bytes of a section. -/
def storedBytes (b : List Byte) (e : SectEntry) : List Byte := bytesAt b e.off e.slen

/-- A section's contents: its stored bytes, decrypted under ENC with NONCE and the section's index; none where the tag fails. -/
def plainBytes (b : List Byte) (k : Nat) (e : SectEntry) : Option (List Byte) :=
  if (fieldAt b 13 1) % 2 = 1 then Config.decrypt (BitVec.ofNat 64 (fieldAt b 32 8)) k (storedBytes b e) else some (storedBytes b e)

/-- What checks 6 and 7 find of a section. -/
def sectChecks (b : List Byte) (k : Nat) (e : SectEntry) : Section :=
  let x := storedBytes b e
  ⟨(crc32 x).toNat == e.crc, (Config.sha384 x).toNat == e.digest, (plainBytes b k e).isSome⟩

/-- The sections of a TYPE: INDEX, checks and contents, in table order. -/
def sectionsOf (b : List Byte) (type : Nat) : List (Nat × Section × List Byte) :=
  ((sectTable b).zipIdx.filter fun q => q.1.type == type).map fun q =>
    (q.1.index, sectChecks b q.2 q.1, (plainBytes b q.2 q.1).getD [])

/-! ### Fabric images and firmware (R591, R592) -/

def fabricImage (b : List Byte) : FabricImage :=
  ⟨imageHeader b, (sectionsOf b 0x01).map fun x => ⟨x.1, x.2.1, x.2.2, Config.dieWrites x.2.2⟩⟩

def firmwareImage (b : List Byte) : FirmwareImage :=
  ⟨imageHeader b, ((sectionsOf b 0x02).head?.map fun x => x.2.1).getD ⟨false, false, false⟩⟩

/-! ### Bay images (R597 to R599) -/

/-- Entries of a table, n bytes each, as far as the section holds them. -/
def tableOf (p : List Byte) (off count n : Nat) : List (List Byte) :=
  (List.range (min count ((p.length - off) / n))).map fun k => bytesAt p (off + n * k) n

def routeOf (e : List Byte) : Route where
  timed := fieldAt e 0 1 == 0
  sxr := fieldAt e 1 1
  syr := fieldAt e 2 1
  entry := fieldAt e 3 1
  sym := fieldAt e 4 1
  tx := fieldAt e 6 1 + 256 * (fieldAt e 7 1 % 2)
  ty := fieldAt e 5 1
  d := fieldAt e 8 2
  dmax := fieldAt e 10 2

/-- Whether a route entry keeps to its fields (R598): KIND, source in the bay, ENTRY, and its reserved bits. -/
def routeFieldsOk (w h : Nat) (e : List Byte) : Bool :=
  decide (fieldAt e 0 1 < 2) && decide (fieldAt e 1 1 < w) && decide (fieldAt e 2 1 < h) && decide (fieldAt e 3 1 < 16)
    && decide (fieldAt e 7 1 < 2) && zerosAt e 12 4

/-- A run with its words, one beyond 65,536 bytes at most. -/
def runOf (p e : List Byte) : AshRun where
  xr := fieldAt e 0 1
  yr := fieldAt e 1 1
  words := wordsOf (bytesAt p (fieldAt e 4 4) (min (fieldAt e 8 4) 65544))
  rcrc := BitVec.ofNat 32 (fieldAt e 12 4)

/-- Whether a run entry's offset and length lie in the section at multiples of 8, its reserved bytes 0 (R599). -/
def runFieldsOk (len : Nat) (e : List Byte) : Bool :=
  zerosAt e 2 2 && fieldAt e 4 4 % 8 == 0 && fieldAt e 8 4 % 8 == 0 && decide (fieldAt e 4 4 + fieldAt e 8 4 ≤ len)

/-- Whether the counts, offsets and reserved bytes of a bay image are in order (R597, R601). -/
def bayFormatOk (p : List Byte) : Bool :=
  let f := fun (off n : Nat) => fieldAt p off n
  let len := p.length
  decide (64 ≤ len) && zerosAt p 7 1 && zerosAt p 52 12 && decide (f 6 1 < 8) && (decide (f 5 1 < 8) || f 5 1 == 0xFF)
    && decide (f 32 4 + 16 * f 20 4 ≤ len) && decide (f 36 4 + 8 * f 24 4 ≤ len) && decide (f 40 4 + 16 * f 28 4 ≤ len)
    && decide (f 44 4 + f 48 4 ≤ len)
    && (tableOf p (f 32 4) (f 20 4) 16).all (routeFieldsOk (f 0 2) (f 2 2))
    && (tableOf p (f 40 4) (f 28 4) 16).all (runFieldsOk len)

def bayImage (sec : Section) (p : List Byte) : BayImage where
  sec := sec
  formatOk := bayFormatOk p
  w := fieldAt p 0 2
  h := fieldAt p 2 2
  members := fieldAt p 4 1
  port := fieldAt p 5 1
  group := fieldAt p 6 1
  ii := fieldAt p 8 4
  longest := fieldAt p 12 4
  nslot := fieldAt p 16 4
  routes := (tableOf p (fieldAt p 32 4) (fieldAt p 20 4) 16).map routeOf
  relocs := (tableOf p (fieldAt p 36 4) (fieldAt p 24 4) 8).map fun e => BitVec.ofNat 64 (fieldAt e 0 8)
  runs := (tableOf p (fieldAt p 40 4) (fieldAt p 28 4) 16).map (runOf p)
  template := bytesAt p (fieldAt p 44 4) (fieldAt p 48 4)

/-! ### Job image sets (R592, R596)

DESIGN CHOICE (log 214): R596 lists the reduction contexts and the Plane descriptors without indices, and NRED for each die: the
model takes NRED contexts of 24 bytes for each die in turn, then NPLANE descriptors of 40 bytes, each with its place as index. -/

/-- Dies of the part that TARGET names (R583). -/
def targetDies (target : Nat) : Nat :=
  match target with
  | 2 => 4
  | 3 => 2
  | _ => 8

/-- 32-bit words of an entry. -/
def halvesOf (e : List Byte) (n : Nat) : List Word := (List.range n).map fun k => BitVec.ofNat 32 (fieldAt e (4 * k) 4)

/-- The job image set that bytes hold, with the module list of the command (R562). -/
def jobImage (b : List Byte) (modules : List DWord) : JobImage :=
  let hdr := imageHeader b
  let head := (sectionsOf b 0x10).head?
  let p := (head.map fun x => x.2.2).getD []
  let nbay := fieldAt p 2 2
  let nten := fieldAt p 4 4
  let nplane := fieldAt p 8 2
  let nred := fieldAt p 10 2
  let dies := targetDies hdr.target
  let redAt := 64 + 16 * nten
  let planeAt := redAt + 24 * nred * dies
  let bays := sectionsOf b 0x11
  let listed := (List.range (min nbay 240)).filterMap fun i => bays.find? fun x => x.1 == i
  { hdr := hdr
    sec := (head.map fun x => x.2.1).getD ⟨false, false, false⟩
    headerOk := decide (fieldAt p 0 1 < 2) && decide (nplane ≤ 64) && decide (nred ≤ 16) && zerosAt p 12 52
      && decide (planeAt + 40 * nplane ≤ p.length) && decide (64 ≤ p.length)
      && listed.length == nbay && bays.length == nbay
    clsT := fieldAt p 0 1 == 1
    priority := fieldAt p 1 1
    tensors := (tableOf p 64 nten 16).map fun e => ⟨BitVec.ofNat 20 (fieldAt e 8 4), BitVec.ofNat 64 (fieldAt e 0 8)⟩
    planes := (tableOf p planeAt (min nplane 64) 40).zipIdx.map fun q => (q.2, halvesOf q.1 10)
    reds := (tableOf p redAt (min nred 16 * dies) 24).zipIdx.map fun q => (q.2 / nred, q.2 % nred, halvesOf q.1 6)
    bays := listed.map fun x => bayImage x.2.1 x.2.2
    inits := (sectionsOf b 0x12).map fun x => ⟨x.2.1, BitVec.ofNat 16 x.1, wordsOf x.2.2⟩
    modules := modules }

end Sys2Proof.Machine
end

