-- ==== Sys2Proof/Machine/Place.lean ====
section
/-! DEFINITION. Where the Mason puts a job: frames and tables of its tensors (R402, R479), rectangles of its bays (R474 to
R477), the runs it stages (R604). -/

namespace Sys2Proof.Machine

/-! ### Frames of the Mason's own (R402, R604) -/

/-- Dies in ascending number of lintels from a die, then in ascending index (R479). -/
def dieOrder (part : Part) (pref : Nat) : List Nat :=
  let w := part.dieCols
  let gap := fun (a b : Nat) => (a - b) + (b - a)
  let dist := fun d => gap (d % w) (pref % w) + gap (d / w) (pref / w)
  (List.range 6).flatMap fun n => (List.range part.dies).filter fun d => dist d == n

/-- The words of a frame all 0. -/
def wipeFrame (s : State) (die tier f : Nat) : State :=
  let d := s.die die
  let lo := 9 * (f * 2 ^ 18)
  let kept := (d.tiers[tierIx tier]).filter fun c => decide (c.1 < lo) || decide (lo + 9 * 2 ^ 18 ≤ c.1)
  s.setDie die { d with tiers := d.tiers.set (tierIx tier) kept }

/-- A T1 frame of a die reserved for the Mason, its words 0. -/
def reserveOn (s : State) (die : Nat) : Option (Word × State) :=
  (firstFree s die 1).map fun f =>
    (mkFd 1 die f (s.frame die 1 f).gen.toNat, (wipeFrame s die 1 f).onFrame die 1 f fun x => { x with use := .reserved })

/-- A T1 frame reserved, on the preferred die where it has room. -/
def reserveFrame (s : State) (pref : Nat) : Option (Word × State) :=
  (dieOrder s.part pref).findSome? fun d => reserveOn s d

/-- A 32-bit value written in a frame of the Mason's. -/
def putHalf (s : State) (fd : Word) (byte : Nat) (v : Word) : State := s.tierHalf fd byte v .request

/-- The job directory's frame (R402, R434). -/
def directory (s : State) : Word := s.reg (.hod 0) 0x4C

/-! ### Tensors (R402, R479) -/

/-- Frames of a tier of a die that the Hod keeps free (R434). -/
def reserveOf (s : State) (die tier : Nat) : Nat := s.fld (.hod die) 0x40 16 6 * frameCount s die tier / 64

/-- The tier and die of one more segment of a tensor: its tier where there is one, else the fastest with free frames beyond
RESERVE; dies in order of distance, or the pinned one (R479). -/
def segmentPlace (s : State) (pref tmin tmax : Nat) (pin : Option Nat) : Option (Nat × Nat) :=
  let dies := match pin with
    | some d => [d]
    | none => dieOrder s.part pref
  ((List.range 3).filter fun k => decide (tmin ≤ k + 1) && decide (k + 1 ≤ tmax)).findSome? fun k =>
    (dies.find? fun d => decide ((if tmin = tmax then 0 else reserveOf s d (k + 1)) < freeFrames s d (k + 1))).map fun d =>
      (k + 1, d)

/-- Segments of a tensor placed and listed. -/
def placeSegments (pref tmin tmax : Nat) (pin : Option Nat) (id : Half) (handle : BitVec 20) (list : Word) :
    Nat → Nat → State → Option State
  | 0, _, s => some s
  | n + 1, k, s =>
    match segmentPlace s pref tmin tmax pin with
    | none => none
    | some (tier, die) =>
      match firstFree s die tier with
      | none => none
      | some f =>
        let fd := mkFd tier die f (s.frame die tier f).gen.toNat
        let t := s.onFrame die tier f fun x => { x with use := .seg id handle k, heat0 := 0, heat1 := 0 }
        placeSegments pref tmin tmax pin id handle list n (k + 1) ((putHalf t list (4 * k) fd).forget id handle k)

/-- TSEGk of a job, made where it is not there yet. -/
def tableFrame (s : State) (pref : Nat) (id : Half) (k : Nat) : Option (Word × State) :=
  match s.tableSegment 0 id k with
  | .found fd =>
    if fdTier fd ≠ 0 then some (fd, s)
    else
      (reserveFrame s pref).map fun x =>
        let t := putHalf x.2 (directory s) (32 * id.toNat + 4 * k) x.1
        (x.1, t.onJob id fun j => { j with frames := x.1 :: j.frames })
  | _ => none

/-- A tensor of a job placed, with its entry and its segment list. -/
def placeTensor (s : State) (pref : Nat) (id : Half) (e : TensorEntry) : Option State :=
  let w := e.word
  let pin := if dbits w 44 1 = 1 then some (dbits w 45 3) else none
  match tableFrame s pref id (e.handle.toNat / 131072) with
  | none => none
  | some (table, s1) =>
    match reserveFrame s1 pref with
    | none => none
    | some (list, s2) =>
      let at' := 16 * (e.handle.toNat % 131072)
      let t := s2.tierStore (fdDie table) (fdTier table) (fdFrame table) (at' / 8) (dbits w 0 48 + 2 ^ 63)
      let t := (putHalf t table (at' + 8) list).onJob id fun j => { j with frames := list :: j.frames }
      placeSegments pref (dbits w 40 2) (dbits w 42 2) pin id e.handle list ((dbits w 0 40 + 2 ^ 21 - 1) / 2 ^ 21) 0 t

/-- Every tensor of a job placed from its own preferred die; TSEG0 stands in any case, for it makes the job valid. -/
def placeTensors (s : State) (home : Nat) (pref : TensorEntry → Nat) (id : Half) (l : List TensorEntry) : Option State :=
  match tableFrame s home id 0 with
  | none => none
  | some (_, t) => l.foldl (fun r e => r.bind fun u => placeTensor u (pref e) id e) (some t)

/-- Initial contents of a tensor written (R592). -/
def initTensor (s : State) (id : Half) (i : TensorInit) : State :=
  (List.range ((i.words.length + 2 ^ 18 - 1) / 2 ^ 18)).foldl (fun t k =>
    match t.walk 0 id (i.handle.zeroExtend 20) k with
    | .found fd => t.tierWrite (fdDie fd) (fdTier fd) (fdFrame fd) 0 ((i.words.drop (k * 2 ^ 18)).take (2 ^ 18)) []
    | _ => t) s

/-! ### Routes of a placement (R307, R309, R320, R469 to R472) -/

/-- A place in a die: die, local column and logical row. -/
structure Spot where
  die : Nat
  x : Nat
  y : Nat
  deriving DecidableEq, Repr

/-- The logical coordinate of a place (R22). -/
def Spot.dest (s : State) (p : Spot) : Dest :=
  mkDest (128 * (p.die % s.part.dieCols) + p.x) (96 * (p.die / s.part.dieCols) + p.y)

/-- The member of another bay that a member is joined to: the one of its own index, or the first. -/
def peerOf (b : Bay) (m : Nat) : Option Member :=
  match b.members[m]? with
  | some y => if y.placed then some y else b.members.find? fun z => z.placed
  | none => b.members.find? fun z => z.placed

/-- The destination that SYM, TX and TY name for a member at a place (R470, R472); none while the bay named has no place. -/
def symDest (s : State) (j : Job) (m : Nat) (own : Spot) (sym tx ty : Nat) : Option Dest :=
  match symOf j.bays.length sym with
  | .own => some (Spot.dest s ⟨own.die, own.x + tx, own.y + ty⟩)
  | .bay i => (j.bays[i]?.bind fun b => peerOf b m).map fun y => Spot.dest s ⟨y.die, y.x + tx, y.y + ty⟩
  | .block code => some (blockDest code own.die (tx % 64))
  | .bad => none

/-- The output ports of a route between two addresses (R309, R316). -/
def routeWay (s : State) (src d : Dest) (yx : Bool) : List Hop :=
  let a := wayEnd s src (columnOf s.part d)
  wayBetween s a (wayEnd s d (a.global s.part)) yx

/-- D of a route (R320, R321). -/
def routeDist (s : State) (src d : Dest) (yx : Bool) : Nat := planD (routeWay s src d yx)

/-- Word 0 of the outbound entry that a route's source configures. -/
def routeEntry (b : BayImage) (r : Route) : Word :=
  match (b.runs.find? fun x => x.xr == r.sxr && x.yr == r.syr).bind fun x =>
      (runEntries x.words).find? fun e => e.1 == r.entry with
  | some e => e.2
  | none => 0

/-- The routes of a member at a place whose other end has one: the route, the coordinates of its source and target. -/
def memberRoutes (s : State) (j : Job) (b : Bay) (m : Nat) (own : Spot) : List (Route × Dest × Dest) :=
  b.img.routes.filterMap fun r =>
    (symDest s j m own r.sym r.tx r.ty).map fun d => (r, Spot.dest s ⟨own.die, own.x + r.sxr, own.y + r.syr⟩, d)

/-- The VC0 channels of a member at a place whose other end has one, external or inside the bay: source and destination, and YX
(R28, R318, R470). -/
def vc0Channels (s : State) (j : Job) (b : Bay) (m : Nat) (own : Spot) : List (Dest × Dest × Bool) :=
  (vc0Entries b.img).filterMap fun e =>
    let d := match e.2.2 with
      | some x => symDest s j m own (dbits x 31 8) (dbits x 39 9) (dbits x 48 8)
      | none => some (BitVec.ofNat 17 (bits e.2.1 14 17))
    d.map fun d => (Spot.dest s ⟨own.die, own.x + e.1.1, own.y + e.1.2⟩, d, bit e.2.1 6)

/-- Whether every timed route of a member keeps its limit, and with every VC0 channel its die (R28, R318, R469). -/
def timedOk (s : State) (j : Job) (b : Bay) (m : Nat) (own : Spot) : Bool :=
  ((memberRoutes s j b m own).all fun q =>
    !q.1.timed || (destDie s.part q.2.2 == own.die && decide (routeDist s q.2.1 q.2.2 (bit (routeEntry b.img q.1) 6) + 2 ≤ q.1.dmax)))
  && (vc0Channels s j b m own).all fun c => destDie s.part c.2.1 == own.die

/-- Ports that carry VC0 flits of a member, on its timed routes and on every other VC0 channel of it (R474). -/
def vc0Ports (s : State) (j : Job) (b : Bay) (m : Nat) (own : Spot) : List Hop :=
  ((memberRoutes s j b m own).flatMap fun q =>
    if q.1.timed then routeWay s q.2.1 q.2.2 (bit (routeEntry b.img q.1) 6) else [])
  ++ (vc0Channels s j b m own).flatMap fun c => routeWay s c.1 c.2.1 c.2.2

/-! ### Deliveries from a port (R475, R518)

DESIGN CHOICE (log 185): which endpoints of a bay its port feeds, the spec does not say; the model takes those whose peer a
relocation record makes the Ethernet block, and has the Mason keep one route entry for each of them in every member. -/

/-- The endpoints of a bay that its port feeds: an ashlar of it, and the endpoint. -/
def portSites (b : Bay) : List (Nat × Nat × Nat) :=
  b.img.relocs.filterMap fun r =>
    if dbits r 0 4 = 4 ∧ dbits r 31 8 = 0xF4 then some (dbits r 6 7, dbits r 13 7, dbits r 20 11 % 8) else none

/-- Whether a route entry is one of a member of a bay. -/
def IngRoute.feeds (r : IngRoute) (b : Bay) (m : Nat) : Bool :=
  r.entry.valid && r.group.toNat == b.img.group % 8 && r.member.toNat == m

/-- The way of a timed delivery from an attach column. -/
def deliveryWay (s : State) (die col : Nat) (d : Dest) (yx : Bool) : List Hop :=
  let a := { wayEnd s (blockDest 4 die 0) (columnOf s.part d) with col := col }
  wayBetween s a (wayEnd s d (a.global s.part)) yx

/-- Ports that carry the timed deliveries of a die's Ethernet block, but those that `but` names. -/
def deliveryPorts (s : State) (die : Nat) (but : IngRoute → Bool) : List Hop :=
  (s.die die).ing.routes.toList.flatMap fun r =>
    if r.entry.valid ∧ r.entry.vc = 0 ∧ !but r then deliveryWay s die r.attach.toNat r.entry.dest r.entry.yx else []

/-- The attach column of each endpoint of a member on die `at'` that its port feeds by a timed route: the one it has, else the
lowest that no timed route uses; none, and a credited route, where the port's 8 are taken or the member lies on another die
(R28, R475). -/
def feedColumns (s : State) (die : Nat) (b : Bay) (m at' : Nat) : List ((Nat × Nat × Nat) × Option Nat) :=
  let rs := (s.die die).ing.routes.toList
  (portSites b).foldl (fun acc x =>
    let col := if at' ≠ die then none else match rs.find? fun r => r.feeds b m && r.entry.ep.toNat == x.2.2 with
      | some r => if r.entry.vc = 0 then some r.attach.toNat else none
      | none => (List.range 8).find? fun c =>
          !(rs.any fun r => r.entry.valid && r.entry.vc == 0 && r.attach.toNat == c) && !(acc.any fun y => y.2 == some c)
    acc ++ [(x, col)]) []

/-- Ports that the timed deliveries of a member would use at a place. -/
def feedPorts (s : State) (b : Bay) (m : Nat) (p : Spot) : List Hop :=
  if b.portDie s = some p.die then
    (feedColumns s p.die b m p.die).flatMap fun f => match f.2 with
      | some c => deliveryWay s p.die c (Spot.dest s ⟨p.die, p.x + f.1.1, p.y + f.1.2.1⟩) true
      | none => []
  else []

/-- The route entries of a member written for its place, not LIVE: its own entry rewritten, or the lowest unused one, with a
CREDIT of the endpoint's depth (R328, R475, R518). -/
def feedMember (s : State) (b : Bay) (m : Nat) (p : Spot) : State :=
  match b.portDie s with
  | none => s
  | some d =>
    (feedColumns s d b m p.die).foldl (fun t f =>
      let g := (t.die d).ing
      let dest := Spot.dest s ⟨p.die, p.x + f.1.1, p.y + f.1.2.1⟩
      match (List.range 16).find? fun i => (g.route i).feeds b m && (g.route i).entry.ep.toNat == f.1.2.2 with
      | some i => t.onIng d fun g => g.setRoute i { g.route i with
          entry := { (g.route i).entry with
            dest := dest, vc := if f.2.isSome then (g.route i).entry.vc else 1, yx := f.2.isSome && (g.route i).entry.yx } }
      | none =>
        match (List.range 16).find? fun i => !(g.route i).entry.valid with
        | none => t
        | some i => t.onIng d fun g => g.setRoute i
            { entry := { OutEntry.reset with
                valid := true, conn := true, vc := if f.2.isSome then 0 else 1, yx := f.2.isSome, tlen := 3
                ep := BitVec.ofNat 3 f.1.2.2, dest := dest, credit := 4 }
              attach := BitVec.ofNat 3 (f.2.getD 0), group := BitVec.ofNat 3 b.img.group, member := BitVec.ofNat 2 m
              live := false }) s

/-- Placed members: job, bay and member index, bay and place; a member that is moved counts at both its places. -/
def placedMembers (s : State) : List (Job × Nat × Nat × Bay × Member) :=
  s.mas.jobs.flatMap fun j => j.bays.zipIdx.flatMap fun b => b.1.members.zipIdx.flatMap fun m =>
    (if m.1.placed then [(j, b.2, m.2, b.1, m.1)] else []) ++ (match m.1.old with
      | some o => [(j, b.2, m.2, b.1, { m.1 with die := o.die, x := o.x, y := o.y })]
      | none => [])

/-! ### Choosing a rectangle (R474, R476, R477) -/

/-- Ashlars that two rectangles share. -/
def sharedAsh (v w : Word) : Nat :=
  if rectsMeet v w then
    64 * (min (bits v 0 4 + bits v 16 5) (bits w 0 4 + bits w 16 5) - max (bits v 0 4) (bits w 0 4))
      * (min (bits v 8 4 + bits v 24 4) (bits w 8 4 + bits w 24 4) - max (bits v 8 4) (bits w 8 4))
  else 0

/-- Whether a die is DIE_DEGRADED. -/
def degraded (s : State) (die : Nat) : Bool := s.fld (.cfgDie die) 0x50 16 1 == 1

/-- Whether a place is valid for a member of a bay (R474). -/
def spotOk (s : State) (j : Job) (bi m : Nat) (b : Bay) (p : Spot) : Bool :=
  let rect := rectWord p.x p.y b.img.w b.img.h
  let others := (placedMembers s).filter fun q => !(q.1.id == j.id && q.2.1 == bi && q.2.2.1 == m)
  let here := others.filter fun q => q.2.2.2.2.die == p.die
  let trial := j.onBay bi fun x => x.onMember m fun y => { y with die := p.die, x := p.x, y := p.y, state := .loading }
  let mine := vc0Ports s trial b m p
  let fed := feedPorts s b m p
  let mineRoutes := fun (r : IngRoute) => b.portDie s == some p.die && r.feeds b m
  !degraded s p.die
    && (here.all fun q => (q.1.clsT && !j.clsT) || !rectsMeet rect (q.2.2.2.1.rect q.2.2.2.2))
    && timedOk s trial b m p
    && (others.all fun q => q.1.id != j.id || timedOk s trial q.2.2.2.1 q.2.2.1 ⟨q.2.2.2.2.die, q.2.2.2.2.x, q.2.2.2.2.y⟩)
    && ((mine.isEmpty && fed.isEmpty)
      || ((fed ++ deliveryPorts s p.die mineRoutes).all fun x => !mine.contains x)
        && here.all fun q => (vc0Ports s q.1 q.2.2.2.1 q.2.2.1 ⟨p.die, q.2.2.2.2.x, q.2.2.2.2.y⟩).all fun x =>
          !fed.contains x && ((q.1.id == j.id && q.2.1 == bi) || !mine.contains x))

/-- The keys of R476, then the origin. -/
def keysS (s : State) (j : Job) (bi m : Nat) (b : Bay) (p : Spot) : List Nat :=
  let rect := rectWord p.x p.y b.img.w b.img.h
  let displaced := ((placedMembers s).map fun q =>
    if q.1.clsT ∧ q.2.2.2.2.die = p.die then sharedAsh rect (q.2.2.2.1.rect q.2.2.2.2) else 0).foldl (· + ·) 0
  let shared := (b.members.zipIdx.any fun y => y.2 != m && y.1.placed && y.1.die == p.die
    && decide (y.1.y < p.y + b.img.h) && decide (p.y < y.1.y + b.img.h))
  let trial := j.onBay bi fun x => x.onMember m fun y => { y with die := p.die, x := p.x, y := p.y, state := .loading }
  let dist := ((memberRoutes s trial b m p).map fun q =>
    routeDist s q.2.1 q.2.2 (bit (routeEntry b.img q.1) 6)).foldl (· + ·) 0
  let d := Spot.dest s p
  [displaced, b2n shared, dist, destY d, destX d]

/-- Bytes of a tensor that a segment of it holds: the last one may be short. -/
def segmentBytes (s : State) (id : Half) (handle : BitVec 20) (seg : Nat) : Nat :=
  match s.tensor 0 id handle with
  | .found t => min (2 ^ 21) (t.length - seg * 2 ^ 21)
  | _ => 2 ^ 21

/-- Bytes of a job's tensors that a die holds in its tiers. -/
def jobBytes (s : State) (id : Half) (die : Nat) : Nat :=
  ((s.die die).frames.map fun e => match e.2.use with
    | .seg k h n => if k = id then segmentBytes s id h n else 0
    | _ => 0).foldl (· + ·) 0

/-- Class T ashlars in use on a die. -/
def usedT (s : State) (die : Nat) : Nat :=
  ((placedMembers s).map fun q =>
    if q.1.clsT ∧ q.2.2.2.2.die = die then q.2.2.2.1.img.w * q.2.2.2.1.img.h else 0).foldl (· + ·) 0

/-- The keys of R477: most of the job's bytes, its saved context, fewest class T ashlars, then the origin. -/
def keysT (s : State) (j : Job) (bi : Nat) (p : Spot) : List Nat :=
  let d := Spot.dest s p
  let saved := j.records.any fun r => r.bay == bi && fdDie r.fd == p.die
  [2 ^ 45 - jobBytes s j.id p.die, b2n !saved, usedT s p.die, destY d, destX d]

/-- Lexicographic order of keys. -/
def keysLt : List Nat → List Nat → Bool
  | a :: r, b :: t => decide (a < b) || (a == b && keysLt r t)
  | _, _ => false

/-- Every origin of a rectangle on a die. -/
def originsOn (die w h : Nat) : List Spot :=
  (List.range 12).flatMap fun y => (List.range 16).filterMap fun x =>
    if 8 * x + w ≤ 128 ∧ 8 * y + h ≤ 96 then some ⟨die, 8 * x, 8 * y⟩ else none

/-- The best valid place of a member, or none: for class S on the die of its receiving port, unless that die is degraded, which
every bay leaves (R26, R476). -/
def choosePlace (s : State) (j : Job) (bi m : Nat) (b : Bay) : Option Spot :=
  let dies := if j.clsT then List.range s.part.dies
    else match b.portDie s with
      | some d => if degraded s d then List.range s.part.dies else [d]
      | none => List.range s.part.dies
  let cand := (dies.flatMap fun d => originsOn d b.img.w b.img.h).filter (spotOk s j bi m b)
  let keys := fun p => if j.clsT then keysT s j bi p else keysS s j bi m b p
  cand.foldl (fun best p =>
    match best with
    | none => some p
    | some q => if keysLt (keys p) (keys q) then some p else best) none

/-- The Plumb slot that a member holds where it stands or stood last (R216). -/
def plumbSlotOf (s : State) (b : Bay) (y : Member) : Option Nat :=
  if !y.had then none
  else (List.range 32).find? fun k => (s.slot y.die k).bay == setBits (b.rect y) 31 1 1

/-- SLOT_SEL and then SLOT_BAY written by the Mason. -/
def writeSlotBay (s : State) (die k : Nat) (w : Word) : State := slotWrite (s.setFld (.plb die) 0x40 0 6 k) die k 0x44 w

/-- SLOT_BAY of the slot a member holds rewritten for its new place (R225). DESIGN CHOICE (log 183): on another die the slot
of the same index where it is not assigned, else the lowest that is not. -/
def slotFollows (s : State) (b : Bay) (old new : Member) : State :=
  match plumbSlotOf s b old with
  | none => s
  | some k =>
    let w := setBits (b.rect new) 31 1 1
    if old.die = new.die then writeSlotBay s old.die k w
    else
      let t := writeSlotBay s old.die k (setBits (b.rect old) 31 1 0)
      let open' := fun (i : Nat) => !bit (t.slot new.die i).bay 31
      match if open' k then some k else (List.range 32).find? open' with
      | some i => writeSlotBay t new.die i w
      | none => t

/-- A member given its place, to be loaded there; the Plumb slot it held goes with it (R225). -/
def placeMember (s : State) (id : Half) (bi m : Nat) : Option State :=
  match s.job id, s.bay id bi, s.member id bi m with
  | some j, some b, some old =>
    (choosePlace s j bi m b).map fun p =>
      let new : Member := { old with die := p.die, x := p.x, y := p.y, state := .loading, fence := 16, had := true }
      (feedMember (slotFollows s b old new) b m p).onMember id bi m fun _ => new
  | _, _, _ => none

/-- Every member of a job placed, or none (R477). -/
def placeBays (s : State) (id : Half) : Option State :=
  match s.job id with
  | none => none
  | some j =>
    (j.bays.zipIdx.flatMap fun b => (List.range b.1.members.length).map fun m => (b.2, m)).foldl
      (fun r k => r.bind fun t => placeMember t id k.1 k.2) (some s)

/-! ### Staging (R604) -/

/-- A run written in T1 from byte `off` of a frame. -/
def writeRun (s : State) (fd : Word) (off : Nat) (ws : List DWord) : State :=
  s.tierWrite (fdDie fd) (fdTier fd) (fdFrame fd) (off / 8) ws []

/-- Runs staged on a die, each inside one frame and on a line of its own. -/
def stageRuns (die : Nat) (id : Half) (bi : Nat) : List AshRun → Option (Word × Nat) → State → Option State
  | [], _, s => some s
  | r :: rest, cur, s =>
    let bytes := (8 * r.words.length + 511) / 512 * 512
    let room : Option (Word × Nat × State) := match cur with
      | some (fd, off) => if off + bytes ≤ 2 ^ 21 then some (fd, off, s) else none
      | none => none
    let place : Option (Word × Nat × State) := match room with
      | some x => some x
      | none => (reserveOn s die).map fun x =>
          (x.1, 0, x.2.onJob id fun j => { j with frames := x.1 :: j.frames })
    match place with
    | none => none
    | some (fd, off, t) =>
      let u := (writeRun t fd off r.words).onBay id bi fun b =>
        { b with staged := b.staged ++ [⟨die, r.xr, r.yr, fd, off, 8 * r.words.length, r.rcrc⟩] }
      stageRuns die id bi rest (some (fd, off + bytes)) u

/-- The runs of a bay staged on each die that a member stands on, once a die. -/
def stageBay (s : State) (id : Half) (bi : Nat) : Option State :=
  match s.bay id bi with
  | none => none
  | some b =>
    (b.members.filter fun m => m.placed).foldl (fun r m => r.bind fun t =>
      match t.bay id bi with
      | none => none
      | some c => if c.staged.any fun g => g.die == m.die then some t else stageRuns m.die id bi b.img.runs none t) (some s)

def stageJob (s : State) (id : Half) : Option State :=
  match s.job id with
  | none => none
  | some j => (List.range j.bays.length).foldl (fun r b => r.bind fun t => stageBay t id b) (some s)

end Sys2Proof.Machine
end

