-- ==== Sys2Proof/Machine/Functions.lean ====
section
/-! DEFINITION. The twelve functions of FN, correctly rounded (R243).

A function value is evaluated in fixed point to `fnP` fractional bits, far below the distance of any result that is not
exact from a rounding boundary; the results that are exact are recognised first, as R243 has the hardware do. -/

namespace Sys2Proof.Machine

/-- Fractional bits of an evaluation. -/
def fnP : Nat := 1600

/-- A function result before its rounding: a special value, an exact value, or a real of sign `neg` and magnitude
m · 2^(−fnP) · 2^e that is not exact. -/
inductive FnResult where
  | val (v : Val)
  | real (neg : Bool) (m : Nat) (e : Int)
  deriving DecidableEq, Repr

/-- floor(x · 2^fnP) of a finite value. -/
def fxOf (x : Val) : Int := (x.scale fnP).floorInt

/-- Sum of fuel terms of e^r in fixed point, `t` the current term and `n` its number. -/
def expSeries (r : Nat) : Nat → Nat → Nat → Nat → Nat
  | 0, _, _, acc => acc
  | fuel + 1, n, t, acc =>
    let t' := t * r / 2 ^ fnP / (n + 1)
    expSeries r fuel (n + 1) t' (acc + t')

/-- Sum of u^(2k+1) / (2k+1), in fixed point; `p` is u^(2k+1). -/
def atanhSeries (u2 : Nat) : Nat → Nat → Nat → Nat → Nat
  | 0, _, _, acc => acc
  | fuel + 1, k, p, acc => atanhSeries u2 fuel (k + 1) (p * u2 / 2 ^ fnP) (acc + p / (2 * k + 1))

/-- ln((1 + u) / (1 − u)) for a fixed-point u in [0, 1/3]. -/
def lnOfRatio (u : Nat) : Nat := 2 * atanhSeries (u * u / 2 ^ fnP) 520 0 u 0

def fxLn2 : Nat := lnOfRatio (2 ^ fnP / 3)

/-- atan(1/n) in fixed point: alternating series, `p` is 1/n^(2k+1). -/
def atanInvSeries (n2 : Nat) : Nat → Nat → Nat → Int → Int
  | 0, _, _, acc => acc
  | fuel + 1, k, p, acc =>
    let t : Int := (p / (2 * k + 1) : Nat)
    atanInvSeries n2 fuel (k + 1) (p / n2) (if k % 2 = 0 then acc + t else acc - t)

def atanInv (n : Nat) : Int := atanInvSeries (n * n) 360 0 (2 ^ fnP / n) 0

/-- π in fixed point. -/
def fxPi : Nat := (16 * atanInv 5 - 4 * atanInv 239).toNat

/-- e^x for a fixed-point x, as (m, e): m · 2^(−fnP) · 2^e. -/
def fxExp (x : Int) : Nat × Int :=
  let k := x.fdiv (fxLn2 : Int)
  let r := (x - k * fxLn2).toNat
  (expSeries r 270 0 (2 ^ fnP) (2 ^ fnP), k)

/-- e^x in fixed point, absolute. -/
def fxExpAbs (x : Int) : Nat :=
  let r := fxExp x
  if 0 ≤ r.2 then r.1 * 2 ^ r.2.toNat else r.1 / 2 ^ (-r.2).toNat

/-- ln(m · 2^e) for m > 0, in fixed point. -/
def fxLn (m : Nat) (e : Int) : Int :=
  let l := Nat.log2 m
  -- m = 2^l · (1 + f), with f in [0, 1); u = f / (2 + f)
  let num := (m - 2 ^ l) * 2 ^ fnP
  let den := m + 2 ^ l
  ((l : Int) + e) * fxLn2 + lnOfRatio (num / den)

/-- Sum of x^(2n+1) / (1 · 3 · … · (2n+1)) in fixed point, `t` the current term. -/
def phiSeries (x2 : Nat) : Nat → Nat → Nat → Nat → Nat
  | 0, _, _, acc => acc
  | fuel + 1, n, t, acc =>
    if t = 0 then acc else phiSeries x2 fuel (n + 1) (t * x2 / 2 ^ fnP / (2 * n + 3)) (acc + t)

/-- (1 + erf(x/√2))/2 for a fixed-point x ≥ 0: 1/2 + e^(−x²/2) / √(2π) · the series above. The series is as large as the
exponential is small, so the exponential keeps its own exponent until the two are multiplied. -/
def fxPhi (x : Nat) : Nat :=
  let x2 := x * x / 2 ^ fnP
  let s := phiSeries x2 6000 0 x 0
  let g := fxExp (-((x2 / 2 : Nat) : Int))
  let root := isqrt (2 * fxPi * 2 ^ fnP)
  2 ^ (fnP - 1) + g.1 * s / root / 2 ^ (-g.2).toNat

/-- A real m · 2^(−fnP), signed. -/
def fxReal (v : Int) : FnResult := .real (v < 0) v.natAbs 0

/-- A positive real below every format's smallest subnormal. -/
def fnTiny (neg : Bool) : FnResult := .real neg 1 (-100)

/-- |x| ≥ n. -/
def magAtLeast (x : Val) (n : Nat) : Bool := !Val.lt x.abs (Val.ofInt n)

/-- x is an integer. -/
def isInteger (x : Val) : Bool :=
  match x with
  | .fin _ m e => (floorAt m e 0).2
  | _ => false

/-- FUNC of FN applied to an exact value (R243). -/
def fnApply (func : Nat) (x : Val) : FnResult :=
  match x with
  | .nan => .val .nan
  | .inf n =>
    match func with
    | 0 => .val (if n then Val.zero else .inf false)
    | 1 => .val (if n then Val.zero else .inf false)
    | 2 => .val (if n then .nan else .inf false)
    | 3 => .val (if n then .nan else .inf false)
    | 4 => .val (.fin n 0 0)
    | 5 => .val (if n then .nan else .inf false)
    | 6 => .val (if n then .nan else Val.zero)
    | 7 => .val (.fin n 1 0)
    | 8 => .val (if n then Val.zero else .fin false 1 0)
    | 9 => .val (if n then .fin true 0 0 else .inf false)
    | 10 => .val (if n then .fin true 0 0 else .inf false)
    | _ => .val (if n then Val.zero else .inf false)
  | .fin n m e =>
    match func with
    | 0 =>
      if m = 0 then .val (.fin false 1 0)
      else if magAtLeast x 1000 then (if n then fnTiny false else .real false 1 4000)
      else let r := fxExp (fxOf x); .real false r.1 r.2
    | 1 =>
      if isInteger x then
        .val (.fin false 1 (max (min (Val.floorInt x) 2000) (-2000)))
      else if magAtLeast x 1000 then (if n then fnTiny false else .real false 1 4000)
      else
        let k := x.floorInt
        let r := fxExp ((fxOf x - k * 2 ^ fnP) * fxLn2 / 2 ^ fnP)
        .real false r.1 (r.2 + k)
    | 2 =>
      if m = 0 then .val (.inf true)
      else if n then .val .nan
      else if Val.eq x (.fin false 1 0) then .val Val.zero
      else fxReal (fxLn m e)
    | 3 =>
      if m = 0 then .val (.inf true)
      else if n then .val .nan
      else if m = 2 ^ Nat.log2 m then .val (Val.ofInt (log2Of m e))
      else fxReal (fxLn m e * 2 ^ fnP / fxLn2)
    | 4 => if m = 0 then .val (.inf n) else .real n 0 0
    | 5 => if m = 0 then .val x else if n then .val .nan else .real false 0 0
    | 6 => if m = 0 then .val (.inf n) else if n then .val .nan else .real false 0 0
    | 7 =>
      if m = 0 then .val x
      else if magAtLeast x 500 then .real n (2 ^ fnP - 1) 0
      else
        -- tanh |x| = (e^(2|x|) − 1) / (e^(2|x|) + 1)
        let g := fxExpAbs (2 * fxOf x.abs)
        .real n ((g - 2 ^ fnP) * 2 ^ fnP / (g + 2 ^ fnP)) 0
    | 8 =>
      if m = 0 then .val (.fin false 1 (-1))
      else if magAtLeast x 1000 then (if n then fnTiny false else .real false (2 ^ fnP - 1) 0)
      else
        let g := fxExpAbs (-(fxOf x))
        .real false (2 ^ (2 * fnP) / (2 ^ fnP + g)) 0
    | 9 =>
      if m = 0 then .val x
      else if magAtLeast x 1000 then
        (if n then fnTiny true else .real false ((fxOf x).toNat - 1) 0)
      else
        let g := fxExpAbs (-(fxOf x))
        .real n ((fxOf x.abs).toNat * 2 ^ fnP / (2 ^ fnP + g)) 0
    | 10 =>
      if m = 0 then .val x
      else if magAtLeast x 44 then
        (if n then fnTiny true else .real false ((fxOf x).toNat - 1) 0)
      else
        let p := fxPhi (fxOf x.abs).toNat
        .real n ((fxOf x.abs).toNat * (if n then 2 ^ fnP - p else p) / 2 ^ fnP) 0
    | _ =>
      if magAtLeast x 1000 then
        (if n then fnTiny false else .real false (fxOf x).toNat 0)
      else
        let g := fxExpAbs (fxOf x)
        fxReal (fxLn (2 ^ fnP + g) (-(fnP : Int)))

/-- The function value rounded to format f (R243): RECIP, SQRT and RSQRT exactly, the rest from their evaluation. The
flag is the saturation of R200. -/
def fnRound (func : Nat) (x : Val) (f : Nat) (mode : RMode) : Val × Bool :=
  match fnApply func x with
  | .val v => let r := convertVal v f mode 0 false; (r.1, r.2.1)
  | .real n m e =>
    match func, x with
    | 4, .fin _ xm xe => roundPos n (log2Quot 1 0 xm xe) (floorQuot 1 0 xm xe) f mode 0 false
    | 5, .fin _ xm xe => roundPos false (log2Sqrt xm xe) (floorSqrt xm xe) f mode 0 false
    | 6, .fin _ xm xe =>
      -- 1/√x = √(1/x): floor √((2^k / xm)) is the floor of the exact root
      let fl := fun (t : Int) =>
        let q := floorQuot 1 0 xm xe (2 * t)
        let r := isqrt q.1
        (r, q.2 && r * r == q.1)
      let g := (log2Quot 1 0 xm xe).fdiv 2
      roundPos false g fl f mode 0 false
    | _, _ =>
      roundPos n (log2Of m (e - fnP)) (fun t => ((floorAt m (e - fnP) t).1, false)) f mode 0 false

end Sys2Proof.Machine
end

