-- ==== Sys2Proof/Machine/Vector.lean ====
section
/-! DEFINITION. The vector engine: its descriptor (R233 to R237), operands and rows (R230, R235, R236, R708), operations and
their one rounding (R231, R243), extents, masks and merges (R238 to R240), reductions (R244 to R247), COMPRESS and EXPAND
(R248, R249).

An instruction works group by group in loop order, each group's reads before its writes. -/

namespace Sys2Proof.Machine

/-- The decoded body of every opcode but OPTUPD (R234). -/
structure Vec where
  op : Nat
  cf : Nat
  func : Nat
  bsrc : Nat
  csrc : Bool
  merge : Bool
  mask : Nat
  mreg : Nat
  mdst : Nat
  rdst : Nat
  ca : Conv
  cb : Conv
  cd : Conv
  n0 : Nat
  n1 : Nat
  n2 : Nat
  e0 : Nat
  e1 : Nat
  s1 : Word
  s2 : Word
  long : Bool
  deriving DecidableEq, Repr

/-- Whether the body has the long form (R234). -/
def vecLong (i : EngInstr) : Bool := bits (iw i 0) 20 4 == 10

def vecOf (i : EngInstr) : Vec :=
  let w6 := iw i 6
  let long := vecLong i
  let n0 := bits (iw i 9) 0 13
  let n1 := orFull' (bits (iw i 8) 16 12)
  { op := opcodeOf i, cf := bits w6 0 4, func := bits w6 4 4, bsrc := bits w6 8 2, csrc := bit w6 10
    merge := bit w6 11, mask := bits w6 12 2, mreg := bits w6 14 2, mdst := bits w6 16 2, rdst := bits w6 18 5
    ca := convOf (bits (iw i 7) 0 16), cb := convOf (bits (iw i 7) 16 16), cd := convOf (bits (iw i 8) 0 16)
    n0 := n0, n1 := n1
    n2 := if long then orFull' (bits (iw i 15) 0 12) else 1
    e0 := if bits (iw i 9) 13 13 = 0 then n0 else bits (iw i 9) 13 13
    e1 := if long ∧ bits (iw i 15) 12 12 ≠ 0 then bits (iw i 15) 12 12 else n1
    s1 := iw i 10, s2 := iw i 11, long := long }
where
  /-- 0 means 4,096 (R234). -/
  orFull' (n : Nat) : Nat := if n = 0 then 4096 else n

/-- Elements per group (R229). -/
def vecLanes (cf : Nat) : Nat :=
  match cf with
  | 1 => 32
  | 2 => 32
  | 10 => 64
  | _ => 16

def vecFloat (cf : Nat) : Bool := cf ≤ 2

/-- RSUM, RSSQ, RMAX, RMIN, RAMAX. -/
def vecReduces (op : Nat) : Bool := 0x18 ≤ op && op ≤ 0x1C

/-- Width of an integer compute format (R231). -/
def vecWidth (cf : Nat) : Nat := if cf = 10 then 8 else 32

/-- An integer wrapped to w bits (R231). -/
def wrapInt (w : Nat) (x : Int) : Int := signedCode w (x % (2 ^ w : Int)).toNat

/-! ### Operands and rows (R235, R236) -/

/-- One tensor operand: its declared range, conversion, elements per row and strides. -/
structure Opd where
  rng : Nat
  conv : Conv
  n : Nat
  str1 : Nat
  str2 : Nat
  deriving DecidableEq, Repr

/-- An operand whose strides stand in a body word of the long form; in the short form rows follow one another (R235). -/
def opdOf (i : EngInstr) (rng : Nat) (c : Conv) (n word : Nat) : Opd :=
  if vecLong i then ⟨rng, c, n, bits (iw i word) 0 13, bits (iw i word) 13 13⟩
  else ⟨rng, c, n, c.dataWords n + c.scaleWords n, 0⟩

/-- Operand a's range: RANGE_A, or RANGE_B where RANGE_A is empty and b is no tensor (R236). -/
def vecRangeA (i : EngInstr) (m : Vec) : Nat := if rangeLen (irange i 0) = 0 ∧ m.bsrc ≠ 0 then 1 else 0

/-- One-bit elements, as MLOAD and MSTORE lay a row out (R240): the words they take in the place of a format's. -/
def maskRow (i : EngInstr) (rng n word : Nat) : Opd :=
  if vecLong i then ⟨rng, convOf 0, n, bits (iw i word) 0 13, bits (iw i word) 13 13⟩
  else ⟨rng, convOf 0, n, ceilDiv n 64, 0⟩

/-- First word of row (i1, i2), counted from the START of the range (R236). -/
def Opd.base (o : Opd) (i1 i2 : Nat) : Nat := i1 * o.str1 + i2 * o.str2

/-- The generator value of a conversion at element i0 of the row that begins at word `base` of its range (R708). -/
def vecU (v : Ashlar) (i : EngInstr) (o : Opd) (base i0 : Nat) : Nat :=
  if o.conv.mode = .sr then
    rbits v.srSeed 0 0 (BitVec.ofNat 64 (((rangeStart (irange i o.rng) + base) * 2 ^ 12 + i0) % 2 ^ 48)) o.conv.lane
  else 0

/-- An operand element as the lanes take it: FP32 for floating compute, else an integer (R205, R230). The flag is the
saturation that R205 has counted where a scaled value lies above the FP32 range. -/
def vecDecode (v : Ashlar) (i : EngInstr) (m : Vec) (o : Opd) (base : Nat) (ws : List (Nat × Nat)) (i0 : Nat) :
    Val × Bool :=
  let x := o.conv.elemOf o.n ws i0
  if vecFloat m.cf then
    let c := convertVal x 0 o.conv.mode (vecU v i o base i0) false
    (c.1, c.2.1)
  else (x, false)

/-- A scalar operand (R234). -/
def vecScalar (m : Vec) (w : Word) : Val := if vecFloat m.cf then fp32 w else Val.ofInt w.toInt

/-- The words of a row that the elements listed lie in, each once. -/
def Opd.words (o : Opd) (es : List Nat) : List Nat := (es.flatMap fun e => o.conv.wordsOf o.n e).eraseDups

/-! ### Operations (R231, R233, R237, R243) -/

/-- The exact floating result of an element-wise operation. -/
def vecExact (op : Nat) (a b c : Val) : Val :=
  match op with
  | 0x01 => a.add b
  | 0x02 => a.sub b
  | 0x03 => a.mul b
  | 0x04 => (a.mul b).add c
  | 0x05 => a.minimum b
  | 0x06 => a.maximum b
  | 0x07 => a.abs
  | 0x08 => a.neg
  | 0x09 => if a.isNan || b.isNan then .nan else a.withSign b.sign
  | _ => a

/-- An integer operation before it wraps (R231, R233). -/
def vecInt (op w : Nat) (a b c : Int) : Int :=
  match op with
  | 0x01 => a + b
  | 0x02 => a - b
  | 0x03 => a * b
  | 0x04 => a * b + c
  | 0x05 => min a b
  | 0x06 => max a b
  | 0x07 => a.natAbs
  | 0x08 => -a
  | 0x0E => ((codeIn w a &&& codeIn w b : Nat) : Int)
  | 0x0F => ((codeIn w a ||| codeIn w b : Nat) : Int)
  | 0x10 => ((codeIn w a ^^^ codeIn w b : Nat) : Int)
  | 0x11 => a * 2 ^ (b % (w : Int)).toNat
  | 0x12 => ((codeIn w a / 2 ^ (b % (w : Int)).toNat : Nat) : Int)
  | 0x13 => a.fdiv (2 ^ (b % (w : Int)).toNat)
  | _ => a
where
  /-- The w-bit code of an integer. -/
  codeIn (w : Nat) (x : Int) : Nat := (x % (2 ^ w : Int)).toNat

/-- The rounding to FP32 of an FP32 operation: RNE, or RTO before a narrower store (R206, R207, R231). -/
def vecRound (m : Vec) : RMode := if m.cf = 0 ∧ m.cd.fmt ≠ 0 then .rto else .rne

/-- d of an element-wise operation: exact, then rounded or wrapped once to the compute format, and whether that rounding
saturated (R201, R231, R233, R243). FN takes f of the sum a · S1 + S2 as R213 has it, so that −0 · 1 + (+0) is +0 (DEDUCED,
log 202). -/
def vecResult (m : Vec) (a b c : Val) (sel : Bool) : Val × Bool :=
  if vecFloat m.cf then
    if m.op = 0x0D then fnRound m.func ((a.mul (vecScalar m m.s1)).add (vecScalar m m.s2)) m.cf (vecRound m)
    else
      let x := if m.op = 0x0B then (if sel then a else b) else vecExact m.op a b c
      let r := convertVal x m.cf (vecRound m) 0 false
      (r.1, r.2.1)
  else
    let w := vecWidth m.cf
    let x := if m.op = 0x0B then (if sel then a.floorInt else b.floorInt)
      else vecInt m.op w a.floorInt b.floorInt c.floorInt
    (Val.ofInt (wrapInt w x), false)

/-- CMP's FUNC (R211, R233). -/
def vecCmp (func : Nat) (a b : Val) : Bool :=
  match func with
  | 0 => a.lt b
  | 1 => a.le b
  | 2 => a.eq b
  | 3 => !a.eq b
  | 4 => b.lt a
  | _ => b.le a

/-! ### A run -/

/-- A vector instruction under way: its scratchpad run, mask bits collected, elements packed or consumed, the scalar
result so far, RAMAX's first NaN and best element, and what its operands and unscaled stores have to count (R205,
R215). -/
structure VRun where
  r : Run
  bitsOut : Nat
  count : Nat
  scalar : Option Val
  firstNan : Option Nat
  best : Option (Nat × Val)
  sat : Bool
  nan : Bool
  deriving DecidableEq, Repr

def VRun.start (v : Ashlar) : VRun := ⟨Run.start v, 0, 0, none, none, none, false, false⟩

/-- A count of a conversion on its way to the PLB (R215, R216). -/
def Run.note (r : Run) (cs : List SatCounter) : Run := { r with v := { r.v with satOut := r.v.satOut ++ cs } }

/-- Whether lane i0 of row i1 is active (R234, R239). -/
def vecActive (v : Ashlar) (m : Vec) (i1 i0 : Nat) : Bool :=
  let b := (v.masks.toList.getD m.mreg 0).getLsbD (i1 * m.n0 + i0)
  m.mask == 0 || (m.mask == 1 && b) || (m.mask == 2 && !b)

/-- One unscaled element put among the bits to write, its conversion counted (R200 to R202, R215): a result that its rounding
to FP32 has clamped counts where the store leaves it finite (R201, R206; DEDUCED, log 49). -/
def vecStore (x : VRun) (i : EngInstr) (d : Opd) (base i0 : Nat) (val : Val × Bool) (b : Bits) : VRun × Bits :=
  let c := convertVal val.1 d.conv.fmt d.conv.mode (vecU x.r.v i d base i0) false
  ({ x with sat := x.sat || c.2.1 || (val.2 && !c.1.isInf), nan := x.nan || c.2.2 },
    b.put (i0 * d.conv.width) d.conv.width (codeOf d.conv.fmt c.1))

/-- Blocks k0 to k1 − 1 of a scaled destination row written whole, from the results listed by element (R203, R204,
R238). A block with a result that its rounding to FP32 has clamped counts too (R201, R206; DEDUCED, log 49). -/
def vecBlocks (x : VRun) (i : EngInstr) (d : Opd) (base k0 k1 : Nat) (vals : List (Nat × Val × Bool)) : VRun :=
  let bs := d.conv.bs
  let w := d.conv.width
  (List.range (k1 - k0)).foldl (fun x j =>
    let k := k0 + j
    let idx := (List.range bs).map fun e => k * bs + e
    let q := quantiseBlock (idx.map fun e => (vals.find? fun p => p.1 == e).map fun p => p.2.1) d.conv.fmt d.conv.mode
      (idx.map fun e => vecU x.r.v i d base e)
    let data := ((idx.zip q.codes).filter fun p => decide ((p.1 + 1) * w ≤ 64 * d.conv.dataWords d.n)).foldl
      (fun (b : Bits) p => b.put (p.1 * w) w p.2) Bits.none
    let first := k * bs * w / 64
    let r1 := writeBits x.r i base first data (bs * w / 64 + 2)
    let sw := d.conv.dataWords d.n + k / 8
    let r2 := writeWord r1 i (base + sw) (q.scale * 2 ^ (8 * (k % 8))) (255 * 2 ^ (8 * (k % 8)))
    { x with r := r2.note ((if q.sat || (vals.any fun p => p.2.2 && idx.contains p.1) then [SatCounter.vx] else []) ++ (if q.nan then [SatCounter.nan] else [])
        ++ (if q.sclamp then [SatCounter.sclamp] else [])) }) x

/-- One group of an element-wise operation, CMP, COMPRESS or EXPAND: elements lo to hi − 1 of row (i1, i2). `vals` are
the row's results so far for a scaled destination; answers them with this group's. The generator takes the packed run of
COMPRESS and EXPAND as one row that begins at START (R708; DESIGN CHOICE, log 203). -/
def vecGroup (x : VRun) (i : EngInstr) (m : Vec) (a b d : Opd) (i1 i2 lo hi : Nat) (vals : List (Nat × Val × Bool)) :
    VRun × List (Nat × Val × Bool) :=
  let es := (List.range (hi - lo)).map fun k => lo + k
  let act := es.filter fun e => vecActive x.r.v m i1 e
  let expand := m.op == 0x21
  let compress := m.op == 0x20
  let ab := if expand then 0 else a.base i1 i2
  let bb := b.base i1 i2
  let db := if compress then 0 else d.base i1 i2
  -- EXPAND takes the next unread elements of a, one for each active position (R249)
  let srcs := if expand then (List.range act.length).map fun k => x.count + k else act
  let ra := readAt x.r i a.rng ab (a.words srcs)
  let rb := if m.bsrc = 0 then readAt ra.2 i 1 bb (b.words act) else ([], ra.2)
  let rc := if m.csrc then readAt rb.2 i 2 db (d.words act) else ([], rb.2)
  let v := x.r.v
  let operands := (act.zip srcs).map fun p =>
    let av := vecDecode v i m a ab ra.1 p.2
    let bv := if m.bsrc = 0 then vecDecode v i m b bb rb.1 p.1 else (vecScalar m m.s1, false)
    let cv := if m.csrc then vecDecode v i m d db rc.1 p.1 else (vecScalar m m.s2, false)
    ((p.1, av.1, bv.1, cv.1), av.2 || bv.2 || cv.2)
  let results := operands.map fun q => q.1
  let x1 := { x with r := rc.2, sat := x.sat || operands.any fun q => q.2 }
  if m.op = 0x0C then
    let out := results.foldl (fun acc q => if vecCmp m.func q.2.1 q.2.2.1 then acc ||| (1 <<< (i1 * m.n0 + q.1)) else acc)
      x1.bitsOut
    ({ x1 with bitsOut := out }, vals)
  else
    let done := results.map fun q =>
      (q.1, vecResult m q.2.1 q.2.2.1 q.2.2.2 ((v.masks.toList.getD m.mreg 0).getLsbD (i1 * m.n0 + q.1)))
    if compress then
      let y := (done.zipIdx).foldl (fun (acc : VRun × Bits) q => vecStore acc.1 i d 0 (x.count + q.2) q.1.2 acc.2) (x1, Bits.none)
      let first := x.count * d.conv.width / 64
      ({ y.1 with
          r := writeBits y.1.r i 0 first y.2 (done.length * d.conv.width / 64 + 2)
          count := x.count + done.length }, vals)
    else if d.conv.bs ≠ 0 then
      let vals1 := vals ++ done
      let bs := d.conv.bs
      let k1 := if hi < m.e0 then hi / bs else ceilDiv m.e0 bs
      (vecBlocks { x1 with count := x1.count + (if expand then done.length else 0) } i d db (lo / bs) k1 vals1, vals1)
    else
      let y := es.foldl (fun (acc : VRun × Bits) e =>
        match done.find? fun q => q.1 == e with
        | some q => vecStore acc.1 i d db e q.2 acc.2
        | none =>
          if m.merge then acc
          else (acc.1, acc.2.put (e * d.conv.width) d.conv.width (codeOf d.conv.fmt Val.zero))) (x1, Bits.none)
      ({ y.1 with
          r := writeBits y.1.r i db (lo * d.conv.width / 64) y.2 ((hi - lo) * d.conv.width / 64 + 2)
          count := x1.count + (if expand then done.length else 0) }, vals)

/-! ### Reductions (R244 to R246) -/

/-- combine of R244 on decoded values. -/
def vecCombine (m : Vec) (p q : Val) : Val :=
  match m.op with
  | 0x1A => p.maximum q
  | 0x1B => p.minimum q
  | _ => if vecFloat m.cf then rne32 (p.add q) else Val.ofInt (wrapInt 32 (p.floorInt + q.floorInt))

/-- The fill value of R238. -/
def vecFill (m : Vec) : Val :=
  match m.op with
  | 0x1A => if vecFloat m.cf then .inf true else Val.ofInt (-(2 ^ 31))
  | 0x1B => if vecFloat m.cf then .inf false else Val.ofInt (2 ^ 31 - 1)
  | _ => Val.zero

/-- The tree over the lanes: the upper half onto the lower half, until one is left (R244). -/
def vecTree (m : Vec) : Nat → List Val → Val
  | 0, acc => acc.headD Val.zero
  | n + 1, acc =>
    if acc.length ≤ 1 then acc.headD Val.zero
    else
      let h := acc.length / 2
      vecTree m n ((acc.take h).zipWith (vecCombine m) (acc.drop h))

/-- row_reduce of R244; `xs` holds the row's elements, none where one is not valid. -/
def rowReduce (m : Vec) (xs : List (Option Val)) : Val :=
  let g := vecLanes m.cf
  let at' := fun k => (xs.getD k none).getD (vecFill m)
  let lane := fun l =>
    (List.range (ceilDiv m.e0 g)).foldl (fun (acc : Option Val) grp =>
      let v := at' (grp * g + l)
      some (if m.op = 0x19 then rne32 ((acc.getD Val.zero).add (v.mul v))
        else match acc with
          | none => v
          | some p => vecCombine m p v)) none
  vecTree m 7 ((List.range g).map fun l => (lane l).getD (vecFill m))

/-- v ranks above the best so far, −0 below +0 (R212, R246). -/
def ranksAbove (v best : Val) : Bool := best.lt v || (v.eq best && best.sign && !v.sign)

/-- RAMAX over more elements, each with its index: the first NaN, and the first of the largest (R246). -/
def rowArgmax (xs : List (Nat × Val)) (st : Option Nat × Option (Nat × Val)) : Option Nat × Option (Nat × Val) :=
  xs.foldl (fun st p =>
    if st.1.isSome then st
    else if p.2.isNan then (some p.1, st.2)
    else
      match st.2 with
      | none => (none, some p)
      | some b => if ranksAbove p.2 b.2 then (none, some p) else st) st

/-- The index RAMAX answers (R246). -/
def argmaxVal (st : Option Nat × Option (Nat × Val)) : Val :=
  match st.1, st.2 with
  | some k, _ => Val.ofInt k
  | none, some b => Val.ofInt b.1
  | none, none => Val.ofInt (-1)

/-- The valid elements of row (i1, i2), read group by group (R238, R244). -/
def readRowOf (x : VRun) (i : EngInstr) (m : Vec) (a : Opd) (i1 i2 : Nat) : List (Option Val) × VRun :=
  let g := vecLanes m.cf
  (List.range (ceilDiv m.e0 g)).foldl (fun acc grp =>
    let es := (List.range (min g (m.e0 - grp * g))).map fun k => grp * g + k
    let act := es.filter fun e => vecActive acc.2.r.v m i1 e
    let base := a.base i1 i2
    let ra := readAt acc.2.r i a.rng base (a.words act)
    let xs := es.map fun e => if act.contains e then some (vecDecode acc.2.r.v i m a base ra.1 e) else none
    (acc.1 ++ xs.map fun o => o.map fun q => q.1,
      { acc.2 with r := ra.2, sat := acc.2.sat || xs.any fun o => o.any fun q => q.2 })) ([], x)

/-- One row of a reduction: its result joins the scalar, or is answered for the destination row (R244 to R246). -/
def reduceRow (x : VRun) (i : EngInstr) (m : Vec) (a : Opd) (i1 i2 : Nat) : Val × VRun :=
  let y := readRowOf x i m a i1 i2
  if m.op = 0x1C then
    let off := if m.rdst = 0 then 0 else (i2 * m.n1 + i1) * m.n0
    let items := (y.1.zipIdx).filterMap fun p => p.1.map fun v => (off + p.2, v)
    if m.rdst = 0 then (argmaxVal (rowArgmax items (none, none)), y.2)
    else
      let st := rowArgmax items (x.firstNan, x.best)
      (Val.zero, { y.2 with firstNan := st.1, best := st.2, scalar := some (argmaxVal st) })
  else
    let res := rowReduce m y.1
    if m.rdst = 0 then (res, y.2)
    else
      (Val.zero, { y.2 with scalar := some (match x.scalar with
        | none => res
        | some p => vecCombine m p res) })

/-- The rows of one i2 of a reduction, and their destination row (R245). -/
def reducePlane (x : VRun) (i : EngInstr) (m : Vec) (a d : Opd) (i2 : Nat) : VRun :=
  let base := i2 * d.str2
  let y := (List.range m.e1).foldl (fun (acc : VRun × List (Nat × Val × Bool)) i1 =>
    let z := reduceRow acc.1 i m a i1 i2
    if m.rdst ≠ 0 then (z.2, [])
    else if d.conv.bs ≠ 0 then (z.2, acc.2 ++ [(i1, z.1, false)])
    else
      let w := vecStore z.2 i d base i1 (z.1, false) Bits.none
      ({ w.1 with r := writeBits w.1.r i base (i1 * d.conv.width / 64) w.2 2 }, [])) (x, [])
  if m.rdst = 0 ∧ d.conv.bs ≠ 0 then vecBlocks y.1 i d base 0 (ceilDiv m.e1 d.conv.bs) y.2 else y.1

/-! ### Whole instructions -/

/-- Every (i1, i2) of the loop, i2 outermost, rows from E1 left out (R236, R238). -/
def vecRows (m : Vec) : List (Nat × Nat) :=
  (List.range m.n2).flatMap fun i2 => (List.range m.e1).map fun i1 => (i1, i2)

/-- An element-wise operation, CMP, COMPRESS or EXPAND, whole. -/
def runElements (x : VRun) (i : EngInstr) (m : Vec) (a b d : Opd) : VRun :=
  let g := vecLanes m.cf
  (vecRows m).foldl (fun x row =>
    ((List.range (ceilDiv m.e0 g)).foldl (fun acc grp =>
      vecGroup acc.1 i m a b d row.1 row.2 (grp * g) (min (grp * g + g) m.e0) acc.2) (x, [])).1) x

/-- MLOAD (R240): the bits within the extent, every other bit 0. -/
def runMload (x : VRun) (i : EngInstr) (m : Vec) (a : Opd) : VRun :=
  (vecRows m).foldl (fun x row =>
    let ra := readAt x.r i a.rng (a.base row.1 row.2) (List.range (ceilDiv m.e0 64))
    let big := ra.1.reverse.foldl (fun acc w => acc * 2 ^ 64 + w.2) 0 % 2 ^ m.e0
    let at' := row.1 * m.n0
    let keep := x.bitsOut - x.bitsOut / 2 ^ at' % 2 ^ m.e0 * 2 ^ at'
    { x with r := ra.2, bitsOut := keep + big * 2 ^ at' }) x

/-- MSTORE (R240): whole words, 0 from E0 on. -/
def runMstore (x : VRun) (i : EngInstr) (m : Vec) (d : Opd) : VRun :=
  let mb := (x.r.v.masks.toList.getD m.mreg 0).toNat
  (vecRows m).foldl (fun x row =>
    let big := mb / 2 ^ (row.1 * m.n0) % 2 ^ m.e0
    { x with r := (List.range (ceilDiv m.n0 64)).foldl (fun r w =>
        writeWord r i (d.base row.1 row.2 + w) (big / 2 ^ (64 * w) % 2 ^ 64) fullMask) x.r }) x

/-- MLOGIC (R233, R240). -/
def vecLogic (v : Ashlar) (m : Vec) : BitVec 4096 :=
  let a := v.masks.toList.getD m.mreg 0
  let b := v.masks.toList.getD (m.s1.toNat % 4) 0
  match m.func with
  | 0 => a &&& b
  | 1 => a ||| b
  | 2 => a ^^^ b
  | 3 => a &&& ~~~b
  | 4 => ~~~a
  | 5 => BitVec.allOnes 4096
  | _ => 0

def Ashlar.setMask (v : Ashlar) (k : Nat) (x : BitVec 4096) : Ashlar :=
  { v with masks := v.masks.set (⟨k % 4, Nat.mod_lt k (by decide)⟩ : Fin 4) x }

/-- What an instruction's operands and unscaled stores have counted (R205, R215). -/
def VRun.settle (x : VRun) : VRun :=
  { x with r := x.r.note ((if x.sat then [SatCounter.vx] else []) ++ (if x.nan then [SatCounter.nan] else [])) }

/-- A whole vector instruction on the ashlar in which it has started. -/
def runVec (v : Ashlar) (i : EngInstr) : VRun :=
  let m := vecOf i
  let x := VRun.start v
  let a := opdOf i (vecRangeA i m) m.ca m.n0 12
  let b := opdOf i 1 m.cb m.n0 13
  let y :=
    if m.op = 0x26 then { x with bitsOut := (vecLogic v m).toNat }
    else if m.op = 0x24 then runMload x i m (maskRow i (vecRangeA i m) m.n0 12)
    else if m.op = 0x25 then runMstore x i m (maskRow i 2 m.n0 14)
    else if vecReduces m.op then
      let d := opdOf i 2 m.cd m.n1 14
      (List.range m.n2).foldl (fun x i2 => reducePlane x i m a d i2) x
    else runElements x i m a b (opdOf i 2 m.cd m.n0 14)
  let z := y.settle
  -- CMP, MLOAD and MLOGIC write their mask buffer in full, faulted or not (R240)
  if (masksWritten i).isEmpty then z
  else { z with r := { z.r with v := z.r.v.setMask m.mdst (BitVec.ofNat 4096 z.bitsOut) } }

/-- The word a scalar result delivers; all ones after a fault (R245 to R249). -/
def vecScalarWord (m : Vec) (x : VRun) : Word :=
  if x.r.fault.isSome then 0xFFFFFFFF
  else if m.op = 0x20 ∨ m.op = 0x21 then BitVec.ofNat 32 x.count
  else
    match x.scalar with
    | none => 0
    | some v => if m.op = 0x1C ∨ !vecFloat m.cf then BitVec.ofNat 32 (codeOf 12 v) else BitVec.ofNat 32 (codeOf 0 v)

/-- A vector instruction's run committed, its scalar result on its way to the Joiner (R78, R247). -/
def State.commitVec (s : State) (a : Ash) (i : EngInstr) (x : VRun) : State :=
  let m := vecOf i
  let t := s.commitRun a i x.r
  if m.rdst = 0 then t
  else t.onAsh a fun v => { v with joiner := { v.joiner with
    results := v.joiner.results ++ [(BitVec.ofNat 5 m.rdst, vecScalarWord m x)] } }

/-- The head of the vector queue, with this opcode and this FUNC, starts and does its whole work. -/
def vecTurn (s : State) (a : Ash) (op func : Nat) : Host.Outcome State Fault Refusal :=
  atAsh s a <|
    .next (startHead s a .vector (fun i => opcodeOf i == op && bits (iw i 6) 4 4 == func) fun t i =>
      t.commitVec a i (runVec (t.ash a) i))

/-! ### Decode (R229, R232, R233, R237, R246) -/

/-- Whether an operand format pairs with a compute format (R232). -/
def operandPairs (cf : Nat) (c : Conv) : Bool :=
  match cf with
  | 0 => true
  | 1 => fmtIsFloat c.fmt || c.fmt == 10 || c.fmt == 11
  | 2 => fmtIsFloat c.fmt || c.fmt == 10 || c.fmt == 11
  | 10 => (c.fmt == 10 || c.fmt == 11) && c.blk == 0
  | _ => (10 ≤ c.fmt && c.fmt ≤ 14) && c.blk == 0

/-- Whether a destination format pairs with a compute format (R232). -/
def destPairs (cf : Nat) (c : Conv) : Bool :=
  match cf with
  | 0 => true
  | 1 => c.fmt == 1 || c.fmt == 0
  | 2 => c.fmt == 2 || c.fmt == 0
  | 10 => (c.fmt == 10 || c.fmt == 12) && c.blk == 0
  | _ => (c.fmt == 10 || (12 ≤ c.fmt && c.fmt ≤ 14)) && c.blk == 0

/-- Whether the opcode is defined for the compute format (R233). -/
def opDefined (op cf : Nat) : Bool :=
  let floating := vecFloat cf
  (1 ≤ op && op ≤ 0x0C && (op != 0x09 || floating)) || (op == 0x0D && floating)
    || (0x0E ≤ op && op ≤ 0x13 && !floating) || ((op == 0x18 || (0x1A ≤ op && op ≤ 0x1C)) && (cf == 0 || cf == 12))
    || (op == 0x19 && cf == 0) || op == 0x20 || op == 0x21 || (0x24 ≤ op && op ≤ 0x26)

/-- Largest FUNC code of an opcode (R233). -/
def funcMax (op : Nat) : Nat :=
  match op with
  | 0x0C => 5
  | 0x0D => 11
  | 0x26 => 6
  | _ => 0

/-- Operations that use b (R233). -/
def usesB (op : Nat) : Bool :=
  (1 ≤ op && op ≤ 6) || op == 0x09 || op == 0x0B || op == 0x0C || (0x0E ≤ op && op ≤ 0x13)

/-- Whether a reserved body bit is not 0 (R234). -/
def vecReserved (i : EngInstr) : Bool :=
  bits (iw i 6) 23 9 != 0 || bits (iw i 8) 28 4 != 0 || bits (iw i 9) 26 6 != 0
    || (vecLong i && (bits (iw i 12) 26 6 != 0 || bits (iw i 13) 26 6 != 0 || bits (iw i 14) 26 6 != 0
      || bits (iw i 15) 24 8 != 0))

/-- The further decode conditions of the vector engine but for OPTUPD: true where one fails (R237). DEDUCED (log 50): the
formats of R232 are those of the operands and the destination an instruction has, so CONV_B is paired only where b is a
tensor, and CONV_D, with MERGE, judged only where the instruction has a destination in the scratchpad, as CMP and a reduction
to a register have not. DESIGN CHOICE (log 204): the destination that FMA reads as c pairs as a destination alone. -/
def vectorIllegal (i : EngInstr) : Bool :=
  let m := vecOf i
  let op := m.op
  let maskOp := 0x24 ≤ op && op ≤ 0x26
  let pack := op == 0x20 || op == 0x21
  let red := vecReduces op
  let dest := !maskOp && op != 0x0C && !(red && m.rdst != 0)
  !(m.cf ≤ 2 || m.cf == 10 || m.cf == 12) || !opDefined op m.cf || decide (funcMax op < m.func) || vecReserved i
    || convBad (bits (iw i 7) 0 16) || convBad (bits (iw i 7) 16 16) || convBad (bits (iw i 8) 0 16)
    || (!maskOp && (!operandPairs m.cf m.ca || (m.bsrc == 0 && !operandPairs m.cf m.cb)))
    || (dest && (!destPairs m.cf m.cd || (m.merge && m.cd.blk != 0)))
    || m.n0 == 0 || decide (4096 < m.n0) || decide (m.n0 < m.e0) || decide (m.n1 < m.e1)
    || m.bsrc == 3 || (m.bsrc == 0 && !usesB op) || (m.bsrc == 2 && usesB op)
    || (m.csrc && op != 0x04)
    || m.mask == 3 || (m.mask != 0 && (op == 0x0B || maskOp)) || (m.mask == 0 && pack)
    || (!(masksRead i ++ masksWritten i).isEmpty && decide (4096 < m.n0 * m.n1))
    || (op == 0x0C && decide (1 < m.n2))
    || (pack && (m.ca.blk != 0 || m.cd.blk != 0))
    || (m.rdst != 0 && !red && !pack)
    || (red && m.rdst != 0 && rangeLen (irange i 2) != 0)
    || (op == 0x1C && m.rdst == 0 && (m.cd.fmt != 12 || m.cd.blk != 0))

/-! ### The commands -/

/-- ADD: a + b. -/
def execVecAdd (a : Ash) (s : State) : Host.Outcome State Fault Refusal := vecTurn s a 0x1 0

/-- SUB: a − b. -/
def execVecSub (a : Ash) (s : State) : Host.Outcome State Fault Refusal := vecTurn s a 0x2 0

/-- MUL: a · b. -/
def execVecMul (a : Ash) (s : State) : Host.Outcome State Fault Refusal := vecTurn s a 0x3 0

/-- FMA: a · b + c with one rounding. -/
def execVecFma (a : Ash) (s : State) : Host.Outcome State Fault Refusal := vecTurn s a 0x4 0

/-- MIN: the minimum of R212. -/
def execVecMin (a : Ash) (s : State) : Host.Outcome State Fault Refusal := vecTurn s a 0x5 0

/-- MAX: the maximum of R212. -/
def execVecMax (a : Ash) (s : State) : Host.Outcome State Fault Refusal := vecTurn s a 0x6 0

/-- ABS: |a|. -/
def execVecAbs (a : Ash) (s : State) : Host.Outcome State Fault Refusal := vecTurn s a 0x7 0

/-- NEG: −a. -/
def execVecNeg (a : Ash) (s : State) : Host.Outcome State Fault Refusal := vecTurn s a 0x8 0

/-- CPSGN: a with the sign of b. -/
def execCpsgn (a : Ash) (s : State) : Host.Outcome State Fault Refusal := vecTurn s a 0x9 0

/-- CVT: a, converted in the store path. -/
def execCvt (a : Ash) (s : State) : Host.Outcome State Fault Refusal := vecTurn s a 0xa 0

/-- SEL: a where the mask bit is 1, else b. -/
def execSel (a : Ash) (s : State) : Host.Outcome State Fault Refusal := vecTurn s a 0xb 0

/-- CMP LT: mask bits of the comparison (R240). -/
def execCmpLt (a : Ash) (s : State) : Host.Outcome State Fault Refusal := vecTurn s a 0xc 0

/-- CMP LE: mask bits of the comparison (R240). -/
def execCmpLe (a : Ash) (s : State) : Host.Outcome State Fault Refusal := vecTurn s a 0xc 1

/-- CMP EQ: mask bits of the comparison (R240). -/
def execCmpEq (a : Ash) (s : State) : Host.Outcome State Fault Refusal := vecTurn s a 0xc 2

/-- CMP NE: mask bits of the comparison (R240). -/
def execCmpNe (a : Ash) (s : State) : Host.Outcome State Fault Refusal := vecTurn s a 0xc 3

/-- CMP GT: mask bits of the comparison (R240). -/
def execCmpGt (a : Ash) (s : State) : Host.Outcome State Fault Refusal := vecTurn s a 0xc 4

/-- CMP GE: mask bits of the comparison (R240). -/
def execCmpGe (a : Ash) (s : State) : Host.Outcome State Fault Refusal := vecTurn s a 0xc 5

/-- FN EXP: the function of a · S1 + S2 (R243). -/
def execFnExp (a : Ash) (s : State) : Host.Outcome State Fault Refusal := vecTurn s a 0xd 0

/-- FN EXP2: the function of a · S1 + S2 (R243). -/
def execFnExp2 (a : Ash) (s : State) : Host.Outcome State Fault Refusal := vecTurn s a 0xd 1

/-- FN LN: the function of a · S1 + S2 (R243). -/
def execFnLn (a : Ash) (s : State) : Host.Outcome State Fault Refusal := vecTurn s a 0xd 2

/-- FN LOG2: the function of a · S1 + S2 (R243). -/
def execFnLog2 (a : Ash) (s : State) : Host.Outcome State Fault Refusal := vecTurn s a 0xd 3

/-- FN RECIP: the function of a · S1 + S2 (R243). -/
def execFnRecip (a : Ash) (s : State) : Host.Outcome State Fault Refusal := vecTurn s a 0xd 4

/-- FN SQRT: the function of a · S1 + S2 (R243). -/
def execFnSqrt (a : Ash) (s : State) : Host.Outcome State Fault Refusal := vecTurn s a 0xd 5

/-- FN RSQRT: the function of a · S1 + S2 (R243). -/
def execFnRsqrt (a : Ash) (s : State) : Host.Outcome State Fault Refusal := vecTurn s a 0xd 6

/-- FN TANH: the function of a · S1 + S2 (R243). -/
def execFnTanh (a : Ash) (s : State) : Host.Outcome State Fault Refusal := vecTurn s a 0xd 7

/-- FN SIGMOID: the function of a · S1 + S2 (R243). -/
def execFnSigmoid (a : Ash) (s : State) : Host.Outcome State Fault Refusal := vecTurn s a 0xd 8

/-- FN SILU: the function of a · S1 + S2 (R243). -/
def execFnSilu (a : Ash) (s : State) : Host.Outcome State Fault Refusal := vecTurn s a 0xd 9

/-- FN GELU: the function of a · S1 + S2 (R243). -/
def execFnGelu (a : Ash) (s : State) : Host.Outcome State Fault Refusal := vecTurn s a 0xd 10

/-- FN SOFTPLUS: the function of a · S1 + S2 (R243). -/
def execFnSoftplus (a : Ash) (s : State) : Host.Outcome State Fault Refusal := vecTurn s a 0xd 11

/-- AND: bitwise AND. -/
def execVecAnd (a : Ash) (s : State) : Host.Outcome State Fault Refusal := vecTurn s a 0xe 0

/-- OR: bitwise OR. -/
def execVecOr (a : Ash) (s : State) : Host.Outcome State Fault Refusal := vecTurn s a 0xf 0

/-- XOR: bitwise XOR. -/
def execVecXor (a : Ash) (s : State) : Host.Outcome State Fault Refusal := vecTurn s a 0x10 0

/-- SHL: shift left. -/
def execShl (a : Ash) (s : State) : Host.Outcome State Fault Refusal := vecTurn s a 0x11 0

/-- SHR: logical shift right. -/
def execShr (a : Ash) (s : State) : Host.Outcome State Fault Refusal := vecTurn s a 0x12 0

/-- SRA: arithmetic shift right. -/
def execVecSra (a : Ash) (s : State) : Host.Outcome State Fault Refusal := vecTurn s a 0x13 0

/-- RSUM: sum of each row (R244). -/
def execRsum (a : Ash) (s : State) : Host.Outcome State Fault Refusal := vecTurn s a 0x18 0

/-- RSSQ: sum of squares of each row (R244). -/
def execRssq (a : Ash) (s : State) : Host.Outcome State Fault Refusal := vecTurn s a 0x19 0

/-- RMAX: maximum of each row (R244). -/
def execRmax (a : Ash) (s : State) : Host.Outcome State Fault Refusal := vecTurn s a 0x1a 0

/-- RMIN: minimum of each row (R244). -/
def execRmin (a : Ash) (s : State) : Host.Outcome State Fault Refusal := vecTurn s a 0x1b 0

/-- RAMAX: index of each row's maximum (R246). -/
def execRamax (a : Ash) (s : State) : Host.Outcome State Fault Refusal := vecTurn s a 0x1c 0

/-- COMPRESS: active elements packed (R248). -/
def execCompress (a : Ash) (s : State) : Host.Outcome State Fault Refusal := vecTurn s a 0x20 0

/-- EXPAND: elements unpacked into active positions (R249). -/
def execExpand (a : Ash) (s : State) : Host.Outcome State Fault Refusal := vecTurn s a 0x21 0

/-- MLOAD: a mask buffer from a bit stream (R240). -/
def execMload (a : Ash) (s : State) : Host.Outcome State Fault Refusal := vecTurn s a 0x24 0

/-- MSTORE: a mask buffer to a bit stream (R240). -/
def execMstore (a : Ash) (s : State) : Host.Outcome State Fault Refusal := vecTurn s a 0x25 0

/-- MLOGIC AND: logic on mask buffers (R240). -/
def execMlogicAnd (a : Ash) (s : State) : Host.Outcome State Fault Refusal := vecTurn s a 0x26 0

/-- MLOGIC OR: logic on mask buffers (R240). -/
def execMlogicOr (a : Ash) (s : State) : Host.Outcome State Fault Refusal := vecTurn s a 0x26 1

/-- MLOGIC XOR: logic on mask buffers (R240). -/
def execMlogicXor (a : Ash) (s : State) : Host.Outcome State Fault Refusal := vecTurn s a 0x26 2

/-- MLOGIC ANDN: logic on mask buffers (R240). -/
def execMlogicAndn (a : Ash) (s : State) : Host.Outcome State Fault Refusal := vecTurn s a 0x26 3

/-- MLOGIC NOT: logic on mask buffers (R240). -/
def execMlogicNot (a : Ash) (s : State) : Host.Outcome State Fault Refusal := vecTurn s a 0x26 4

/-- MLOGIC SET: logic on mask buffers (R240). -/
def execMlogicSet (a : Ash) (s : State) : Host.Outcome State Fault Refusal := vecTurn s a 0x26 5

/-- MLOGIC CLEAR: logic on mask buffers (R240). -/
def execMlogicClear (a : Ash) (s : State) : Host.Outcome State Fault Refusal := vecTurn s a 0x26 6

end Sys2Proof.Machine
end

