-- ==== Sys2Proof/Machine/Derive.lean ====
section
/-! DEFINITION. The derive phase of a publish: rows of serving tiles quantised from the training copy, and their reports (R44,
R457, R461). -/

namespace Sys2Proof.Machine

/-! ### A row read and quantised (R457) -/

/-- A row derived: its place and its words. -/
structure DerivedRow where
  xr : Nat
  yr : Nat
  word : Nat
  words : List Nat
  deriving DecidableEq, Repr

/-- Sums of a report record as they run (R461). -/
structure DeriveSums where
  blocks : Nat
  sat : Nat
  nan : Nat
  sse : Option Val
  ssr : Option Val
  worst : Option Val
  deriving DecidableEq, Repr

def DeriveSums.none : DeriveSums := ⟨0, 0, 0, .none, .none, .none⟩

/-- The block by which a deriving ashlar reads and writes the tiers: its die's, class T. -/
def deriveAgent (s : State) (a : Ash) : Agent := ⟨a.die, ashDest s a, .request⟩

/-- Words of a training tensor, one after another; none where one cannot be read. -/
def deriveRead (g : Agent) (job : Half) (handle : BitVec 20) : List Nat → State → Option (List (Nat × Nat)) × State
  | [], s => (some [], s)
  | w :: rest, s =>
    match accessWords s g job handle w 1 with
    | (.data [x], t) =>
      let r := deriveRead g job handle rest t
      (r.1.map fun l => (w, x.toNat) :: l, r.2)
    | (_, t) => (none, t)

/-- The training values of a row from the words read. -/
def deriveValues (r : DeriveRow) (fp32 : Bool) (ws : List (Nat × Nat)) : List Nat :=
  r.src.map fun o => bitsAt ws (8 * o) (if fp32 then 32 else 16)

/-- The conversions of a row: from the training copy, and to the tile by RNE (R457). -/
def deriveFrom (fp32 : Bool) : Conv := ⟨if fp32 then 0 else 1, 0, .rne, 0⟩
def deriveConv (r : DeriveRow) : Conv := ⟨r.fmt, r.blk, .rne, 0⟩

/-- A row quantised from the codes of its training values (R203): its codes, its scales and its counts. -/
def deriveQuantise (r : DeriveRow) (fp32 : Bool) (codes : List Nat) : List Nat × List Nat × RowCounts :=
  let c := deriveFrom fp32
  let src := (packCodes c.width codes (c.dataWords r.n)).zipIdx.map fun q => (q.2, q.1.toNat)
  convertRow c (deriveConv r) r.n (min r.valid r.n) 0 false src (fun _ => 0) .st

/-- The words of a row in the layout of its tile. -/
def deriveLayout (r : DeriveRow) (q : List Nat × List Nat × RowCounts) : List Nat :=
  let b := rowBits (deriveConv r) r.n q.1 q.2.1
  (List.range ((deriveConv r).rowWords r.n)).map fun k => b.data / 2 ^ (64 * k) % 2 ^ 64

/-! ### The report (R461) -/

/-- A reduction of the report over FP32 values (R244): op 0x19 is RSSQ, 0x1A RMAX. -/
def deriveVec (op e0 : Nat) : Vec where
  op := op
  cf := 0
  func := 0
  bsrc := 0
  csrc := false
  merge := false
  mask := 0
  mreg := 0
  mdst := 0
  rdst := 1
  ca := ⟨0, 0, .rne, 0⟩
  cb := ⟨0, 0, .rne, 0⟩
  cd := ⟨0, 0, .rne, 0⟩
  n0 := e0
  n1 := 1
  n2 := 1
  e0 := e0
  e1 := 1
  s1 := 0
  s2 := 0
  long := false

/-- A row's result joined to the rows before it (R245). -/
def deriveJoin (op e0 : Nat) (acc : Option Val) (xs : List (Option Val)) : Option Val :=
  let m := deriveVec op e0
  let v := rowReduce m xs
  some (match acc with
    | none => v
    | some p => vecCombine m p v)

/-- A row's part of the report: elements within the extent, those of NaN blocks left out. -/
def deriveSums (r : DeriveRow) (fp32 : Bool) (codes : List Nat) (q : List Nat × List Nat × RowCounts) (x : DeriveSums) :
    DeriveSums :=
  let bs := (deriveConv r).bs
  let e0 := min r.valid r.n
  let scale := fun (e : Nat) => q.2.1.getD (e / bs) 127
  let use := fun (e : Nat) => bs == 0 || scale e != 0xFF
  let ref := fun (e : Nat) => elem (deriveFrom fp32).fmt (codes.getD e 0)
  let val := fun (e : Nat) => if bs = 0 then elem r.fmt (q.1.getD e 0) else scaledElem r.fmt (q.1.getD e 0) (scale e)
  let kept := fun (f : Nat → Val) => (List.range e0).map fun e => if use e then some (f e) else none
  let err := fun (e : Nat) => rne32 ((val e).sub (ref e))
  ⟨x.blocks + (if bs = 0 then 0 else ceilDiv e0 bs), x.sat + (q.2.2.blocks.filter (· == .st)).length,
    x.nan + (q.2.2.blocks.filter (· == .nan)).length, deriveJoin 0x19 e0 x.sse (kept err),
    deriveJoin 0x19 e0 x.ssr (kept ref), deriveJoin 0x1A e0 x.worst (kept fun e => (err e).abs)⟩

/-- The record of a serving tensor. -/
def deriveRecord (d : DeriveTensor) (version : Half) (x : DeriveSums) : List DWord :=
  let code := fun (v : Option Val) => (rne32Code (v.getD Val.zero)).toNat
  let pair := fun (lo hi : Nat) => BitVec.ofNat 64 (lo % 2 ^ 32 + hi % 2 ^ 32 * 2 ^ 32)
  [pair d.tensor x.blocks, pair x.sat x.nan, pair (code x.sse) (code x.ssr), pair (code x.worst) version.toNat]

/-! ### The derive phase -/

/-- A tensor's rows derived, their counts left with the deriving ashlar for its slot (R215). -/
def deriveRows (job : Half) (d : DeriveTensor) : List DeriveRow → DeriveSums → State →
    Option (List DerivedRow × DeriveSums) × State
  | [], x, s => (some ([], x), s)
  | r :: rest, x, s =>
    match deriveRead (deriveAgent s d.ash) job r.handle ((r.src.map fun o => o / 8).eraseDups) s with
    | (none, t) => (none, t)
    | (some ws, t) =>
      let codes := deriveValues r d.fp32 ws
      let q := deriveQuantise r d.fp32 codes
      let t := t.onAsh d.ash fun v => { v with satOut := v.satOut ++ q.2.2.blocks }
      let y := deriveRows job d rest (deriveSums r d.fp32 codes q x) t
      (y.1.map fun z => (⟨r.xr, r.yr, r.word, deriveLayout r q⟩ :: z.1, z.2), y.2)

/-- Every tensor of a version derived and reported; none where the training copy cannot be read or a report not written. -/
def deriveAll (job version : Half) : List DeriveTensor → State → Option (List DerivedRow) × State
  | [], s => (some [], s)
  | d :: rest, s =>
    match deriveRows job d d.rows DeriveSums.none s with
    | (none, t) => (none, t)
    | (some z, t) =>
      match accessPut (deriveAgent t d.ash) job d.report 2 d.record (deriveRecord d version z.2) t with
      | (.data _, _, u) => let y := deriveAll job version rest u; (y.1.map fun l => z.1 ++ l, y.2)
      | (_, _, u) => (none, u)

/-! ### The staged copy -/

/-- The value a derivation gives a scratchpad word of an ashlar of the bay. -/
def derivedWord (rows : List DerivedRow) (xr yr w : Nat) : Option Nat :=
  (rows.find? fun r => r.xr == xr && r.yr == yr && decide (r.word ≤ w) && decide (w < r.word + r.words.length)).bind fun r =>
    r.words[w - r.word]?

/-- The words of a run with those of derived rows in its scratchpad frames: `left` words of the frame under way, the next of them
scratchpad word `w` where `spad` says so. -/
def patchWords (put : Nat → Option Nat) : List DWord → Nat → Nat → Bool → List DWord
  | [], _, _, _ => []
  | h :: rest, 0, _, _ => h :: patchWords put rest (dbits h 18 13) (dbits h 5 13) (dbits h 0 3 == 0)
  | x :: rest, left + 1, w, spad =>
    (match (if spad then put w else none) with
     | some v => BitVec.ofNat 64 v
     | none => x) :: patchWords put rest left (w + 1) spad

/-- A run with its derived words and its new check value. -/
def patchRun (rows : List DerivedRow) (r : AshRun) : AshRun :=
  let ws := patchWords (derivedWord rows r.xr r.yr) r.words 0 0 false
  { r with words := ws, rcrc := crc32 (runBytes ws) }

end Sys2Proof.Machine
end

