-- ==== Sys2Proof/Machine/Fuses.lean ====
section
/-! DEFINITION. The fuses (R589, R590, R691, R692): advancing the anti-rollback counter, step by step, and revoking a key slot. -/

namespace Sys2Proof.Machine

def fuseBusy (s : State) : Bool := s.fld .fus 0x7C 11 1 == 1

/-- RESULT of FUS.CMD. -/
def fuseResult (s : State) (r : Nat) : State := s.setFld .fus 0x7C 12 3 r

/-- An advance to a target: refused where it is not above the counter or above 64, else begun. -/
def startAdvance (s : State) (goal : Nat) : State :=
  if goal ≤ s.fuses.rollback ∨ 64 < goal then fuseResult s 2
  else (s.setFld .fus 0x7C 0 7 goal).setFld .fus 0x7C 11 1 1

/-- A key slot revoked: not the one that signs the cornerstone image, nor one revoked before. -/
def revokeSlot (s : State) (slot : Nat) : State :=
  if s.flash.cornerstone.hdr.keyIdx.toNat = slot ∨ s.fuses.revoked.getLsbD slot then fuseResult s 3
  else fuseResult { s with fuses := { s.fuses with revoked := s.fuses.revoked ||| 1 <<< slot } } 0

/-- A write to FUS.CMD (R692): ADVANCE and REVOKE act for the Mason alone. -/
def fusCmdWrite (s : State) (w : Writer) (v : Word) : State :=
  if fuseBusy s || (bit v 7 && bit v 10) then s.record .fus evErrAccess 0
  else
    let t := plainWrite s .fus 0x7C v
    if !bit v 7 && !bit v 10 then t
    else if w ≠ .mason then fuseResult t 1
    else if bit v 7 then startAdvance t (bits v 0 7)
    else revokeSlot t (bits v 8 2)

/-- FUSE_ADVANCE (R692). -/
def execFuseAdvance (w : Writer) (target : Nat) (s : State) : Host.Outcome State Fault Refusal :=
  atModule s (fusCmdWrite s w (setBits (setBits (setBits (s.reg .fus 0x7C) 0 7 target) 7 1 1) 10 1 0))

/-- FUSE_REVOKE (R692). -/
def execFuseRevoke (w : Writer) (slot : Nat) (s : State) : Host.Outcome State Fault Refusal :=
  atModule s (fusCmdWrite s w (setBits (setBits (setBits (s.reg .fus 0x7C) 8 2 slot) 7 1 0) 10 1 1))

/-- The next advance that waits and is still above the counter (R590). -/
def nextAdvance (s : State) : State :=
  let l := s.mas.advances.filter fun n => decide (s.fuses.rollback < n) && decide (n ≤ 64)
  match l with
  | [] => s.onMas fun m => { m with advances := [] }
  | n :: r => startAdvance (s.onMas fun m => { m with advances := r }) n

/-- One fuse step blown; the last one ends the advance with FUSE_ADVANCE. -/
def fuseStep (s : State) : State :=
  if !fuseBusy s then s
  else
    let t := { s with fuses := { s.fuses with rollback := s.fuses.rollback + 1 } }
    if t.fuses.rollback < t.fld .fus 0x7C 0 7 then t
    else nextAdvance ((fuseResult (t.setFld .fus 0x7C 11 1 0) 0).raise .fus evFuseAdvance 0)

/-- FUSE_STEP (R692). -/
def execFuseStep (s : State) : Host.Outcome State Fault Refusal := atModule s (fuseStep s)

/-- An image that has taken effect and asks for an advance beyond the counter (R590). -/
def advanceFor (s : State) (h : ImgHeader) : State :=
  if !h.advance ∨ h.svn ≤ s.fuses.rollback then s
  else if fuseBusy s then s.onMas fun m => { m with advances := m.advances ++ [h.svn] }
  else startAdvance s h.svn

end Sys2Proof.Machine
end

