-- ==== Sys2Proof/Machine/Loader.lean ====
section
/-! DEFINITION. Loading a bay (R487, R604 to R612): what an ashlar's configuration port does with an order, the steps the Mason
takes, relocation, and the end of a load. -/

namespace Sys2Proof.Machine

/-! ### Orders at an ashlar's port (R605) -/

/-- The 512-byte lines that hold the words of a run. -/
def PortLoad.lines (o : PortLoad) : Nat := if o.words = 0 then 0 else (o.off / 8 % 64 + o.words + 63) / 64

/-- Line k of a run: the byte offset of its first word in the frame, and its words. -/
def PortLoad.line (o : PortLoad) (k : Nat) : Nat × Nat :=
  let w := o.off / 8
  let first := if k = 0 then w else (w / 64 + k) * 64
  (8 * first + o.off % 8, min (w + o.words) ((w / 64 + k + 1) * 64) - first)

/-- The words that have come, up to the first line that has not. -/
def PortLoad.come (o : PortLoad) : List DWord :=
  (((List.range o.lines).map fun k => (o.got.find? fun e => e.1 == k).map fun e => e.2).takeWhile Option.isSome).flatMap
    fun l => l.getD []

/-- The standby bank with one 64-bit word written. -/
def standbyWord (j : Joiner) (w : Nat) (v : DWord) : Joiner :=
  let put := fun (m : Mem) => halfStore (halfStore m (2 * w) (v.toNat % 2 ^ 32)) (2 * w + 1) (v.toNat / 2 ^ 32)
  if j.active then { j with bank0 := put j.bank0 } else { j with bank1 := put j.bank1 }

/-- One payload word of a frame applied, where its place exists (R600). -/
def applyWord (s : State) (a : Ash) (space cls w : Nat) (v : DWord) : State :=
  match space with
  | 0 => if w < 6144 ∧ cls ≠ 3 then s.onAsh a fun x => storeWord x w v.toNat (classCheck cls v.toNat) else s
  | 1 =>
    if w < 512 then s.onJ a fun j => { j with
      dmem := halfStore (halfStore j.dmem (2 * w) (v.toNat % 2 ^ 32)) (2 * w + 1) (v.toNat / 2 ^ 32) }
    else s
  | 2 => if w < 1024 then s.onJ a fun j => standbyWord j w v else s
  | 3 => if imageWritable (dbits v 32 12) (dbits v 0 32) then writeReg s (.ash a) (dbits v 32 12) (v.setWidth 32) else s
  | 4 =>
    let k := dbits v 32 8
    if k < 0x40 then s.onAsh a fun x => x.setChan (k / 4) (setEntryWord (x.chan (k / 4)) (k % 4) (v.setWidth 32)) else s
  | _ => s

/-- A payload word with its place: SPACE, CLASS, word. -/
structure PutWord where
  space : Nat
  cls : Nat
  at' : Nat
  val : DWord
  deriving DecidableEq, Repr

def frameWords (f : CfgFrame) : List PutWord := f.words.zipIdx.map fun q => ⟨f.space, f.cls, f.start + q.2, q.1⟩

/-- The banks exchanged by the port after the last frame (R605). -/
def exchangeBanks (j : Joiner) : Joiner := { j with active := !j.active, armed := false, pc := j.entry, bkptPass := false }

/-- The frames of what has come of a run, a frame cut short included. -/
def arrivedFrames (ws : List DWord) : List CfgFrame :=
  let x := framesOf ws
  match x.2 with
  | h :: r => x.1 ++ [⟨dbits h 0 3, dbits h 3 2, dbits h 5 13, r⟩]
  | [] => x.1

/-- The frames of a run applied in order as far as its lines have come; a context record is applied when it is whole. -/
def portApply (s : State) (a : Ash) (o : PortLoad) : State :=
  if o.context then s
  else
    let ws := (arrivedFrames o.come).flatMap frameWords
    let t := (ws.drop o.applied).foldl (fun u w => applyWord u a w.space w.cls w.at' w.val) s
    t.onAsh a fun v => { v with port := some { o with applied := ws.length } }

/-- A line asked of its controller: class M on VC3 (R605); one that names a die the part has not is refused. -/
def portAsk (s : State) (a : Ash) (o : PortLoad) (k : Nat) : State :=
  let l := o.line k
  let v := s.ash a
  let dst := ctlDest (fdDie o.fd) (ctlOf (fdTier o.fd) l.1)
  let t := s.onAsh a fun x => { x with portTag := x.portTag + 1, port := some { o with out := o.out ++ [(v.portTag, k)] } }
  if destMissing s dst then portEnd t a 2
  else t.send ⟨3, dst, ashDest s a, false, .mread ⟨v.portTag, BitVec.ofNat 21 l.1, BitVec.ofNat 6 (l.2 - 1), o.fd⟩⟩

/-- Further lines asked for, with up to eight requests in flight. -/
def portFill (a : Ash) : Nat → State → State
  | 0, s => s
  | n + 1, s =>
    match (s.ash a).port with
    | some o =>
      if o.asked < o.lines ∧ o.out.length < 8 then portFill a n (portAsk s a { o with asked := o.asked + 1 } o.asked) else s
    | none => s

/-- A run that has come whole: its banks exchanged where it wrote instructions, or its record restored, its CRC-32 checked and the
order answered (R605). -/
def portWhole (s : State) (a : Ash) (o : PortLoad) : State :=
  let ws := o.come
  let t :=
    if o.context then restoreRecord s a (fun i => (ws.getD i 0).toNat)
    else if (framesOf ws).1.any fun f => f.space == 2 then s.onJ a exchangeBanks else s
  portEnd t a (if crc32 (runBytes ws) = o.crc then 0 else 1)

/-- A LOAD_ORDER at an ashlar's port: refused with status 3 where the ashlar is not frozen or an earlier order runs (R605,
R612). -/
def portStart (s : State) (a : Ash) (p : Packet) (tag : BitVec 7) (fd : Word) (off len : Nat) (crc : Word) (context : Bool) :
    State :=
  if !(s.ash a).frozen || (s.ash a).port.isSome then s.send (answer p (.scaf tag (.loadDone 3)))
  else
    let o : PortLoad := ⟨p, tag, fd, off, len / 8, crc, context, 0, [], [], 0⟩
    let t := s.onAsh a fun v => { v with port := some o }
    if o.lines = 0 then portWhole t a o else portFill a 8 t

/-- A record's lines written in T1 (R486, R605): a line refused ends it. -/
def saveLines (fd : Word) (off : Nat) (rec : Record) : Nat → Nat → State → TierStatus × State
  | 0, _, s => (.ok, s)
  | n + 1, line, s =>
    let die := fdDie fd
    let at' := off + 512 * line
    let c := ctlOf (fdTier fd) at'
    let st := requestStatus s die c fd at' 64
    if st ≠ .ok then (st, s.turnAway die c st)
    else
      let t := (rec.filter fun e => e.1 / 64 == line).foldl (fun u e =>
        u.tierWrite die (fdTier fd) (fdFrame fd) (off / 8 + e.1) [BitVec.ofNat 64 e.2] []) s
      saveLines fd off rec n (line + 1) t

/-- A SAVE_ORDER at an ashlar's port: its SAVE_DONE status and the state after it; none while the tier answers MOVED. -/
def saveAtPort (s : State) (a : Ash) (fd : Word) (off : Nat) : Option (BitVec 4 × State) :=
  if (s.ash a).port.isSome then some (3, s)
  else
  let r := saveLines fd off (saveRecord s a) 128 0 s
  match r.1 with
  | .moved => none
  | .ok => some (0, r.2)
  | _ => some (2, r.2)

/-! ### Clearing ashlars and freeing a job (R496, R611) -/

/-- Ashlars cleared: frozen, flushed, soft reset, without a context, then let go. -/
def clearAshlars (s : State) (l : List Ash) : State :=
  thawAll (contextAll (softResetAll (flushAll (freezeAll s l) l) l) l 0) l

/-- The rectangle a member was moved from given up: cleared behind its fence, but for what the new one takes of it, then the fence
lifted (R488). -/
def leaveOld (s : State) (id : Half) (b m : Nat) : State :=
  match s.bay id b, s.member id b m with
  | some x, some y =>
    (match y.old with
     | none => s
     | some o =>
       let here := x.ashlars s y
       let t := clearAshlars s ((rectAsh s o.die o.x o.y x.img.w x.img.h).filter fun a => !here.contains a)
       let t := if o.fence < 16 then (setFence t o.die o.fence 0).setFld (.cfgDie o.die) 0x44 o.fence 1 0 else t
       t.onMember id b m fun z => { z with old := none })
  | _, _ => s

/-- The rectangle of a member given up: cleared behind its fence, then the fence lifted. -/
def dropMember (s : State) (id : Half) (b m : Nat) : State :=
  match s.bay id b with
  | none => s
  | some x =>
    match x.members[m]? with
    | none => s
    | some y =>
      if !y.placed then s
      else
        let t := clearAshlars (fenceMember (leaveOld s id b m) id b m false) (x.ashlars s y)
        (unfenceMember t id b m).memberState id b m .unplaced

def dropMembers (s : State) (id : Half) : State :=
  match s.job id with
  | none => s
  | some j =>
    (j.bays.zipIdx.flatMap fun b => (List.range b.1.members.length).map fun m => (b.2, m)).foldl
      (fun t k => dropMember t id k.1 k.2) s

/-- Migrations of the frames named given up, and an ordered move of one that has not started ended as aborted (R422, R434). -/
def dropMoves (s : State) (fds : List Word) : State :=
  let same := fun (m : Word) => fds.any fun fd => fdTier fd == fdTier m && fdDie fd == fdDie m && fdFrame fd == fdFrame m
  (List.range s.part.dies).foldl (fun t d =>
    let t := ((t.die d).hod.moves.filter fun m => same m.src).foldl (fun u m => abortMove u d m) t
    if (t.die d).hod.order.any fun o => same o.src then cmdDone t d 5 else t) s

/-- Frames of every tier that hold the job's segments, and the Mason's own for it, released; its directory entry cleared; a
socket that is left with no frame in use is EMPTY (R422, R424, R426). -/
def freeFramesOf (s : State) (j : Job) : State :=
  let fds := (List.range s.part.dies).flatMap fun d => (s.die d).frames.filterMap fun e =>
    match e.2.use with
    | .seg k _ _ => if k = j.id then some (mkFd e.1.1 d e.1.2 e.2.gen.toNat) else none
    | _ => none
  let t := (fds ++ j.frames).foldl releaseFrame (dropMoves s fds)
  let t := (List.range 8).foldl (fun u k => putHalf u (directory u) (32 * j.id.toNat + 4 * k) 0) t
  let t := { t with dies := t.dies.map fun d => { d with hod := { d.hod with
    cache := d.hod.cache.filter fun e => e.1.1 != j.id } } }
  (List.range s.part.dies).foldl settleSocket t

/-- Every Plane of the module. -/
def allPlanes (s : State) : List (Nat × Ctl) := (List.range s.part.dies).flatMap fun d => allCtls.map fun c => (d, c)

/-- Plane descriptors and reduction contexts that name a job made invalid, where they may be written (R446, R452, R561, R578). -/
def freeEngines (s : State) (id : Half) : State :=
  let t := (allPlanes s).foldl (fun t q => (List.range 64).foldl (fun u n =>
    let x := (u.plane q.1 q.2).desc n
    if x.valid ∧ x.job = id then putDesc u q.1 q.2 n x { x with regs := x.regs.set 0 (setBits (x.word 0) 15 1 0) } else u) t) s
  (List.range s.part.dies).foldl (fun t d => (List.range 16).foldl (fun u c =>
    let x := u.red d c
    if bits (x.word 0) 16 16 = id.toNat ∧ x.valid then putRed u d c { x with regs := x.regs.set 0 (setBits (x.word 0) 0 1 0) }
    else u) t) t

/-- A bay's keys taken out of its port's table, its routes no longer LIVE or VALID, its group SILENT. -/
def quietBay (s : State) (b : Bay) : State :=
  let t := (List.range b.members.length).foldl (fun u m => setLive u b m false) s
  let t := if (b.portDie s).isSome then writeGroup t b [] else t
  match b.portDie s with
  | none => t
  | some d => t.onIng d fun g => { g with
      routes := g.routes.map fun r =>
        if (List.range b.members.length).any fun m => r.feeds b m then { r with entry := { r.entry with valid := false } } else r
      table := g.table.filter fun e =>
        !(b.slots.any fun x => match x with
          | .live _ k => k == e.key
          | _ => false) }

/-- The publish of a job that goes ends with it, refused. -/
def dropPublish (s : State) (p : Publish) : State :=
  let t := s.onMas fun m => { m with publish := none }
  match p.tag with
  | some w => refused t w
  | none => t

/-- A job gone: its output quiet, its ashlars and frames free (R496). -/
def freeJob (s : State) (id : Half) : State :=
  match s.job id with
  | none => s
  | some j =>
    let t := if j.clsT then s else j.bays.foldl quietBay s
    let t := dropMembers t id
    let t := freeEngines (freeFramesOf t j) id
    let t := match t.mas.publish with
      | some p => if p.job = id then (dropPublish t p) else t
      | none => t
    t.onMas fun m => { m with jobs := m.jobs.filter fun x => x.id != id, loads := m.loads.filter fun q => q.job != id }

/-! ### Relocation (R470 to R473) -/

/-- The coordinate word of a destination, its peg bits those of `old` (R122). -/
def coordWord (old : Nat) (d : Dest) : Nat := old % 64 + destX d * 64 + destY d * 2 ^ 15

/-- imm16 of an instruction under FORM 1 or 2: the peg bits of the low half stay (R470, R471). -/
def relocImm (form old : Nat) (d : Dest) : Nat := if form = 1 then coordWord 0 d / 2 ^ 16 else coordWord old d % 2 ^ 16

/-- The X and Y fields of a coordinate word replaced. -/
def relocXY (w : Nat) (d : Dest) : Nat := w - w / 64 % 2 ^ 17 * 64 + (destX d * 64 + destY d * 2 ^ 15)

/-- One record of a member applied where its symbol has a place: an ashlar's site, with the epoch of the window a channel
names (R328), or a descriptor in every Plane. -/
def relocSite (s : State) (a : Ash) (r : DWord) (d : Dest) : State :=
  let site := dbits r 20 11
  let form := dbits r 4 2
  match dbits r 0 4 with
  | 1 => s.onJ a fun j =>
      let fix := fun (m : Mem) =>
        let w := (halfRaw m site).1
        halfStore m site (w - w % 2 ^ 16 + relocImm form (w % 2 ^ 16) d)
      if j.active then { j with bank1 := fix j.bank1 } else { j with bank0 := fix j.bank0 }
  | 2 => s.onJ a fun j =>
      let w := (halfRaw j.dmem site).1
      { j with dmem := halfStore j.dmem site (if form = 3 then w - w % 2 ^ 17 + d.toNat else relocXY w d) }
  | 3 =>
    let e := (s.ash a).chan site
    let epoch := match ashOf s d with
      | some b => if e.kind = 0 then e.epoch else ((s.ash b).win e.win.toNat).epoch
      | none => e.epoch
    s.onAsh a fun v => v.setChan site { e with dest := d, epoch := epoch }
  | 4 => s.onAsh a fun v => v.setEp site { v.ep site with peer := d }
  | 5 =>
    (allPlanes s).foldl (fun t q =>
      let x := (t.plane q.1 q.2).desc site
      putDesc t q.1 q.2 site x { x with regs := x.regs.set 6 (BitVec.ofNat 32 (relocXY (x.word 6).toNat d)) }) s
  | _ => s

/-- An endpoint that a port feeds names the entry of its route in EPn_PEER (R518). -/
def namePeer (s : State) (b : Bay) (m : Nat) (a : Ash) (r : DWord) : State :=
  let n := dbits r 20 11 % 8
  if dbits r 0 4 = 4 ∧ dbits r 31 8 = 0xF4 then
    match (b.portDie s).bind fun d => (List.range 16).find? fun i =>
        ((s.die d).ing.route i).feeds b m && ((s.die d).ing.route i).entry.ep.toNat == n with
    | some i => s.onAsh a fun v => v.setEp n { v.ep n with pchan := BitVec.ofNat 4 i, peerValid := true }
    | none => s
  else s

/-- The records of a member that `want` picks, applied. -/
def relocMember (s : State) (j : Job) (b : Bay) (m : Nat) (y : Member) (want : DWord → Bool) : State :=
  (b.img.relocs.filter want).foldl (fun t r =>
    match symDest s j m ⟨y.die, y.x, y.y⟩ (dbits r 31 8) (dbits r 39 9) (dbits r 48 8),
        physicalRow s y.die (y.y + dbits r 13 7) with
    | some d, some row =>
      let a : Ash := ⟨y.die, y.x + dbits r 6 7, row⟩
      namePeer (relocSite t a r d) b m a r
    | _, _ => t) s

/-- Something done to ashlars while they are frozen: those that stand neither frozen nor at a task boundary are frozen for it
(R473). -/
def whileFrozen (s : State) (l : List Ash) (f : State → State) : State :=
  let busy := l.filter fun a => !contextWritable (s.ash a)
  thawAll (f (freezeAll s busy)) busy

/-- The records of a placed member (R473). -/
def relocOwn (s : State) (id : Half) (bi m : Nat) : State :=
  match s.job id, s.bay id bi, s.member id bi m with
  | some j, some b, some y => if y.placed then relocMember s j b m y (fun _ => true) else s
  | _, _, _ => s

/-- The records of a placed member, and, while their bays are frozen or at a task boundary, those of the job's other members in
place that name its bay (R473). -/
def relocate (s : State) (id : Half) (bi m : Nat) : State :=
  match s.job id with
  | none => s
  | some j =>
    let names := fun (r : DWord) => symOf j.bays.length (dbits r 31 8) == .bay bi
    let other := fun (t : State) (b : Bay) (k : Nat) =>
      match b.members[k]? with
      | some y => if y.placed ∧ b.img.relocs.any names then whileFrozen t (b.ashlars t y) fun u => relocMember u j b k y names else t
      | none => t
    j.bays.zipIdx.foldl (fun t b =>
      if b.2 = bi then t else (List.range b.1.members.length).foldl (fun u k => other u b.1 k) t) (relocOwn s id bi m)

/-! ### Starting a load (R606, R608 to R610) -/

/-- A load asked for; a recovery goes before every waiting load that is none, and before recoveries of later faults (R46, R606). -/
def queueLoad (s : State) (q : LoadReq) : State :=
  s.onMas fun m =>
    let first := fun (x : LoadReq) => x.active || (x.recovery && decide (x.faultAt ≤ q.faultAt))
    if q.recovery then { m with loads := m.loads.filter first ++ [q] ++ m.loads.filter fun x => !first x }
    else { m with loads := m.loads ++ [q] }

/-- Loads of every member of a job that is to be loaded, in bay order. -/
def queueJob (s : State) (id : Half) (restore : Bool) : State :=
  match s.job id with
  | none => s
  | some j =>
    (j.bays.zipIdx.flatMap fun b => b.1.members.zipIdx.map fun m => (b.2, m)).foldl (fun t k =>
      if k.2.1.state = .loading then queueLoad t ⟨k.2.1.die, id, k.1, k.2.2, false, restore, false, false, [], false, false, 0, 0⟩ else t) s

/-- A recovery load of a member asked for. -/
def recoverMember (s : State) (id : Half) (bi m : Nat) : State :=
  match s.member id bi m with
  | some y =>
    queueLoad (s.memberState id bi m .loading) ⟨y.die, id, bi, m, true, false, false, false, [], false, false, 0, y.faultAt⟩
  | none => s

def LoadReq.same (p q : LoadReq) : Bool := p.job == q.job && p.bay == q.bay && p.member == q.member

def State.onLoad (s : State) (q : LoadReq) (f : LoadReq → LoadReq) : State :=
  s.onMas fun m => { m with loads := m.loads.map fun x => if x.same q then f x else x }

def endLoad (s : State) (q : LoadReq) : State := s.onMas fun m => { m with loads := m.loads.filter fun x => !x.same q }

/-- Whether a waiting load may begin: a fence is free, the Keystone releases nothing, and no other member holds an ashlar of
the rectangle (R187, R612). -/
def loadReady (s : State) (q : LoadReq) : Bool :=
  match s.bay q.job q.bay, s.member q.job q.bay q.member with
  | some b, some y =>
    decide (y.fence < 16 ∨ freeFence s y.die < 16) && s.fld (.key y.die) 0x64 12 1 == 0
      && (placedMembers s).all fun z =>
        (z.1.id == q.job && z.2.1 == q.bay && z.2.2.1 == q.member) || z.2.2.2.2.die != y.die
          || !rectsMeet (b.rect y) (z.2.2.2.1.rect z.2.2.2.2)
  | _, _ => false

/-- The staged run of an ashlar of a member: frame, offset, bytes and CRC; an empty run where there is none (R599, R604). -/
def stagedRun (b : Bay) (y : Member) (xr yr : Nat) : Word × Nat × Nat × Word :=
  match b.staged.find? fun g => g.die == y.die && g.xr == xr && g.yr == yr with
  | some g => (g.fd, g.off, g.len, g.crc)
  | none => (0, 0, 0, crc32 [])

/-- The saved record of an ashlar of a member, its CRC taken from T1 (R486). -/
def savedRun (s : State) (j : Job) (bi m xr yr : Nat) : Word × Nat × Nat × Word :=
  match j.records.find? fun r => r.bay == bi && r.member == m && r.xr == xr && r.yr == yr with
  | some r =>
    let ws := (List.range 8192).map fun i =>
      BitVec.ofNat 64 (s.tierRaw (fdDie r.fd) (fdTier r.fd) (fdFrame r.fd) (r.off / 8 + i)).1
    (r.fd, r.off, 65536, crc32 (runBytes ws))
  | none => (0, 0, 0, crc32 [])

/-- The LOAD_ORDER of one ashlar of a load (R603, R610). -/
def loadOrder (s : State) (q : LoadReq) (j : Job) (b : Bay) (y : Member) (a : Ash) : Packet :=
  let xr := a.col - y.x
  let yr := (logicalRow s a.die a.row).getD 0 - y.y
  let r := if q.restore then savedRun s j q.bay q.member xr yr else stagedRun b y xr yr
  ⟨3, ashDest s a, blockDest 8 a.die 0, false,
    .scaf q.tag (.loadOrder r.1 (BitVec.ofNat 21 r.2.1) (BitVec.ofNat 17 r.2.2.1) r.2.2.2 q.restore)⟩

/-- The frame that holds a port's run now: that of its load's order as the Mason would give it, or the same (R420, R612). -/
def portFrame (s : State) (a : Ash) (o : PortLoad) : Word :=
  match s.mas.loads.find? fun q => q.active && q.tag == o.tag && q.left.contains a with
  | some q =>
    (match s.job q.job, s.bay q.job q.bay, s.member q.job q.bay q.member with
     | some j, some b, some y =>
       (match (loadOrder s q j b y a).body with
        | .scaf _ (.loadOrder fd _ _ _ _) => fd
        | _ => o.fd)
     | _, _, _ => o.fd)
  | none => o.fd

/-- An answer at a configuration port (R605): a line that came is applied in its turn and the next asked for; one answered MOVED
is asked for again where the run is now (R612); any other ends the load with status 2. -/
def portAnswer (s : State) (a : Ash) (tag : BitVec 15) (status : BitVec 2) (data : List DWord) : State :=
  match (s.ash a).port with
  | none => s
  | some o =>
    match o.out.find? fun e => e.1 == tag with
    | none => s
    | some e =>
      let o := { o with out := o.out.erase e }
      match status.toNat with
      | 0 =>
        let o := { o with got := (e.2, data) :: o.got }
        let t := portApply (s.onAsh a fun v => { v with port := some o }) a o
        if o.got.length = o.lines then portWhole t a o else portFill a 1 t
      | 1 => portAsk s a { o with fd := portFrame s a o } e.2
      | _ => portEnd s a 2

/-- The origin of a member as ASH.JBAYORG has it (R145). -/
def orgWord (s : State) (y : Member) : Word :=
  let d := Spot.dest s ⟨y.die, y.x, y.y⟩
  BitVec.ofNat 32 (destX d + destY d * 2 ^ 16)

/-- ASH.SR_SEED of a bay's ashlars: the job's seed, one for them all (R285, R610). -/
def seedAll (s : State) (l : List Ash) (seed : DWord) : State :=
  l.foldl (fun t a => t.onAsh a fun v => { v with srSeed := seed }) s

/-- RELEASE for the contexts that KEY_FAULT events of a member's ashlars have named, now that it is frozen (R187). -/
def releaseHeld (s : State) (id : Half) (bi m : Nat) : State :=
  (s.onMas fun k => { k with keyHeld := k.keyHeld.map fun x =>
    if x.job = id ∧ x.bay = bi ∧ x.member = m then { x with due := true } else x }).writeDue

/-- Steps 4 and 5 of R610. -/
def loadOrders (s : State) (q : LoadReq) : State :=
  match s.job q.job, s.bay q.job q.bay, s.member q.job q.bay q.member with
  | some j, some b, some y =>
    let l := b.ashlars s y
    let t := seedAll (contextAll s l (jobContext j)) l j.seed
    let t := l.foldl (fun u a => bayorgWrite u a (orgWord u y)) t
    let tag := s.mas.orderTag + 1
    let t := l.foldl (fun u a => u.send (loadOrder u { q with tag := tag } j b y a)) (t.onMas fun m => { m with orderTag := tag })
    t.onLoad q fun x => { x with left := l, draining := false, tag := tag }
  | _, _, _ => s

/-- Steps 3 to 5 of R610: step 3 is done when KEY.CTX_CMD.BUSY reads 0, and until then no order goes out. A load whose
release itself has to wait for BUSY names no ashlar yet. -/
def loadSteps (s : State) (q : LoadReq) : State :=
  match s.bay q.job q.bay, s.member q.job q.bay q.member with
  | some b, some y =>
    let l := b.ashlars s y
    let t := releaseHeld (softResetAll (flushAll (freezeAll s l) l) l) q.job q.bay q.member
    if keyBusy t y.die then t.onLoad q fun x => { x with active := true, left := [], failed := false, draining := true }
    else
      let t := writeReleaseRect t y.die y.fence
      let t := t.onLoad q fun x => { x with active := true, left := l, failed := false, draining := true }
      if keyBusy t y.die then t else loadOrders t q
  | _, _ => s

/-- What a die's loads do when BUSY clears: step 3 where its release is still to be written, else steps 4 and 5. -/
def loadsGoOn (s : State) (die : Nat) : State :=
  (s.mas.loads.filter fun q => q.active && q.draining && q.die == die).foldl (fun t q =>
    if q.left.isEmpty then loadSteps t q else if keyBusy t die then t else loadOrders t q) s

/-- RELEASE_DRAIN_END (R187): BUSY clears and released contexts may be taken again; a RELEASE that is due is written next, and
loads that waited for BUSY go on. -/
def execReleaseDrainEnd (die : Nat) (s : State) : Host.Outcome State Fault Refusal :=
  atDie s die <|
    if keyBusy s die then .next (loadsGoOn (keyDrained s die).writeDue die) else .next s

/-- Whether a member is loaded again because it has faulted, and not to be moved or to install a version. -/
def Member.recovering (y : Member) : Bool := y.cause != 0

/-- A load begun: the fence, with LIFT for class S; the recovery of a faulted member first writes a dump set, with the contexts of
its ashlars that hold a recorded fault (R609, R610, R629, R639). -/
def startLoad (s : State) (q : LoadReq) : State :=
  match s.job q.job with
  | none => endLoad s q
  | some j =>
    let t := fenceMember s q.job q.bay q.member (!j.clsT)
    let t := match t.bay q.job q.bay, t.member q.job q.bay q.member with
      | some b, some y =>
        if q.recovery ∧ y.recovering then
          dumpSet (freezeAll t (b.ashlars t y)) y.cause.toNat q.job q.bay q.member ((b.ashlars t y).filter (holdsFault t))
        else t
      | _, _ => t
    loadSteps t q

/-- Serial order of sequence numbers (R515). -/
def seqLe (a b : Word) : Bool := decide ((b - a).toNat < 2 ^ 31)

/-- Whether the egress change that takes members out of a group has taken effect: no event that was delivered before it is still to
be released or suppressed (R531). -/
def switchedAway (s : State) (b : Bay) : Bool :=
  match b.portDie s with
  | none => true
  | some d =>
    let e := (s.die d).egr.group (b.img.group % 8)
    (!e.pending && seqLe (e.swseq - 1) e.last) || (match ((s.die d).ing.group (b.img.group % 8)).delivered with
      | some x => seqLe x e.last
      | none => true)

/-- Whether a load is asked for yet: that of a member which a publish installs is, once egress has turned from it (R459, R531). -/
def askedFor (s : State) (q : LoadReq) : Bool :=
  match s.mas.publish, s.bay q.job q.bay, s.member q.job q.bay q.member with
  | some p, some b, some y => !(p.job == q.job && p.bay == q.bay && !y.recovering) || switchedAway s b
  | _, _, _ => true

/-- The first waiting load of a die begun where it may be, while fewer than two run there; those behind it wait for it (R606,
R612). -/
def bayLoadStart (s : State) (die : Nat) : State :=
  let here := s.mas.loads.filter fun q => q.die == die
  if 2 ≤ (here.filter fun q => q.active).length ∨ !steady s then s
  else
    match here.find? fun q => !q.active && askedFor s q with
    | some q => if loadReady s q then startLoad s q else s
    | none => s

/-! ### The end of a load (R487, R610, R611, R629, R630) -/

/-- Whether an ashlar of a bay has a program to run. -/
def Bay.hasCode (b : Bay) (xr yr : Nat) : Bool :=
  b.img.runs.any fun r => r.xr == xr && r.yr == yr && (framesOf r.words).1.any fun f => f.space == 2

/-- The ashlars of a member that its image gives a program. -/
def Bay.workers (s : State) (b : Bay) (y : Member) : List Ash :=
  (b.ashlars s y).filter fun a => b.hasCode (a.col - y.x) ((logicalRow s a.die a.row).getD 0 - y.y)

/-- The Joiners of a member started: those with a program (R610); where contexts were restored every one, with AUTORUN set first
(R487). -/
def startJoiners (s : State) (id : Half) (bi m : Nat) (autorun : Bool) : State :=
  match s.bay id bi, s.member id bi m with
  | some b, some y => (if autorun then b.ashlars s y else b.workers s y).foldl (fun t a => t.onJ a fun j =>
      joinerRun { j with autorun := j.autorun || autorun }) s
  | _, _ => s

/-- A member in service: its Joiners run, its routes are LIVE, its group releases it (R518, R530). -/
def serveMember (s : State) (id : Half) (bi m : Nat) (autorun : Bool) : State :=
  let t := (startJoiners s id bi m autorun).memberState id bi m .serving
  match t.job id, t.bay id bi with
  | some j, some b => if j.clsT then t else settleMode (setLive t b m true) id bi
  | _, _ => t

/-- The border of a loaded member opened: LIFT, fence and FREEZE cleared (R610). -/
def openMember (s : State) (id : Half) (bi m : Nat) : State :=
  match s.bay id bi, s.member id bi m with
  | some b, some y => thawAll (unfenceMember s id bi m) (b.ashlars s y)
  | _, _ => s

/-- Whether every member of a job is past its load. -/
def Job.allLoaded (j : Job) : Bool := j.bays.all fun b => b.members.all fun m => m.state != .loading && m.state != .unplaced

/-- Every loaded member of a job put in service. -/
def serveJob (s : State) (id : Half) (autorun : Bool) : State :=
  match s.job id with
  | none => s
  | some j =>
    let t := (j.bays.zipIdx.flatMap fun b => (b.1.membersIn .loaded).map fun m => (b.2, m)).foldl
      (fun t k => serveMember t id k.1 k.2 autorun) s
    t.onJob id fun x => { x with state := .running, since := t.time, started := true }

/-- A class T job that has not run given back its place: it waits again (R476). -/
def withdrawJob (s : State) (id : Half) : State :=
  let t := (dropMembers s id).onMas fun m => { m with loads := m.loads.filter fun q => q.job != id }
  t.onJob id fun j => { j with state := if j.records.isEmpty then .waiting else .preempted, since := t.time }

/-- Whether a member of a class S job holds an ashlar that a class T job holds (R476). -/
def displaced (s : State) (j : Job) : Bool :=
  j.clsT && (placedMembers s).any fun z => !z.1.clsT && j.bays.any fun b => b.members.any fun m =>
    m.placed && m.die == z.2.2.2.2.die && rectsMeet (b.rect m) (z.2.2.2.1.rect z.2.2.2.2)

/-- A job's saved contexts given up with their frames. -/
def dropRecords (s : State) (id : Half) : State :=
  match s.job id with
  | none => s
  | some j =>
    let fds := (j.records.map fun r => r.fd).eraseDups
    (fds.foldl releaseFrame s).onJob id fun x => { x with records := [], frames := x.frames.filter fun f => !fds.contains f }

/-- A job whose loads have all ended: it is loaded, or goes on where it had been started; a displaced one gives way. Its image
has then taken effect (R590). -/
def jobLoaded (s : State) (id : Half) : State :=
  match s.job id with
  | none => s
  | some j =>
    if j.state ≠ .loading ∨ !j.allLoaded then s
    else if displaced s j then withdrawJob s id
    else
      let t := (dropRecords s id).onJob id fun x => { x with state := .loaded }
      let t := if j.started then serveJob t id (!j.records.isEmpty) else t
      answerWait (advanceFor t j.hdr) id 0 0 (match j.wait with
        | some w => if w.2 = 1 then id.toNat else 0
        | none => 0)

/-- The entry ashlar of a member: the target of its ingress route (R626). -/
def entryAsh (s : State) (b : Bay) (m : Nat) : Option Ash :=
  (b.portDie s).bind fun d =>
    ((s.die d).ing.routes.toList.find? fun r =>
      r.entry.valid && r.group.toNat == b.img.group % 8 && r.member.toNat == m).bind fun r => ashOf s r.entry.dest

/-- n added to a peg of an ashlar through PEG_SIG (R395). -/
def addToPeg (s : State) (a : Ash) (peg n : Nat) : State := writePegSig s a (BitVec.ofNat 32 (peg % 64 + n % 2 ^ 16 * 2 ^ 16))

/-- A rebuilt member while another serves: kept frozen and fenced; the survivor is asked to hold (R628, R629). -/
def askHold (s : State) (id : Half) (bi m sv : Nat) : State :=
  match s.bay id bi with
  | none => s
  | some b =>
    match entryAsh s b sv with
    | some a => (addToPeg s a 45 1).onMember id bi m fun y =>
        { y with state := .rebuilt, asked := some sv, hold := some (((s.ash a).peg 46).value + 1) }
    | none => s.onMember id bi m fun y => { y with state := .rebuilt, asked := some sv, hold := none }

/-! ### The end of a move (R488) -/

/-- A destination that lay in a member's old rectangle, at the same place in its new one. -/
def shiftDest (s : State) (old new : Member) (b : Bay) (d : Dest) : Dest :=
  match ashOf s d with
  | some a => if b.holds s old a then
      Spot.dest s ⟨new.die, new.x + (a.col - old.x), new.y + ((logicalRow s a.die a.row).getD 0 - old.y)⟩
    else d
  | none => d

/-- The port's routes and inputs of a member follow it. -/
def moveRoutes (s : State) (b : Bay) (m : Nat) (old new : Member) : State :=
  match b.portDie s with
  | none => s
  | some d =>
    let mine := fun (g : BitVec 3) (k : BitVec 2) => g.toNat == b.img.group % 8 && k.toNat == m
    let route := fun (r : IngRoute) =>
      if mine r.group r.member then { r with entry := { r.entry with dest := shiftDest s old new b r.entry.dest } } else r
    let input := fun (i : EgrIn) =>
      if mine i.group i.member then { i with peer := shiftDest s old new b i.peer } else i
    let t := (s.onIng d fun g => { g with routes := g.routes.map route }).onEgr d fun g => { g with ins := g.ins.map input }
    feedMember t b m ⟨new.die, new.x, new.y⟩

/-- Step 4 of R488: the routes of a moved member and of its neighbours rewritten, and its old rectangle given up. -/
def settleMove (s : State) (id : Half) (bi m : Nat) : State :=
  match s.bay id bi, s.member id bi m with
  | some b, some y =>
    (match y.old with
     | none => s
     | some o =>
       let old : Member := { y with die := o.die, x := o.x, y := o.y }
       leaveOld (slotFollows (moveRoutes s b m old y) b old y) id bi m)
  | _, _ => s

/-! ### Stream slots (R489, R490, R610, R630) -/

/-- A word of a slice written under the class of the window that covers it. -/
def sliceWord (s : State) (a : Ash) (w v : Nat) : State :=
  match coverClass (s.ash a) w with
  | some cls => s.onAsh a fun x => storeWord x w v (classCheck cls v)
  | none => s

/-- The initial-state template as 64-bit words, its last one filled with zeros. -/
def templateWords : List Byte → List Nat
  | [] => []
  | a :: b :: c :: d :: e :: f :: g :: h :: r => leBytes [a, b, c, d, e, f, g, h] :: templateWords r
  | r => [leBytes r]

/-- The template written into a slot's slice in one member. -/
def writeTemplate (s : State) (b : Bay) (y : Member) (slot : Nat) : State :=
  let p := Config.slicePlace b.img slot
  match physicalRow s y.die (y.y + p.2.1) with
  | some row =>
    if p.1 < b.img.w ∧ p.2.1 < b.img.h then
      (templateWords b.img.template).zipIdx.foldl (fun t q => sliceWord t ⟨y.die, y.x + p.1, row⟩ (p.2.2 + q.2) q.1) s
    else s
  | none => s

/-- The template written into a slot's slice in every member of a bay (R490). -/
def initSlot (s : State) (b : Bay) (slot : Nat) : State :=
  (b.members.filter fun y => y.placed).foldl (fun t y => writeTemplate t b y slot) s

/-- The template written into every slot's slice of a member: step 8 of R610 for a new bay, and R630. -/
def initSlots (s : State) (id : Half) (bi m : Nat) : State :=
  match s.bay id bi, s.member id bi m with
  | some b, some y => (List.range b.slots.length).foldl (fun t n => writeTemplate t b y n) s
  | _, _ => s

/-! ### The install phase of a publish (R44, R46, R459, R460) -/

/-- The order in which the members of a bay are installed: B then A, or C, B, A. -/
def installOrder (b : Bay) : List Nat := (List.range b.members.length).reverse

/-- The member to be taken next of those left to install: one that does not serve, since a recovery goes first, else the first. -/
def installNext (b : Bay) (left : List Nat) : Option Nat := (left.find? fun m => !b.serving.contains m).or left.head?

/-- The members whose results leave while one is installed: those that serve the old version, or, where none does, those that
serve the new one. -/
def releasing (b : Bay) (left : List Nat) (m : Nat) : List Nat :=
  let old := b.serving.filter fun k => left.contains k && k != m
  if old.isEmpty then b.serving.filter fun k => k != m else old

def takePublish (s : State) (tag : Word) (train id : Half) (bi : Nat) (left : List Nat) : State :=
  s.onMas fun m => { m with publish := some ⟨some tag, train, id, bi, left⟩ }

/-- A member taken for install: released no longer, out of the queue, fenced and loaded with the staged copy, unless a load of
it is under way. -/
def installMember (s : State) (id : Half) (bi m : Nat) (release : List Nat) : State :=
  match s.bay id bi, s.member id bi m with
  | some b, some y =>
    let t := writeGroup (setLive s b m false) b release
    if y.state = .loading ∨ y.state = .rebuilt then t else recoverMember t id bi m
  | _, _ => s

/-- A publish whose members have all been installed ends with PUBLISH_DONE (R461, R498); one that no member of its bay serves
has failed. -/
def endPublish (s : State) (p : Publish) (b : Bay) : State :=
  let t := (settleMode s p.job p.bay).onMas fun x => { x with publish := none }
  let lost := b.serving.isEmpty
  let t := if lost then t else t.masEvent evPublishDone p.job (pageSrc t .mas)
  match p.tag with
  | some w => if lost then t.complete w 9 0 (evCode .mas evRecoveryFail) 0 else t.complete w 0 0 0 b.version.toNat
  | none => t

/-- A publish of a bay taken on: its next member installed, or its end; another bay's group is settled. -/
def publishGo (s : State) (id : Half) (bi : Nat) : State :=
  match s.mas.publish, s.bay id bi with
  | some p, some b =>
    if p.job ≠ id ∨ p.bay ≠ bi then settleMode s id bi
    else
      match installNext b p.left with
      | some m => installMember s id bi m (releasing b p.left m)
      | none => endPublish s p b
  | _, _ => settleMode s id bi

/-- A member of a publish's bay is installed, or given up. -/
def publishPast (s : State) (id : Half) (bi m : Nat) : State :=
  s.onMas fun x => { x with publish := x.publish.map fun p =>
    if p.job = id ∧ p.bay = bi then { p with left := p.left.filter fun k => k != m } else p }

/-- A member back in service with the staged copy: a publish of its bay goes on, and a recovery is reported. -/
def backInService (s : State) (id : Half) (bi m : Nat) (recovered : Bool) : State :=
  let t := publishGo (publishPast s id bi m) id bi
  if recovered ∨ s.mas.publish.isNone then t.masEvent evBayRecovered id (pageSrc t .mas) else t

/-- The first member rebuilt of a bay that serves no one: it serves alone, with the version of the staged copy (R458, R630). -/
def serveAlone (s : State) (id : Half) (bi m : Nat) : State :=
  match s.bay id bi, s.member id bi m with
  | some b, some y =>
    let t := initSlots (settleMove (relocate s id bi m) id bi m) id bi m
    let t := serveMember (openMember t id bi m) id bi m false
    let t := (setVersion t b m b.version).onMember id bi m fun z => { z with fails := 0, cause := 0, asked := none }
    backInService t id bi m y.recovering
  | _, _ => s

/-- The words of a member's ashlars have been rewritten by its load (R633). -/
def noteRewritten (s : State) (id : Half) (bi m : Nat) : State :=
  match s.bay id bi, s.member id bi m with
  | some b, some y =>
    let l := b.ashlars s y
    s.onMas fun k => { k with badWords := k.badWords.map fun x => if l.contains x.ash then { x with rewritten := true } else x }
  | _, _ => s

/-- A recovery's load that has succeeded: the member is resynchronised from one that serves or serves alone; while the job does not
run, it waits where it is (R496, R629, R630). -/
def rebuilt (s : State) (id : Half) (bi m : Nat) : State :=
  match s.job id, s.bay id bi with
  | some j, some b =>
    if j.state ≠ .running then s.onMember id bi m fun y => { y with state := .rebuilt, asked := none, hold := none }
    else
      match b.serving.head? with
      | some sv => askHold s id bi m sv
      | none => serveAlone s id bi m
  | _, _ => s

/-- A load that has succeeded (steps 7 to 9 of R610). A member of a job that has not started stands as a new one does. -/
def loadGood (s : State) (q : LoadReq) : State :=
  let t := (endLoad (noteRewritten s q.job q.bay q.member) q).count16 (.cfgDie q.die) 0x4C 0 1
  if q.recovery ∧ ((t.job q.job).map fun j => j.started) = some true then
    rebuilt (relocOwn t q.job q.bay q.member) q.job q.bay q.member
  else
    let t := settleMove (relocate t q.job q.bay q.member) q.job q.bay q.member
    let t := if q.restore then t else initSlots t q.job q.bay q.member
    let stand := fun (y : Member) => { y with state := .loaded, cause := 0, fails := 0 }
    jobLoaded ((openMember t q.job q.bay q.member).onMember q.job q.bay q.member stand) q.job

/-- A RECOVERY_FAIL is of class JOB: the job is FAULTED with it, and a bay that no member serves stays SILENT, its loads that have
not begun given up (R620, R630). -/
def recoveryFailed (s : State) (id : Half) (bi : Nat) : State :=
  let t := (s.masEvent evRecoveryFail id (pageSrc s .mas)).onJob id fun j =>
    { j with state := .faulted, cause := BitVec.ofNat 16 (evCode .mas evRecoveryFail) }
  let gone := (t.mas.loads.filter fun q => q.job == id && q.bay == bi && !q.active)
  if ((t.bay id bi).map fun b => b.serving.isEmpty) = some true then
    gone.foldl (fun u q => (endLoad u q).memberState id bi q.member .failed) t
  else t

/-- A load that has failed twice (R611): the rectangle dumped and cleared behind its fence. A new bay's job is refused; a
class T job being resumed is faulted; a member that fails its recovery a second time raises RECOVERY_FAIL (R630). -/
def loadBad (s : State) (q : LoadReq) : State :=
  let code := evCode (.cfgDie q.die) evCfgLoad
  match s.job q.job, s.bay q.job q.bay, s.member q.job q.bay q.member with
  | some j, some b, some y =>
    let l := b.ashlars s y
    let t := (endLoad s q).count16 (.cfgDie q.die) 0x4C 16 1
    let t := dumpSet t code q.job q.bay q.member l
    let t := unfenceMember (softResetAll t l) q.job q.bay q.member
    if q.recovery then
      let t := t.onMember q.job q.bay q.member fun z =>
        { z with state := .failed, fails := z.fails + 1, cause := BitVec.ofNat 16 code }
      if y.fails = 1 then
        let t := recoveryFailed (leaveOld t q.job q.bay q.member) q.job q.bay
        if (t.mas.publish.any fun p => p.job == q.job && p.bay == q.bay) then
          publishGo (publishPast t q.job q.bay q.member) q.job q.bay
        else t
      else t
    else if q.restore ∨ j.started then faultJob (t.memberState q.job q.bay q.member .failed) q.job code
    else freeJob (answerWait t q.job 9 code 0) q.job
  | _, _, _ => endLoad s q

/-- Every ashlar of a load has answered: one failure repeats steps 3 to 6, a second ends it (R611). -/
def loadAnswered (s : State) (q : LoadReq) : State :=
  if !q.failed then loadGood s q
  else if q.second then loadBad s q
  else loadSteps (s.onLoad q fun x => { x with second := true }) { q with second := true }

/-- A LOAD_DONE or SAVE_DONE status other than 0 recorded on the die's page (R605, R615). -/
def noteLoadFault (s : State) (die : Nat) (a : Ash) (status : BitVec 4) : State :=
  let p := Page.cfgDie die
  let t :=
    if s.fld p 0x48 31 1 = 1 then s
    else s.setReg p 0x48 (BitVec.ofNat 32 (a.col % 128 + a.row % 128 * 2 ^ 7 + status.toNat * 2 ^ 14 + 2 ^ 31))
  t.raise p evCfgLoad 0

/-- A LOAD_DONE from an ashlar at its die's configuration block; one of an order given up answers no load. -/
def loadDone (s : State) (die : Nat) (a : Ash) (tag : BitVec 7) (status : BitVec 4) : State :=
  let t := if status = 0 then s else noteLoadFault s die a status
  match t.mas.loads.find? fun q => q.active && q.tag == tag && q.left.contains a with
  | none => t
  | some q =>
    let q' := { q with left := q.left.filter fun b => b != a, failed := q.failed || status != 0 }
    let u := t.onLoad q fun _ => q'
    if q'.left.isEmpty then loadAnswered u q' else u

end Sys2Proof.Machine
end

