-- ==== Sys2Proof/Machine/Replies.lean ====
section
/-! DEFINITION. Packets that ashlars and blocks both take: channel flits (R332, R524), connects and their replies (R329 to
R331), refusals (R347, R348), credits (R333, R559), tier answers (R406). -/

namespace Sys2Proof.Machine

/-- The PCI page of the endpoint on a die (R21). -/
def pciOfDie (d : Nat) : Page := .pci (if d = 0 then 0 else 1)

/-- The page of the block a destination names; the Ethernet block has its ETH page, and the block of code 8 the die's CFG
page. -/
def blockPage (d : Dest) : Page :=
  let b := blockOf d
  match b.1 with
  | 0 => .hbc b.2.1 b.2.2
  | 1 => .lpc b.2.1
  | 2 => .dmc b.2.1
  | 3 => .hod b.2.1
  | 4 => .eth b.2.1
  | 5 => .jhl b.2.1 b.2.2
  | 6 => pciOfDie b.2.1
  | 7 => .key b.2.1
  | 8 => .cfgDie b.2.1
  | _ => .plb b.2.1

/-- A packet of any block: held where something on its way holds it, discarded where poisoned. -/
def toAnyBlock (s : State) (p : Packet) (go : State → State) : Host.Outcome State Fault Refusal :=
  toBlock s p (blockOf p.dest).1 fun _ _ t => go t

/-- CHANNEL_FLIT (R332, R524): at an ashlar's endpoint, which takes none while the ashlar is frozen (R75), or at an input
of egress; one on VC0 may have slipped (R325). Jeham ports and Keystones take flits by commands of their own. -/
def execChannelFlit (p : Packet) (s : State) : Host.Outcome State Fault Refusal :=
  match p.body with
  | .chan ep payload _ =>
    if isBlock p.dest then
      if (blockOf p.dest).1 = 4 then toBlock s p 4 fun d _ t => egressFlit (timedSlips t p) d ep.toNat p.vc payload
      else if blockExists s.part p.dest then .next s else .fault .noSuchBlock
    else toAsh s p fun a => if (s.ash a).frozen then s else flitArrives (timedSlips (s.take p) p) a p ep.toNat payload
  | _ => .next s

/-- CONNECT (R329 to R331): at an ashlar, or at a block, which has no endpoint to connect to. Jeham ports answer it by
TUNNEL_CONNECT. -/
def execConnect (p : Packet) (s : State) : Host.Outcome State Fault Refusal :=
  match p.body with
  | .connect disc kind ep win tlen entry job =>
    if isBlock p.dest then
      if (blockOf p.dest).1 = 5 ∧ blockExists s.part p.dest then .next s
      else toAnyBlock s p fun t => if disc then t else t.send (answer p (.connReply 3 entry 0 0 0 0 0))
    else toAshClean s p fun a t => connectAsh a p disc kind ep win tlen entry job t
  | _ => .next s

/-- CONN_REPLY (R330): at a block it is discarded. -/
def execConnReply (p : Packet) (s : State) : Host.Outcome State Fault Refusal :=
  match p.body with
  | .connReply status entry win epoch size wr credit =>
    if isBlock p.dest then toAnyBlock s p fun t => t
    else toAshClean s p fun a t => connReplyAsh a p status entry win epoch size wr credit t
  | _ => .next s

/-- A refused completion PSIG at its Plane (R348): the descriptor is the one whose target refused. -/
def planeNak (s : State) (p : Packet) (d : Nat) (c : Ctl) : State :=
  let pl := s.plane d c
  let k := (List.range 64).find? fun i =>
    let w := (pl.desc i).word 6
    (pl.desc i).valid && mkDest (bits w 6 9) (bits w 15 8) == p.src
  s.planeFault d c (k.getD 0) 1 0

/-- A refusal at a block (R348). -/
def blockNak (s : State) (p : Packet) (code : BitVec 4) (of : Refused) : State :=
  let b := blockOf p.dest
  match b.1 with
  | 4 =>
    let route := if code = 1 then (List.range 16).find? fun i =>
        let r := (s.die b.2.1).ing.route i
        r.entry.valid && r.live && r.entry.dest == p.src
      else none
    (match route with
     | some i => routeRefused s b.2.1 i
     | none => s.raise (.eth b.2.1) evNak 0)
  | 5 => jhlNak s p of b.2.1 b.2.2
  | 7 => keyNak s b.2.1 b.2.2
  | _ =>
    match ctlOfDest p.dest with
    | some (d, c) => planeNak s p d c
    | none => s.raise (blockPage p.dest) evNak 0

/-- NAK (R347, R348). -/
def execNak (p : Packet) (s : State) : Host.Outcome State Fault Refusal :=
  match p.body with
  | .nak code of =>
    if isBlock p.dest then toAnyBlock s p fun t => blockNak t p code of
    else toAshClean s p fun a t => nakAsh a p code of t
  | _ => .next s

/-- A CRET for a route of ingress: its credit rises (R333, R518). -/
def routeCredit (s : State) (d : Nat) (entry : BitVec 4) (count : Half) : State :=
  s.onIng d fun g =>
    let r := g.route entry.toNat
    g.setRoute entry.toNat { r with entry := { r.entry with credit := sat16 r.entry.credit count.toNat } }

/-- CRET (R333): at an ashlar, at ingress, or at a Jeham port, which sends it across (R559). -/
def execCret (p : Packet) (s : State) : Host.Outcome State Fault Refusal :=
  match p.body with
  | .cret entry count =>
    if isBlock p.dest then
      let b := blockOf p.dest
      toAnyBlock s p fun t =>
        if b.1 = 4 then routeCredit t b.2.1 entry count
        else if b.1 = 5 then jhlHold t b.2.1 b.2.2 (.pkt p)
        else t
    else toAshClean s p fun a t => cretAsh a entry count t
  | _ => .next s

/-- MRESP (R406): at a stream program, at a configuration port, whose requests alone go on VC3 (R605), or at the Plane that dispatched an item. -/
def execMresp (p : Packet) (s : State) : Host.Outcome State Fault Refusal :=
  match p.body with
  | .mresp tag status _ off fd data =>
    if isBlock p.dest then
      toAnyBlock s p fun t => match ctlOfDest p.dest with
        | some (d, c) => itemAnswer t d c tag status off.toNat
        | none => t
    else toAshClean s p fun a t =>
      if p.vc = 3 then portAnswer t a tag status data else streamAnswer t a p.src tag status fd data
  | _ => .next s

/-- MACK (R406): at a stream program, or at ingress's capture writer. -/
def execMack (p : Packet) (s : State) : Host.Outcome State Fault Refusal :=
  match p.body with
  | .mack tag status =>
    if isBlock p.dest then
      let b := blockOf p.dest
      toAnyBlock s p fun t => if b.1 = 4 then captureAck t b.2.1 tag status else t
    else toAshClean s p fun a t => streamAnswer t a p.src tag status 0 []
  | _ => .next s

end Sys2Proof.Machine
end

