-- ==== Sys2Proof/Machine/Scaffold.lean ====
section
/-! DEFINITION. Scaffold packets at ashlars and blocks (R603, R605), and reports on their way to the Mason's inboxes (R492,
R493). -/

namespace Sys2Proof.Machine

/-! ### Register access (R603) -/

/-- A scaffold write of one register; an offset that is no multiple of 4 is refused (R14). -/
def scafWrite (s : State) (p : Page) (off : BitVec 12) (v : Word) : State :=
  if off.toNat % 4 = 0 then writeReg s p off.toNat v else s.record p evErrAccess 0

/-- A scaffold read of one register: the error flag and the value. -/
def scafRead (s : State) (p : Page) (off : BitVec 12) : Bool × Word × State :=
  if off.toNat % 4 = 0 then
    let r := readReg s p off.toNat
    (false, r.1, r.2)
  else (true, 0, s.record p evErrAccess 0)

/-- A scaffold packet at whatever page its destination names. -/
def toPage (s : State) (p : Packet) (go : Page → State → State) : Host.Outcome State Fault Refusal :=
  if isBlock p.dest then toAnyBlock s p fun t => go (blockPage p.dest) t
  else toAshClean s p fun a t => go (.ash a) t

/-- REG_WRITE (R603). -/
def execRegWrite (p : Packet) (s : State) : Host.Outcome State Fault Refusal :=
  match p.body with
  | .scaf _ (.regWrite off v) => toPage s p fun q t => scafWrite t q off v
  | _ => .next s

/-- REG_READ (R603). -/
def execRegRead (p : Packet) (s : State) : Host.Outcome State Fault Refusal :=
  match p.body with
  | .scaf tag (.regRead off) => toPage s p fun q t =>
      let r := scafRead t q off
      r.2.2.send (answer p (.scaf tag (.readReply r.1 r.2.1)))
  | _ => .next s

/-- READ_REPLY (R603): the requester has its answer. -/
def execReadReply (p : Packet) (s : State) : Host.Outcome State Fault Refusal :=
  match p.body with
  | .scaf _ (.readReply _ _) => toPage s p fun _ t => t
  | _ => .next s

/-- Ashlars of a die in a rectangle in the layout of PLB.SLOT_BAY. -/
def rectOf (s : State) (die : Nat) (w : Word) : List Ash :=
  (List.range 96).flatMap fun r =>
    match physicalRow s die r with
    | some row => (List.range 128).filterMap fun c =>
        if inRect (setBits w 31 1 1) c r then some ⟨die, c, row⟩ else none
    | none => []

/-- BCAST (R603): one ASH register written in every ashlar of a rectangle of the configuration block's die. -/
def execBcast (p : Packet) (s : State) : Host.Outcome State Fault Refusal :=
  match p.body with
  | .scaf tag (.bcast rect off v) => toBlock s p 8 fun d _ t =>
      let l := rectOf t d rect
      (l.foldl (fun u a => scafWrite u (.ash a) off v) t).send (answer p (.scaf tag (.bcastDone l.length)))
  | _ => .next s

/-- BCAST_DONE (R603): the requester has its count. -/
def execBcastDone (p : Packet) (s : State) : Host.Outcome State Fault Refusal :=
  match p.body with
  | .scaf _ (.bcastDone _) => toPage s p fun _ t => t
  | _ => .next s

/-! ### Loads and saves (R605) -/

/-- LOAD_ORDER (R605). -/
def execLoadOrder (p : Packet) (s : State) : Host.Outcome State Fault Refusal :=
  match p.body with
  | .scaf tag (.loadOrder fd off len crc context) => toAshClean s p fun a t =>
      portStart t a p tag fd off.toNat len.toNat crc context
  | _ => .next s

/-- SAVE_ORDER (R486, R603). -/
def execSaveOrder (p : Packet) (s : State) : Host.Outcome State Fault Refusal :=
  match p.body with
  | .scaf tag (.saveOrder fd off _ _ _) => toAshClean s p fun a t =>
      match saveAtPort t a fd off.toNat with
      | some r => r.2.send (answer p (.scaf tag (.saveDone r.1)))
      | none => s
  | _ => .next s

/-- LOAD_DONE (R605, R610, R611). -/
def execLoadDone (p : Packet) (s : State) : Host.Outcome State Fault Refusal :=
  match p.body with
  | .scaf tag (.loadDone status) => toBlock s p 8 fun d _ t =>
      match ashOf t p.src with
      | some a => loadDone t d a tag status
      | none => t
  | _ => .next s

/-- MASON_MESSAGE (R560, R603): a Jeham port passes it on over its link, naming the Mason of the peer module (DEDUCED, log 135); at
any other block the Mason has it. -/
def execMasonMessage (p : Packet) (s : State) : Host.Outcome State Fault Refusal :=
  match p.body with
  | .scaf _ (.mason _) =>
    if isBlock p.dest then
      toAnyBlock s p fun t =>
        if (blockOf p.dest).1 = 5 then
          jhlHold t (blockOf p.dest).2.1 (blockOf p.dest).2.2 (.pkt { p with dest := blockDest 8 0 0 })
        else t
    else toAshClean s p fun _ t => t
  | _ => .next s

/-! ### Reports (R492, R493) -/

def dieInbox (s : State) (die : Nat) : List Report := s.mas.inboxes[dieIdx die]

def setInbox (s : State) (die : Nat) (l : List Report) : State :=
  s.onMas fun m => { m with inboxes := m.inboxes.set (dieIdx die) l }

/-- Occupancy from which event reports go to the summary bitmap. -/
def coalesceAt (s : State) : Nat := min 256 (s.fld .mas 0x80 0 9)

/-- Whether a report can be accepted now. -/
def acceptable (s : State) (die : Nat) (r : Report) : Bool :=
  let n := (dieInbox s die).length
  decide (n < 256) || (r.event && (match r.page with
    | .ash _ => decide (coalesceAt s ≤ n)
    | _ => false))

/-- A report accepted: an ashlar's event at a full enough inbox sets its bit and is held in its page, anything else takes an entry; a message's
sender may post again (R125). -/
def acceptReport (s : State) (die : Nat) (r : Report) : State :=
  let t := { s with reports := s.reports.erase r }
  let n := (dieInbox s die).length
  match r.page with
  | .ash a =>
    if r.event && decide (coalesceAt s ≤ n) then { t.onMas fun m => { m with summary := m.summary ++ [a] } with heldEvents := r :: t.heldEvents }
    else
      let u := setInbox t die (dieInbox t die ++ [r])
      if r.event then u else u.onJ a fun j => { j with msg := none }
  | _ => setInbox t die (dieInbox t die ++ [r])

/-- The first report of a die that can be accepted, none of its page being before it. -/
def nextReport (s : State) (die : Nat) : Option Report :=
  let l := s.reports.filter fun r => pageDie r.page == die
  l.find? fun r => acceptable s die r && ((l.takeWhile fun x => x != r).all fun x => x.page != r.page)

/-- REPORT (R492, R493). -/
def execReport (die : Nat) (s : State) : Host.Outcome State Fault Refusal :=
  if die < s.part.dies then
    .next (match nextReport s die with
      | some r => acceptReport s die r
      | none => s)
  else .fault .noSuchBlock

end Sys2Proof.Machine
end

