-- ==== Sys2Proof/Machine/Preempt.lean ====
section
/-! DEFINITION. Pre-emption of class T jobs, the run queue and moves of bays (R478, R482 to R488). -/

namespace Sys2Proof.Machine

/-! ### Pre-emption (R482 to R487) -/

/-- Step 1 of R482: AUTORUN cleared in every ashlar of a running job. -/
def startPreempt (s : State) (id : Half) : State :=
  match s.job id with
  | none => s
  | some j =>
    if j.state ≠ .running ∨ !j.clsT then s
    else
      let t := (j.ashlars s).foldl (fun t a => t.onJ a fun x => { x with autorun := false }) s
      t.onJob id fun x => { x with state := .preempting, step := 1 }

/-- Step 2: BOUNDARY = 1 and STATE = ended in every ashlar (R74, R129). -/
def atBoundaries (s : State) (j : Job) : Bool :=
  (j.ashlars s).all fun a => atBoundary (s.ash a) && (s.ash a).joiner.state == .ended

/-- Step 3: no descriptor of the job queued or dispatching in any Plane. -/
def planesIdle (s : State) (id : Half) : Bool :=
  s.dies.toList.all fun d => d.planes.toList.all fun p =>
    let mine := fun (k : Nat) => (p.desc k).valid && (p.desc k).job == id
    !(p.queue.any mine) && (match p.disp with
      | some x => !mine x.desc
      | none => true)

/-- Flits that the receiver of a tuple channel at a block holds: an input of egress, or a channel tunnel; none for a block that
holds no channel. -/
def blockHeld (s : State) (d : Dest) (ep : Nat) : Option Nat :=
  let b := blockOf d
  if !isBlock d then none
  else if b.1 = 4 then some ((s.die b.2.1).egr.ins[ix 8 ep (by decide)]).flits.length
  else if b.1 = 5 then some (((s.jhl b.2.1 b.2.2).tunnel 1 ep).flits.length)
  else none

/-- Whether a channel is balanced (R483). -/
def balanced (s : State) (e : OutEntry) : Bool :=
  if !e.valid || !e.conn then true
  else
    match ashOf s e.dest with
    | none => (match blockHeld s e.dest e.ep.toNat with
      | some n => e.kind != 0 || e.credit.toNat + n == 4
      | none => true)
    | some b =>
      let v := s.ash b
      let ep := v.ep e.ep.toNat
      match e.kind.toNat with
      | 0 => e.credit.toNat + ep.flits.length == 4
      | 1 => e.credit.toNat + (v.win ep.rwin.toNat).used.toNat == e.size.toNat
      | _ => true

/-- Step 4. -/
def drained (s : State) (j : Job) : Bool :=
  (j.ashlars s).all fun a => (s.ash a).out.toList.all fun e => balanced s e

/-- Places for records of a member's ashlars in T1 frames reserved for the job, 32 a frame (R486). -/
def recordPlaces (id : Half) (die : Nat) : List (Nat × Nat × Nat × Nat) → Option (Word × Nat) → State → Option State
  | [], _, s => some s
  | k :: rest, cur, s =>
    let fresh := (reserveFrame s die).map fun x => (x.1, 0, x.2.onJob id fun j => { j with frames := x.1 :: j.frames })
    let place : Option (Word × Nat × State) := match cur with
      | some (fd, n) => if n < 32 then some (fd, n, s) else fresh
      | none => fresh
    match place with
    | none => none
    | some (fd, n, t) =>
      recordPlaces id die rest (some (fd, n + 1))
        (t.onJob id fun j => { j with records := j.records ++ [⟨k.1, k.2.1, k.2.2.1, k.2.2.2, fd, 65536 * n⟩] })

/-- The ashlars of a member as bay, member and place relative to the origin. -/
def memberPlaces (bi m : Nat) (b : Bay) : List (Nat × Nat × Nat × Nat) :=
  (List.range b.img.h).flatMap fun y => (List.range b.img.w).map fun x => (bi, m, x, y)

/-- CONN and CREDIT cleared in every outbound entry of an ashlar: the VC2 credits are revoked. -/
def revoke (v : Ashlar) : Ashlar := { v with out := v.out.map fun e => { e with conn := false, credit := 0 } }

/-- Step 5: the outbound entries of every ashlar of a job recorded, unless they were before a restart of the Mason, then revoked. -/
def revokeJob (s : State) (j : Job) : State :=
  let l := j.ashlars s
  let t := if j.recorded.isEmpty then s.onJob j.id fun x => { x with recorded := l.map fun a => (a, (s.ash a).out) } else s
  l.foldl (fun u a => u.onAsh a revoke) t

/-- The 32 words from 0xF600 of a record: outbound entries as step 5 recorded them (R486). -/
def entryWords (out : Vector OutEntry 16) : List DWord :=
  (pairUp 0 (out.toList.flatMap fun e => (List.range 4).map fun i => entryWord e i)).map fun x => BitVec.ofNat 64 x.2

/-- The recorded entries of an ashlar put in the record that it has written. -/
def keepEntries (s : State) (j : Job) (a : Ash) : State :=
  let bayOf := fun (r : Saved) => ((j.bays[r.bay]?).bind fun b => b.members[r.member]?)
  let its := fun (r : Saved) => match bayOf r with
    | some m => m.die == a.die && m.x + r.xr == a.col && physicalRow s m.die (m.y + r.yr) == some a.row
    | none => false
  match j.records.find? its, j.recorded.find? fun x => x.1 == a with
  | some r, some x => writeRun s r.fd (r.off + 0xF600) (entryWords x.2)
  | _, _ => s

/-- Step 6 begun: a SAVE_ORDER to every ashlar of the job, or none while T1 has no room for the records. -/
def orderSaves (s : State) (j : Job) : Option State :=
  let members := j.bays.zipIdx.flatMap fun b => b.1.members.zipIdx.filterMap fun m =>
    if m.1.placed then some (b.2, m.2, b.1, m.1) else none
  let t := members.foldl (fun r k => r.bind fun t => recordPlaces j.id k.2.2.2.die (memberPlaces k.1 k.2.1 k.2.2.1) none t)
    (some (s.onJob j.id fun x => { x with records := [] }))
  t.map fun t =>
    let recs := ((t.job j.id).map fun x => x.records).getD []
    let orders := recs.filterMap fun r =>
      ((j.bays[r.bay]?).bind fun b => b.members[r.member]?).bind fun m =>
        (physicalRow t m.die (m.y + r.yr)).map fun row => ((⟨m.die, m.x + r.xr, row⟩ : Ash), r)
    let u := t.sendAll (orders.map fun o => ⟨3, ashDest t o.1, blockDest 8 o.1.die 0, false,
      .scaf 0 (.saveOrder o.2.fd (BitVec.ofNat 21 o.2.off) 65536 0 true)⟩)
    u.onJob j.id fun x => { x with step := 6, saves := orders.map fun o => o.1 }

/-- Steps 2 to 6 as far as they have come: step 5 is done as soon as step 6 can begin. -/
def preemptStep (s : State) (id : Half) : State :=
  match s.job id with
  | none => s
  | some j =>
    if j.state ≠ .preempting ∨ j.step = 6 ∨ !s.mas.ready then s
    else if atBoundaries s j && planesIdle s id && drained s j then (orderSaves (revokeJob s j) j).getD s
    else s

/-- PREEMPT (R482). -/
def execPreempt (job : Half) (s : State) : Host.Outcome State Fault Refusal := .next (preemptStep s job)

/-- The pre-emption's end: contexts invalid, the ashlars free (step 7). A job that has faulted meanwhile is FAULTED (R485). -/
def preemptDone (s : State) (id : Half) : State :=
  match s.job id with
  | none => s
  | some j =>
    let l := j.ashlars s
    let t := contextAll s l 0
    let t := t.onJob id fun x => { x with
      state := if j.cause = 0 then .preempted else .faulted, step := 0, since := t.time, recorded := []
      bays := x.bays.map fun b => { b with members := b.members.map fun m => { m with state := .unplaced } } }
    if j.cause = 0 then answerWait t id 0 0 0 else answerWait t id 9 j.cause.toNat 0

/-- A SAVE_DONE at a die's configuration block; one that failed faults its job. -/
def saveDone (s : State) (die : Nat) (a : Ash) (status : BitVec 4) : State :=
  match s.mas.jobs.find? fun j => j.saves.contains a with
  | none => if status = 0 then s else noteLoadFault s die a status
  | some j =>
    let left := j.saves.filter fun b => b != a
    if status ≠ 0 then
      faultJob ((noteLoadFault s die a status).onJob j.id fun x => { x with saves := [], recorded := [] }) j.id (evCode (.cfgDie die) evCfgLoad)
    else
      let t := (keepEntries s j a).onJob j.id fun x => { x with saves := left }
      if left.isEmpty then preemptDone t j.id else t

/-- SAVE_DONE (R486, R603). -/
def execSaveDone (p : Packet) (s : State) : Host.Outcome State Fault Refusal :=
  match p.body with
  | .scaf _ (.saveDone status) => toBlock s p 8 fun d _ t =>
      match ashOf t p.src with
      | some a => saveDone t d a status
      | none => t
  | _ => .next s

/-- PREEMPT_TIMEOUT (R484): the job frozen and flushed, FAULTED; a class S placement that waited for it goes on. -/
def preemptTimeout (s : State) (id : Half) : State :=
  match s.job id with
  | none => s
  | some j =>
    if j.state ≠ .preempting ∨ j.step = 6 then s
    else
      let l := j.ashlars s
      let t := flushAll (freezeAll s l) l
      let code := evCode .mas evPreemptTimeout
      let t := (t.masEvent evPreemptTimeout id (pageSrc t .mas)).onJob id fun x =>
        { x with state := .faulted, step := 0, cause := BitVec.ofNat 16 code, recorded := [] }
      let t := answerWait t id 9 code 0
      if displaced t j then dropMembers t id else t

def execPreemptTimeout (job : Half) (s : State) : Host.Outcome State Fault Refusal := .next (preemptTimeout s job)

/-- Class T jobs whose rectangles a placement takes: a running one is pre-empted, one not yet started gives way, a faulted
one loses its ashlars; one being loaded gives way when its loads end (R476, R485). -/
def displaceJobs (s : State) : State :=
  (s.mas.jobs.filter fun j => displaced s j).foldl (fun t j =>
    match j.state with
    | .running => startPreempt t j.id
    | .loading => if t.mas.loads.any fun q => q.job == j.id && q.active then t else withdrawJob t j.id
    | .loaded => withdrawJob t j.id
    | .faulted => dropMembers t j.id
    | _ => t) s

/-- BAY_LOAD_START (R606): what a placement takes gives way first. -/
def execBayLoadStart (die : Nat) (s : State) : Host.Outcome State Fault Refusal :=
  atDie s die (.next (if steady s then bayLoadStart (displaceJobs s) die else s))

/-! ### The run queue (R477, R478) -/

/-- Jobs that wait for ashlars, by priority and then by the time they became ready. -/
def runQueue (s : State) : List Job :=
  let l := s.mas.jobs.filter fun j => j.clsT && (j.state == .waiting || j.state == .preempted) && !j.kept
  (List.range 8).reverse.flatMap fun p =>
    (l.filter fun j => j.prio == p).mergeSort fun a b => decide (a.since ≤ b.since)

/-- A waiting job placed and its loads asked for, or none. -/
def placeJob (s : State) (id : Half) : Option State :=
  ((placeBays s id).bind fun t => stageJob t id).map fun t =>
    let restore := ((t.job id).map fun j => !j.records.isEmpty).getD false
    queueJob (t.onJob id fun j => { j with state := .loading }) id restore

/-- RUN_QUEUE_PLACE (R478): the first job of the queue that fits. -/
def placeNext (s : State) : State :=
  if !steady s then s
  else ((runQueue s).findSome? fun j => placeJob s j.id).getD s

/-- A state in which the jobs named hold no ashlars. -/
def withoutJobs (s : State) (ids : List Half) : State :=
  s.onMas fun m => { m with jobs := m.jobs.map fun j => if ids.contains j.id then
    { j with bays := j.bays.map fun b => { b with members := b.members.map fun y => { y with state := .unplaced } } } else j }

/-- QUANTUM_EXPIRY (R478): while the first job that has waited longer than QUANTUM does not fit, and jobs of its priority or lower
hold ashlars that it could use, the job of the lowest priority that has run longest is pre-empted. -/
def quantumExpiry (s : State) : State :=
  let q := s.fld .mas 0x78 0 24
  let late := (runQueue s).find? fun j => decide (q * 1000 < (s.time - j.since).toNat)
  match late with
  | none => s
  | some w =>
    if q = 0 ∨ !steady s ∨ (s.mas.jobs.any fun j => j.state == .preempting) ∨ (placeJob s w.id).isSome then s
    else
      let run := s.mas.jobs.filter fun j => j.clsT && j.state == .running && decide (j.prio ≤ w.prio)
      let victim := run.foldl (fun (best : Option Job) j =>
        match best with
        | none => some j
        | some b => if j.prio < b.prio ∨ (j.prio = b.prio ∧ j.since < b.since) then some j else best) none
      match victim with
      | some v => if (placeBays (withoutJobs s (run.map fun j => j.id)) w.id).isSome then startPreempt s v.id else s
      | none => s

def execQuantumExpiry (s : State) : Host.Outcome State Fault Refusal := .next (quantumExpiry s)

/-! ### Moving a bay (R488) -/

/-- A class S member moved: out of service behind a fence that stays until its routes are rewritten, and a load at the new
place, which resynchronises it as a recovery does. -/
def moveMember (s : State) (id : Half) (bi m : Nat) : State :=
  match s.job id, s.bay id bi, s.member id bi m with
  | some j, some b, some _ =>
    (match choosePlace s j bi m b with
     | none => s
     | some p =>
       let t := fenceMember (leaveOld s id bi m) id bi m false
       let t := settleMode (t.memberState id bi m .faulted) id bi
       let dst := fun (y : Member) =>
         { y with die := p.die, x := p.x, y := p.y, state := .loading, fence := 16, old := some ⟨y.die, y.x, y.y, y.fence⟩ }
       match (t.member id bi m).map fun y => decide (p.die = y.die ∧ p.x = y.x ∧ p.y = y.y),
           stageBay (t.onMember id bi m dst) id bi with
       | some false, some u =>
         let u := if j.started then u else u.onJob id fun x => { x with state := .loading }
         displaceJobs (queueLoad u
           ⟨p.die, id, bi, m, true, false, false, false, [], false, false, 0, ((u.member id bi m).map fun y => y.faultAt).getD 0⟩)
       | _, _ => s)
  | _, _, _ => s

/-- Whether a bay's members can be moved now: none is out of service for a time, and the job stands in service or is not started. -/
def Bay.movable (b : Bay) : Bool :=
  b.members.all fun z => z.state == .serving || z.state == .loaded || (z.state == .failed && decide (2 ≤ z.fails))

/-- A member that stands on a degraded die moved off it (R26): a class T job gives way, to be placed elsewhere, and a class S
bay's members go one at a time, each while the others serve. -/
def vacate (s : State) (id : Half) (bi m : Nat) : State :=
  match s.job id, s.bay id bi, s.member id bi m with
  | some j, some b, some y =>
    if !y.placed ∨ !degraded s y.die then s
    else if j.clsT then
      match j.state with
      | .running => startPreempt s id
      | .loaded => withdrawJob s id
      | .loading => if s.mas.loads.any fun q => q.job == id && q.active then s else withdrawJob s id
      | _ => s
    else if b.movable && (y.state == .serving || y.state == .loaded) then moveMember s id bi m
    else s
  | _, _, _ => s

/-- Every bay that stands on a degraded die, as far as it can be moved now (R26). -/
def vacateDies (s : State) : State :=
  (allMembers s).foldl (fun t q => vacate t q.1 q.2.1 q.2.2) s

/-- BAY_MOVE (R488): a class S member that serves, or a class T bay of a pre-empted job, which is placed again whole. -/
def bayMove (s : State) (id : Half) (bi m : Nat) : State :=
  match s.job id, s.member id bi m with
  | some j, some y =>
    if !steady s then s
    else if j.clsT then (if j.state = .preempted ∧ !j.kept then (placeJob s id).getD s else s)
    else if y.state = .serving then moveMember s id bi m
    else s
  | _, _ => s

def execBayMove (job : Half) (bay member : Nat) (s : State) : Host.Outcome State Fault Refusal :=
  .next (bayMove s job bay member)

end Sys2Proof.Machine
end

