-- ==== Sys2Proof/Machine/Mason.lean ====
section
/-! DEFINITION. The host's commands to the Mason (R425, R427, R457 to R460, R489 to R499, R564, R586, R601, R670), its recoveries
(R627 to R630) and its restarts (R47, R499, R636). -/

namespace Sys2Proof.Machine

/-! ### LOAD_JOB (R479, R564, R601, R670) -/

/-- An image refused: its event recorded on the CFG page and posted; the command, if any, completes with IMAGE (R586, R601). -/
def imageRefused (s : State) (tag : Option Word) (e : Ev) : State :=
  let t := (s.record .cfg e 0).setFld .cfg 0x10 1 1 1
  let t := t.post (evCode .cfg e) 0xFFFF (pageSrc t .cfg) false
  match tag with
  | some w => t.complete w 8 0 (evCode .cfg e) 0
  | none => t

/-- RED_W0 with RANK and NRANK as the module list of the LOAD_JOB gives them to this module; as the image has them where it
gives none (R562; DESIGN CHOICE, log 213). -/
def ranked (s : State) (j : JobImage) (ws : List Word) : List Word :=
  if j.modules.isEmpty then ws
  else ws.set 0 (setBits (setBits (ws.getD 0 0) 1 5 (j.modules.idxOf s.serial)) 6 5 j.modules.length)

/-- Whether every die of a job's reduction chain has its links (R564): towards the module of rank + 1 through instance 1, towards
that of rank − 1 through instance 0, each to the same die. -/
def chainUp (s : State) (j : JobImage) : Bool :=
  j.reds.all fun r =>
    let w := (ranked s j r.2.2).getD 0 0
    let rank := bits w 1 5
    let joined := fun (k other module : Nat) => jhlState s r.1 k == 2 && s.fld (.jhl r.1 k) 0x4C 0 4 == other
      && (j.modules.isEmpty || j.modules[module]? == some (s.reg (.jhl r.1 k) 0x48 ++ s.reg (.jhl r.1 k) 0x44))
    !bit w 0 || ((rank + 1 == bits w 6 5 || joined 1 (2 * r.1) (rank + 1)) && (rank == 0 || joined 0 (2 * r.1 + 1) (rank - 1)))

/-- The lowest JOB_ID in no use. -/
def freeJobId (s : State) : Half :=
  BitVec.ofNat 16 (((List.range 0xFFFE).find? fun k => (s.job (BitVec.ofNat 16 (k + 1))).isNone).getD 0xFFFD + 1)

/-- A bay as its image describes it, without a place. -/
def newBay (b : BayImage) : Bay where
  img := b
  members := List.replicate b.members ⟨0, 0, 0, .unplaced, 16, none, 0, 0, false, 0, none, none⟩
  version := 0
  slots := List.replicate b.nslot .free
  staged := []

def newJob (s : State) (id : Half) (j : JobImage) : Job where
  id := id
  clsT := j.clsT
  prio := j.priority
  state := .waiting
  bays := j.bays.map newBay
  cause := 0
  wait := none
  since := s.time
  started := false
  kept := false
  step := 0
  saves := []
  records := []
  recorded := []
  frames := []
  planes := j.planes.map fun p => p.1
  reds := j.reds.map fun r => (r.1, r.2.1)
  hdr := j.hdr
  seed := s.free.1

/-- A job's Plane descriptors in every Plane, each written whole, its VALID with it, and its reduction contexts, with its JOB_ID
(R446, R463, R561). -/
def writeEngines (s : State) (id : Half) (j : JobImage) : State :=
  let own := fun (ws : List Word) (k : Nat) => if k = 0 then setBits (ws.getD 0 0) 16 16 id.toNat else ws.getD k 0
  let desc := fun (ws : List Word) (k : Nat) => own ws k &&& BitVec.ofNat 32 (descMask k)
  let t := (allPlanes s).foldl (fun t q => j.planes.foldl (fun u e =>
    putDesc u q.1 q.2 e.1 ((u.plane q.1 q.2).desc e.1) ⟨⟨((List.range 10).map (desc e.2)).toArray, by simp⟩, 0⟩) t) s
  j.reds.foldl (fun u r => putRed u r.1 r.2.1
    { RedCtx.reset with regs := ⟨((List.range 6).map fun k => own (ranked s j r.2.2) k &&& redMask k).toArray, by simp⟩ }) t

/-- The die of a bay: that of its first member, or its port's. -/
def bayDie (s : State) (b : Bay) : Nat :=
  match b.members.head? with
  | some m => if m.placed then m.die else (b.portDie s).getD 0
  | none => (b.portDie s).getD 0

/-- The die of R477 for a job: where its bay stands, or, while a class T job waits for a place, the die with the fewest class T
ashlars in use, since it holds no bytes and no context yet. -/
def homeDie (s : State) (j : Job) : Nat :=
  let waits := j.clsT && !(j.bays.any fun b => b.members.any fun m => m.placed)
  if waits then
    (List.range s.part.dies).foldl (fun best d => if usedT s d < usedT s best then d else best) 0
  else (j.bays.head?.map (bayDie s)).getD 0

/-- The die a tensor is placed from (R479): for a serving job that of the first bay that reads it, else the job's. -/
def preferredDie (s : State) (id : Half) (e : TensorEntry) : Nat :=
  match s.job id with
  | some j =>
    (match if j.clsT then none else j.bays.find? fun b => bayReads b.img e.handle.toNat with
     | some b => bayDie s b
     | none => homeDie s j)
  | none => 0

/-- A verified image set placed, or none: bays (a class T job may wait for its own), tensors with their contents, staged runs,
descriptors and contexts. -/
def placeImage (s : State) (id : Half) (j : JobImage) : Option State :=
  let s0 := s.free.2.onMas fun m => { m with jobs := m.jobs ++ [newJob s id j] }
  let placed := placeBays s0 id
  if placed.isNone ∧ !j.clsT then none
  else
    let s1 := placed.getD s0
    ((placeTensors s1 (((s1.job id).map (homeDie s1)).getD 0) (preferredDie s1 id) id j.tensors).bind fun t =>
        if placed.isSome then stageJob t id else some t).map fun t =>
      let t := writeEngines (j.inits.foldl (fun u i => initTensor u id i) t) id j
      if placed.isSome then displaceJobs (queueJob (t.onJob id fun x => { x with state := .loading }) id false) else t

/-- Whether a socket may still bring T3 frames (R670). -/
def socketsStarting (s : State) : Bool :=
  (List.range s.part.dies).any fun d => (s.die d).socket.svc == .training || (s.die d).socket.svc == .init

/-- A verified image set placed; its command waits for its loads, or is answered: at once for a class T job that waits in the
run queue, with NOROOM where nothing fits, later where T3 may still come. -/
def admitImage (s : State) (tag : Option Word) (img : JobImage) : State :=
  let id := freeJobId s
  let j := loaderImage img
  match placeImage s id j, tag with
  | some t, some w =>
    if ((t.job id).map fun x => x.state) = some .waiting then (advanceFor t j.hdr).complete w 0 0 0 id.toNat
    else t.onJob id fun x => { x with wait := some (w, 1) }
  | some t, none => t
  | none, some w =>
    if socketsStarting s then s.onMas fun m => { m with heldLoads := m.heldLoads ++ [(w, j)] } else s.complete w 4 0 0 0
  | none, none => s

/-- An image set verified and admitted; an empty slot or unreadable memory holds no image. -/
def loadImage (s : State) (tag : Option Word) (img : Option JobImage) : State :=
  match img with
  | none => imageRefused s tag evImgFormat
  | some j =>
    match verifyJob s j with
    | some e => imageRefused s tag e.1
    | none =>
      if chainUp s j then admitImage s tag j
      else
        match tag with
        | some w => refused s w
        | none => s

/-- A command that needs the fabrics waits in its ring until the module is Active again. -/
def whileAwake (s : State) (go : Host.Outcome State Fault Refusal) : Host.Outcome State Fault Refusal :=
  if awake s then go else .next s

/-- The image set a LOAD_JOB names (R496): that of a fabric-flash slot, where its length is 0 (DESIGN CHOICE, log 132), else what
the bytes hold that host memory has there; with the module list of the command. -/
def namedImage (s : State) (c : HostCmd) (img : LoadSource) : Option JobImage :=
  if argNat c.args 8 8 = 0 then ((s.flash.store.toList[argNat c.args 0 1]?).join).map fun j => { j with modules := img.modules }
  else img.bytes.map fun b => jobImage (b.take (argNat c.args 8 8)) img.modules

/-- LOAD_JOB (R496, R601): a slot that does not exist is a bad field. -/
def execLoadJob (c : HostCmd) (img : LoadSource) (s : State) : Host.Outcome State Fault Refusal :=
  whileAwake s <| hostCommand s c 1 fun t =>
    if argNat c.args 8 8 = 0 ∧ 5 ≤ argNat c.args 0 1 then t.complete c.tag 2 0 0 0
    else loadImage t (some c.tag) (namedImage t c img)

/-- The loads held for T3, tried again once every socket has left INIT (R670). -/
def retryHeld (s : State) : State :=
  if socketsStarting s then s
  else s.mas.heldLoads.foldl (fun t h => admitImage t (some h.1) h.2) (s.onMas fun m => { m with heldLoads := [] })

/-- RUN_QUEUE_PLACE (R26, R478, R670). DESIGN CHOICE (log 189): with it the Mason also moves bays off degraded dies. -/
def execRunQueuePlace (s : State) : Host.Outcome State Fault Refusal :=
  .next (if steady s then placeNext (vacateDies (retryHeld s)) else s)

/-- AUTOSTART_LOAD (R607, R613): once after the fabrics have started and every socket has left INIT, the enabled entries in
order. -/
def autostart (s : State) : State :=
  if !steady s ∨ s.mas.autostarted ∨ s.fld .mas 0x84 0 3 ≠ 1 ∨ s.fld .cfg 0x74 0 1 = 0 ∨ socketsStarting s then s
  else ((readCopy s.flash.autostart []).filter fun e => e.1).foldl (fun t e => loadImage t none (t.flash.store[ix 5 e.2 (by decide)]))
    (s.onMas fun m => { m with autostarted := true })

def execAutostartLoad (s : State) : Host.Outcome State Fault Refusal := .next (autostart s)

/-! ### Commands of one job (R467, R487, R496) -/

/-- Whether an earlier command of a job is open: one that waits for it, or a PUBLISH from it or to it (R495). -/
def jobBusy (s : State) (id : Half) : Bool :=
  (s.job id).any (fun j => j.wait.isSome)
    || s.mas.publish.any fun p => p.tag.isSome && (p.job == id || p.train == id)

/-- A command of a job: NO_JOB where it is not loaded; not fetched while an earlier command of the job is open (R495), and,
but for SET_PRIORITY and QUERY_JOB, not in Curing. -/
def jobCommand (s : State) (c : HostCmd) (opcode : Nat) (go : Job → State → State) : Host.Outcome State Fault Refusal :=
  if (jobBusy s c.job ∨ (!awake s ∧ opcode ≠ 6 ∧ opcode ≠ 0x0C)) ∧ c.opcode.toNat = opcode ∧ !c.spare then .next s
  else
    hostCommand s c opcode fun t =>
      match t.job c.job with
      | none => t.complete c.tag 3 0 0 0
      | some j => go j t

def startCmd (tag : Word) (j : Job) (s : State) : State :=
  match j.state with
  | .loaded => (serveJob s j.id false).complete tag 0 0 0 0
  | .waiting => (s.onJob j.id fun x => { x with started := true }).complete tag 0 0 0 0
  | .faulted => s.complete tag 9 0 j.cause.toNat 0
  | _ => refused s tag

/-- START_JOB (R496). -/
def execStartJob (c : HostCmd) (s : State) : Host.Outcome State Fault Refusal := jobCommand s c 2 (startCmd c.tag)

/-- A class S bay stopped: every member fenced, its routes not LIVE, its group SILENT. A member out of service stays what it is,
behind its fence. -/
def stopBay (s : State) (id : Half) (bi : Nat) : State :=
  match s.bay id bi with
  | none => s
  | some b =>
    let stop := fun (y : Member) => if y.state = .serving then { y with state := .stopped } else y
    let t := (List.range b.members.length).foldl (fun t m =>
      if ((t.member id bi m).map fun y => y.placed) = some true then (fenceMember t id bi m false).onMember id bi m stop else t) s
    if (b.portDie s).isSome then writeGroup t b [] else t

def stopCmd (tag : Word) (j : Job) (s : State) : State :=
  let keep := s.onJob j.id fun x => { x with kept := true }
  if j.state = .faulted then s.complete tag 9 0 j.cause.toNat 0
  else if j.clsT then
    match j.state with
    | .running => (startPreempt keep j.id).onJob j.id fun x => { x with wait := some (tag, 3) }
    | .preempting => keep.onJob j.id fun x => { x with wait := some (tag, 3) }
    | .loaded => (withdrawJob keep j.id).complete tag 0 0 0 0
    | .waiting => keep.complete tag 0 0 0 0
    | .preempted => keep.complete tag 0 0 0 0
    | _ => refused s tag
  else if j.state = .running then
    (((List.range j.bays.length).foldl (fun t b => stopBay t j.id b) s).onJob j.id fun x => { x with state := .stopped }).complete
      tag 0 0 0 0
  else refused s tag

/-- STOP_JOB (R485, R496). -/
def execStopJob (c : HostCmd) (s : State) : Host.Outcome State Fault Refusal := jobCommand s c 3 (stopCmd c.tag)

/-- A stopped class S bay in service again: members rebuilt meanwhile are joined to one that serves, or serve by a BAY_REBUILD. -/
def resumeBay (s : State) (id : Half) (bi : Nat) : State :=
  match s.bay id bi with
  | none => s
  | some b =>
    let l := b.membersIn .stopped
    let t := l.foldl (fun t m => (setLive (unfenceMember t id bi m) b m true).memberState id bi m .serving) s
    if l.isEmpty then t else settleMode t id bi

def resumeCmd (tag : Word) (j : Job) (s : State) : State :=
  if j.state = .faulted then s.complete tag 9 0 j.cause.toNat 0
  else if j.clsT ∧ j.kept then
    match j.state with
    | .preempted => s.onJob j.id fun x => { x with kept := false, wait := some (tag, 4) }
    | .waiting => (s.onJob j.id fun x => { x with kept := false }).complete tag 0 0 0 0
    | _ => refused s tag
  else if j.state = .stopped then
    (((List.range j.bays.length).foldl (fun t b => resumeBay t j.id b) s).onJob j.id fun x => { x with state := .running }).complete
      tag 0 0 0 0
  else refused s tag

/-- RESUME_JOB (R487): a kept class T job goes back to the run queue, and its command is answered once it runs. -/
def execResumeJob (c : HostCmd) (s : State) : Host.Outcome State Fault Refusal := jobCommand s c 4 (resumeCmd c.tag)

/-- UNLOAD_JOB (R496). -/
def execUnloadJob (c : HostCmd) (s : State) : Host.Outcome State Fault Refusal :=
  jobCommand s c 5 fun j t => (freeJob t j.id).complete c.tag 0 0 0 0

def priorityCmd (c : HostCmd) (j : Job) (s : State) : State :=
  let p := argNat c.args 0 1
  if 7 < p then s.complete c.tag 2 0 0 0
  else if !j.clsT then refused s c.tag
  else (s.onJob j.id fun x => { x with prio := p }).complete c.tag 0 0 0 0

/-- SET_PRIORITY (R467). -/
def execSetPriority (c : HostCmd) (s : State) : Host.Outcome State Fault Refusal := jobCommand s c 6 (priorityCmd c)

/-- The states of a job numbered. -/
def JobState.code : JobState → Nat
  | .waiting => 0
  | .loading => 1
  | .loaded => 2
  | .running => 3
  | .preempting => 4
  | .preempted => 5
  | .stopped => 6
  | .faulted => 7

/-- QUERY_JOB (R496): the job's state, the origin of each of its bays' members, and what faulted it, in a layout that is open. -/
def execQueryJob (c : HostCmd) (s : State) : Host.Outcome State Fault Refusal :=
  jobCommand s c 0x0C fun j t =>
    let places := j.bays.map fun b => b.members.map fun m => if m.placed then some (m.die, m.x, m.y) else none
    t.complete c.tag 0 0 0 (Config.queryResult j.state.code places j.cause).toNat

def signalCmd (c : HostCmd) (j : Job) (s : State) : State :=
  let bi := argNat c.args 0 1
  let x := argNat c.args 1 1
  let y := argNat c.args 2 1
  let peg := argNat c.args 3 1
  match j.bays[bi]? with
  | none => s.complete c.tag 2 0 0 0
  | some b =>
    if b.img.w ≤ x ∨ b.img.h ≤ y ∨ 48 ≤ peg then s.complete c.tag 2 0 0 0
    else if !(b.members.any fun m => m.placed) then refused s c.tag
    else
      (b.members.foldl (fun t m =>
        match physicalRow t m.die (m.y + y) with
        | some row => if m.placed then addToPeg t ⟨m.die, m.x + x, row⟩ peg (argNat c.args 4 2) else t
        | none => t) s).complete c.tag 0 0 0 0

/-- SIGNAL (R395): every member of the bay is signalled, so that they stay alike. -/
def execSignal (c : HostCmd) (s : State) : Host.Outcome State Fault Refusal := jobCommand s c 0x0B (signalCmd c)

/-! ### Stream slots (R489 to R491) -/

/-- The class S bays fed by a port. -/
def portBays (s : State) (port : Nat) : List (Half × Nat × Bay) :=
  s.mas.jobs.flatMap fun j => if j.clsT then [] else
    j.bays.zipIdx.filterMap fun b => if b.1.img.port = port then some (j.id, b.2, b.1) else none

/-- Whether every member of a bay serves. -/
def Bay.allServe (b : Bay) : Bool := b.members.all fun m => m.state == .serving

/-- Whether a bay has a member fenced, installing or resynchronising (R491). -/
def Bay.unsettled (b : Bay) : Bool := b.members.any fun m => decide (m.fence < 16) || m.state == .loading || m.state == .rebuilt

def setSlot (s : State) (id : Half) (bi n : Nat) (v : SlotState) : State :=
  s.onBay id bi fun b => { b with slots := b.slots.set n v }

/-- The port, key and bay index of a slot command. -/
def slotPort (c : HostCmd) : Nat := argNat c.args 0 1
def slotKey (c : HostCmd) : BitVec 128 := BitVec.ofNat 128 (argNat c.args 1 16)
def slotBay (c : HostCmd) : Nat := argNat c.args 17 1

def slotAddCmd (c : HostCmd) (j : Job) (s : State) : State :=
  match j.bays[slotBay c]? with
  | none => s.complete c.tag 2 0 0 0
  | some b =>
    if b.img.port ≠ slotPort c ∨ (b.portDie s).isNone ∨ j.clsT then s.complete c.tag 2 0 0 0
    else
      let d := slotPort c
      let n := b.slots.findIdx fun x => x == .free
      if ((s.die d).ing.find (slotKey c)).isSome then s.complete c.tag 6 0 0 0
      else if b.slots.length ≤ n then s.complete c.tag 7 0 0 0
      else
        let r := (s.die d).ing.insert (slotKey c) (BitVec.ofNat 16 n) (BitVec.ofNat 3 b.img.group)
        if r.1 ≠ 0 then s.complete c.tag 7 0 0 0
        else (setSlot ((initSlot s b n).onIng d fun _ => r.2) j.id (slotBay c) n (.live d (slotKey c))).complete c.tag 0 0 0 n

/-- SLOT_ADD (R490, R491): it waits while a member of the bay is fenced, installing or resynchronising. -/
def execSlotAdd (c : HostCmd) (s : State) : Host.Outcome State Fault Refusal :=
  if ((s.bay c.job (slotBay c)).map fun b => b.unsettled) = some true ∧ c.opcode = 7 ∧ !c.spare then .next s
  else jobCommand s c 7 (slotAddCmd c)

/-- The bay and slot that a key of a port maps to. -/
def liveSlot (s : State) (port : Nat) (key : BitVec 128) : Option (Half × Nat × Bay × Nat) :=
  (portBays s port).findSome? fun b =>
    let n := b.2.2.slots.findIdx fun x => x == .live port key
    if n < b.2.2.slots.length then some (b.1, b.2.1, b.2.2, n) else none

/-- SLOT_REMOVE (R489, R491): the entry goes at once, the slot drains; it waits as SLOT_ADD does. -/
def execSlotRemove (c : HostCmd) (s : State) : Host.Outcome State Fault Refusal :=
  let x := liveSlot s (slotPort c) (slotKey c)
  if (x.map fun y => y.2.2.1.unsettled) = some true ∧ c.opcode = 8 ∧ !c.spare then .next s
  else
    whileAwake s <| hostCommand s c 8 fun t =>
      match x with
      | none => t.complete c.tag 2 0 0 0
      | some (id, bi, _, n) =>
        let d := slotPort c
        let r := (t.die d).ing.delete (slotKey c)
        (setSlot (t.onIng d fun _ => r.2) id bi n (.drain (t.die d).ing.seq)).complete c.tag 0 0 0 0

/-- Whether egress has released or suppressed every event of a group that precedes a sequence number (R489). -/
def drainedBefore (s : State) (d k : Nat) (seq : Word) : Bool :=
  let g := (s.die d).ing.group k
  let last := ((s.die d).egr.group k).last
  (g.queue.all fun e => seqLe seq e.seq)
    && (match g.delivered with
        | none => true
        | some x => seqLe x last || seqLe (seq - 1) last)

/-- SLOT_DRAIN_DONE (R489). -/
def slotDrainDone (s : State) (id : Half) (bi n : Nat) : State :=
  match s.bay id bi with
  | none => s
  | some b =>
    match b.slots[n]?, b.portDie s with
    | some (.drain seq), some d => if drainedBefore s d (b.img.group % 8) seq then setSlot s id bi n .free else s
    | _, _ => s

def execSlotDrainDone (job : Half) (bay slot : Nat) (s : State) : Host.Outcome State Fault Refusal :=
  .next (slotDrainDone s job bay slot)

/-! ### DIMM service (R425, R427, R432) -/

/-- The tensors of the frames in use on a socket, one entry a frame. -/
def socketFrames (s : State) (die : Nat) : List (Half × BitVec 20) :=
  (s.die die).frames.filterMap fun e => match e.2.use with
    | .seg j h _ => if e.1.1 = 3 then some (j, h) else none
    | _ => none

/-- The sets of tiers. -/
def tierSets : List (List Nat) := [[], [1], [2], [3], [1, 2], [1, 3], [2, 3], [1, 2, 3]]

/-- The tiers that a tensor allows. -/
def Tensor.tiers (x : Tensor) : List Nat := [1, 2, 3].filter fun k => decide (x.tmin ≤ k) && decide (k ≤ x.tmax)

/-- Whether the frames of a socket find places on the other dies, each in a tier and on a die that its tensor allows, beyond the
reserves (R427). Of any set of frames the places that they allow must be as many: for the frames that may go to any die and
allow only tiers of a set U, with those pinned to a die that allow only tiers of a larger set V. -/
def socketFits (s : State) (die : Nat) (frames : List (Half × BitVec 20)) : Bool :=
  let ts := frames.map fun f => match s.tensor 0 f.1 f.2 with
    | .found x => some x
    | _ => none
  let room := fun (d : Nat) (v : List Nat) => if d = die then 0 else
    (v.map fun k => freeFrames s d k - reserveOf s d k).foldl (· + ·) 0
  let count := fun (want : Tensor → Bool) => (ts.filter fun t => match t with
    | some x => want x
    | none => false).length
  let within := fun (x : Tensor) (v : List Nat) => x.tiers.all v.contains
  ts.all Option.isSome && tierSets.all fun u =>
    let free : Int := count fun x => !x.pin && within x u
    let lack : List Int := (List.range s.part.dies).map fun d =>
      ((tierSets.filter fun v => u.all v.contains).map fun v =>
        Int.ofNat (count fun x => x.pin && x.pinDie == d && within x v) - Int.ofNat (room d v)).foldl max
        (-(Int.ofNat (room d u)))
    decide (free + lack.sum ≤ 0)

/-- Why a socket may not be in service or be readmitted now, 0 where it may: another one is, or the module is in Curing (R425,
R427). -/
def serviceBar (s : State) (die : Nat) : Nat :=
  let away := fun (d : Nat) =>
    let v := (s.die d).socket.svc
    v != .online && v != .absent && v != .rejected
  if (List.range s.part.dies).any fun d => d != die && away d then 1 else if s.pstate = .curing then 2 else 0

/-- The REASON for which service is refused, 0 where it is not (R427, R432). -/
def serviceReason (s : State) (die : Nat) : Nat :=
  if serviceBar s die ≠ 0 then serviceBar s die else if !socketFits s die (socketFrames s die) then 3 else 0

/-- A DIMM_SERVICE command refused: its REASON also stands in SVC_STATUS. -/
def serviceRefused (s : State) (c : HostCmd) (die r : Nat) : State :=
  let d := s.die die
  (s.setDie die { d with socket := { d.socket with reason := BitVec.ofNat 4 r } }).complete c.tag 5 r 0 0

/-- A DIMM_SERVICE command of one action: an action above 2, or a die the part lacks, is a bad field. -/
def serviceCommand (s : State) (c : HostCmd) (action : Nat) (go : Nat → State → State) : Host.Outcome State Fault Refusal :=
  let die := argNat c.args 0 1
  let a := argNat c.args 1 1
  if c.opcode = 0x0A ∧ a ≠ action ∧ a ≤ 2 ∧ !c.spare then .next s
  else
    hostCommand s c 0x0A fun t =>
      if a ≠ action ∨ t.part.dies ≤ die then t.complete c.tag 2 0 0 0 else go die t

/-- DIMM_SERVICE_BEGIN (R427). -/
def execDimmServiceBegin (c : HostCmd) (s : State) : Host.Outcome State Fault Refusal :=
  serviceCommand s c 0 fun die t =>
    let r := serviceReason t die
    if r ≠ 0 then serviceRefused t c die r
    else if (t.die die).socket.svc ≠ .online then t.complete c.tag 5 0 0 0
    else (socketEvacuate t die).complete c.tag 0 0 0 0

/-- DIMM_SERVICE_CANCEL (R425). -/
def execDimmServiceCancel (c : HostCmd) (s : State) : Host.Outcome State Fault Refusal :=
  serviceCommand s c 1 fun die t =>
    if (t.die die).socket.svc ≠ .evacuating then t.complete c.tag 5 0 0 0
    else (socketCancel t die).complete c.tag 0 0 0 0

/-- DIMM_SERVICE_READMIT (R425). -/
def execDimmServiceReadmit (c : HostCmd) (s : State) : Host.Outcome State Fault Refusal :=
  serviceCommand s c 2 fun die t =>
    if (t.die die).socket.svc ≠ .present then t.complete c.tag 5 0 0 0
    else if serviceBar t die ≠ 0 then serviceRefused t c die (serviceBar t die)
    else (socketReadmit t die).complete c.tag 0 0 0 0

/-! ### Recovering a member (R623 to R630) -/

/-- Whether a member waits for a recovery: faulted, or its rebuild has failed once (R630). -/
def Member.toRecover (y : Member) : Bool := y.state == .faulted || (y.state == .failed && decide (y.fails < 2))

/-- The members of class S jobs in service or not yet started that wait for a recovery, in order of fault time (R46, R47, R606). -/
def dueRecoveries (s : State) : List (Half × Nat × Nat × DWord) :=
  ((allMembers s).filterMap fun k =>
    match s.job k.1, s.member k.1 k.2.1 k.2.2 with
    | some j, some y => if !j.clsT && (j.state == .running || j.state == .loaded) && y.toRecover then
        some (k.1, k.2.1, k.2.2, y.faultAt) else none
    | _, _ => none).mergeSort fun a b => decide (a.2.2.2 ≤ b.2.2.2)

/-- A member's recovery asked for: at its place, or on another die where its own is degraded (R26). -/
def recoverAt (s : State) (id : Half) (bi m : Nat) : State :=
  if ((s.member id bi m).map fun y => degraded s y.die) = some true then moveMember s id bi m else recoverMember s id bi m

/-- Recoveries asked for, with those of every fault before them: the Mason takes faults in their order. -/
def recoverAll (s : State) (want : Half × Nat × Nat × DWord → Bool) : State :=
  let due := dueRecoveries s
  let last := ((due.filter want).map fun k => k.2.2.2).foldl (fun (a b : DWord) => if a < b then b else a) 0
  if due.any want then
    (due.filter fun (k : Half × Nat × Nat × DWord) => decide (k.2.2.2 < last) || want k).foldl
      (fun t k => recoverAt t k.1 k.2.1 k.2.2.1) s
  else s

/-- MEMBER_RECOVERY (R624, R629): a faulted member of a bay in which another serves. -/
def memberRecovery (s : State) (id : Half) (bi m : Nat) : State :=
  match s.bay id bi with
  | some b => if steady s && !b.serving.isEmpty then recoverAll s fun k => (k.1, k.2.1, k.2.2.1) == (id, bi, m) else s
  | none => s

def execMemberRecovery (job : Half) (bay member : Nat) (s : State) : Host.Outcome State Fault Refusal :=
  .next (memberRecovery s job bay member)

/-- BAY_REBUILD (R630, R632): a bay without a serving member. A member already rebuilt serves alone; else every faulted one is
loaded again. -/
def bayRebuild (s : State) (id : Half) (bi : Nat) : State :=
  match s.job id, s.bay id bi with
  | some j, some b =>
    if !steady s || j.clsT || !b.serving.isEmpty then s
    else
      match (b.membersIn .rebuilt).head? with
      | some m => if j.state = .running then serveAlone s id bi m else s
      | none => recoverAll s fun k => (k.1, k.2.1) == (id, bi)
  | _, _ => s

def execBayRebuild (job : Half) (bay : Nat) (s : State) : Host.Outcome State Fault Refusal := .next (bayRebuild s job bay)

/-- Words of an ashlar's class G windows copied to another ashlar. -/
def copyWords (from' onto : Ashlar) : Ashlar :=
  (List.range 6144).foldl (fun u w =>
    if coverClass from' w = some 1 then
      let d := spadRaw from' w
      let x := eccData (classDecode 1 d.1 d.2) d.1
      storeWord u w x (classCheck 1 x)
    else u) onto

/-- The resynchronisation set of an ashlar copied to the matching one (R132, R627), which keeps its banks and its origin. -/
def resync (from' onto : Ashlar) : Ashlar :=
  let u := copyWords from' onto
  let j := from'.joiner
  let k := u.joiner
  let win := fun (n : Nat) =>
    let a := from'.win n
    { u.win n with epoch := a.epoch, isOpen := a.isOpen, tail := a.tail, occ := a.occ, rsv := a.rsv, held := a.held, rd := a.rd
                   wr := a.wr, used := a.used, recs := a.recs, vcs := a.vcs }
  let u := (List.range 16).foldl (fun x n => x.setWin n (win n)) u
  let u := (List.range 48).foldl (fun x n => x.setPeg n { x.peg n with value := (from'.peg n).value }) u
  let u := (List.range 8).foldl (fun x n => x.setEp n { from'.ep n with
    drops := (x.ep n).drops, poisoned := (x.ep n).poisoned, arrivals := (x.ep n).arrivals }) u
  { u with
    out := from'.out
    joiner := { j with
      bank0 := k.bank0, bank1 := k.bank1, active := k.active, armed := k.armed, bayX := k.bayX, bayY := k.bayY, entry := k.entry
      hentry := k.hentry, autorun := k.autorun, handlerEn := k.handlerEn, bkpt0 := k.bkpt0, bkpt0En := k.bkpt0En
      bkpt1 := k.bkpt1, bkpt1En := k.bkpt1En, issued := k.issued } }

/-- Events in flight to a survivor: none where its route's CREDIT and its entry endpoint's COUNT make up the depth. -/
def entryBalanced (s : State) (b : Bay) (m : Nat) : Bool :=
  match b.portDie s with
  | none => true
  | some d =>
    ((s.die d).ing.routes.toList.filter fun r =>
      r.entry.valid && r.group.toNat == b.img.group % 8 && r.member.toNat == m).all fun r =>
        match ashOf s r.entry.dest with
        | some a => r.entry.credit.toNat + ((s.ash a).ep r.entry.ep.toNat).flits.length == 4
        | none => true

/-- The survivor stands at its hold: peg 46 of its entry ashlar has advanced (R628, R629). -/
def held (s : State) (b : Bay) (sv : Nat) (hold : Option Half) : Bool :=
  match hold, entryAsh s b sv with
  | some h, some a => decide ((((s.ash a).peg 46).value - h).toNat < 2 ^ 15)
  | _, _ => true

/-- The rebuilt member's route takes the survivor's CREDIT. -/
def shareCredit (s : State) (b : Bay) (sv m : Nat) : State :=
  match b.portDie s with
  | none => s
  | some d => s.onIng d fun g =>
      let of := fun (k : Nat) (r : IngRoute) => r.entry.valid && r.group.toNat == b.img.group % 8 && r.member.toNat == k
      match g.routes.toList.find? (of sv) with
      | some x =>
        let take := fun (r : IngRoute) => if of m r then { r with entry := { r.entry with credit := x.entry.credit } } else r
        { g with routes := g.routes.map take }
      | none => g

/-- The pairs of matching ashlars of two members. -/
def twinPairs (s : State) (b : Bay) (x y : Member) : List (Ash × Ash) := (b.ashlars s x).zip (b.ashlars s y)

/-- Steps 4 to 7 of R629: the survivor frozen, its set copied, the rebuilt member joined to the group, both let go. -/
def joinMember (s : State) (id : Half) (bi m sv : Nat) : State :=
  match s.bay id bi, s.member id bi m, s.member id bi sv with
  | some b, some n, some v =>
    let l := b.ashlars s v
    let t := freezeAll s l
    let t := (twinPairs t b v n).foldl (fun t p => t.setAsh p.2 (resync (t.ash p.1) (t.ash p.2))) t
    let t := relocate t id bi m
    let t := (b.ashlars t n).foldl (fun t a => bayorgWrite t a (orgWord t n)) t
    let t := shareCredit (settleMove t id bi m) b sv m
    let t := setVersion (setLive t b m true) b m b.version
    let t := t.onMember id bi m fun y => { y with state := .serving, asked := none, hold := none, fails := 0, cause := 0 }
    let t := openMember (thawAll t l) id bi m
    [sv, m].foldl (fun t k => match entryAsh t b k with
      | some a => addToPeg t a 47 1
      | none => t) t
  | _, _, _ => s

/-! ### Publishing (R457 to R461) -/

/-- The derived rows in place of those of the bay's image, its version one more, and the staged copies rewritten (R457, R458). -/
def stageCopy (s : State) (id : Half) (bi : Nat) (rows : List DerivedRow) : State :=
  match s.bay id bi with
  | none => s
  | some b =>
    let runs := b.img.runs.map (patchRun rows)
    let of := fun (g : Staged) => runs.find? fun r => r.xr == g.xr && r.yr == g.yr
    let t := s.onBay id bi fun x => { x with
      img := { x.img with runs := runs }, staged := x.staged.map (fun g => { g with crc := ((of g).map (·.rcrc)).getD g.crc })
      version := x.version + 1 }
    b.staged.foldl (fun u g => match of g with
      | some r => writeRun u g.fd g.off r.words
      | none => u) t

def publishCmd (c : HostCmd) (tensors : List DeriveTensor) (s : State) : State :=
  let train := BitVec.ofNat 16 (argNat c.args 0 2)
  let id := BitVec.ofNat 16 (argNat c.args 2 2)
  let bi := argNat c.args 4 1
  match s.job train, s.job id with
  | some _, some j =>
    (match j.bays[bi]? with
     | none => s.complete c.tag 2 0 0 0
     | some b =>
       if j.clsT ∨ !b.allServe then refused s c.tag
       else
         match deriveAll train (b.version + 1) tensors s with
         | (none, t) => refused t c.tag
         | (some rows, t) => publishGo (takePublish (stageCopy t id bi rows) c.tag train id bi (installOrder b)) id bi)
  | _, _ => s.complete c.tag 3 0 0 0

/-- PUBLISH (R459): one at a time, and after every earlier command of its two jobs (R495). -/
def execPublish (c : HostCmd) (tensors : List DeriveTensor) (s : State) : Host.Outcome State Fault Refusal :=
  let mine := fun (k : Nat) => jobBusy s (BitVec.ofNat 16 (argNat c.args k 2))
  if (s.mas.publish.isSome ∨ mine 0 ∨ mine 2 ∨ !awake s) ∧ c.opcode = 9 ∧ !c.spare then .next s else hostCommand s c 9 (publishCmd c tensors)

/-- SURVIVOR_HELD (R629): the survivor holds and no event is on its way to it. One that has not been asked to hold, since another
one was that has faulted, is asked now (R632). -/
def survivorHeld (s : State) (id : Half) (bi m : Nat) : State :=
  match s.bay id bi, s.member id bi m with
  | some b, some y =>
    (match b.serving.head? with
     | none => s
     | some sv =>
       if y.state ≠ .rebuilt ∨ !steady s ∨ (s.job id).any (fun j => j.state != .running) then s
       else if y.asked ≠ some sv then askHold s id bi m sv
       else if held s b sv y.hold && entryBalanced s b sv then
         backInService (joinMember s id bi m sv) id bi m y.recovering
       else s)
  | _, _ => s

def execSurvivorHeld (job : Half) (bay member : Nat) (s : State) : Host.Outcome State Fault Refusal :=
  .next (survivorHeld s job bay member)

/-! ### Restarts (R47, R482, R485, R499, R612, R636) -/

/-- Commands fetched and not completed answered with STATUS 5 and REASON 0xFF; jobs whose LOAD_JOB was open go. -/
def abandonCommands (s : State) : State :=
  let t := (s.mas.jobs.filter fun j => j.wait.isSome).foldl (fun t j =>
    match j.wait with
    | some w =>
      let u := (t.onJob j.id fun x => { x with wait := none }).complete w.1 5 0xFF 0 0
      if w.2 = 1 then freeJob u j.id else u
    | none => t) s
  let t := t.mas.heldLoads.foldl (fun u h => u.complete h.1 5 0xFF 0 0) (t.onMas fun m => { m with heldLoads := [] })
  match t.mas.publish with
  | some p =>
    (match p.tag with
     | some w => (t.onMas fun m => { m with publish := some { p with tag := none } }).complete w 5 0xFF 0 0
     | none => t)
  | none => t

/-- The Mason restarts while the fabrics run: open commands are answered, loads restart from step 2 and pre-emptions from
step 1 once it is ready again; the restart and its cause are counted (R684). -/
def restartMason (s : State) (cause : Nat) : State :=
  let t := ((abandonCommands s).count16 .mas 0x118 0 1).setFld .mas 0x118 16 3 cause
  let again := fun (j : Job) =>
    if j.state = .preempting then { j with step := 1, saves := [], records := [] } else j
  let t := t.onMas fun m => { m with
    ready := false, probe := [], jobs := m.jobs.map again
    loads := m.loads.map fun q => { q with active := false, left := [], failed := false, draining := false } }
  t.setFld .mas 0x84 0 3 2

/-- MASON_RESTART (R47): onto a firmware slot that verifies (R586). -/
def execMasonRestart (c : HostCmd) (s : State) : Host.Outcome State Fault Refusal :=
  hostCommand s c 0x0D fun t =>
    let slot := argNat c.args 0 1
    if 2 ≤ slot then t.complete c.tag 2 0 0 0
    else
      match t.flash.firmware[ix 2 slot (by decide)] with
      | none => imageRefused t (some c.tag) evImgFormat
      | some f =>
        match verifyFirmware t f with
        | some e => imageRefused t (some c.tag) e.1
        | none => restartMason ((keepStore t { t.kept with bootSlot := slot }).complete c.tag 0 0 0 0) 1

/-- MAS_WDOG (R636). -/
def execMasWdog (s : State) : Host.Outcome State Fault Refusal :=
  .next (if s.mas.ready then (restartMason s 2).raise .mas evMasWdog 0 else s)

/-- A firmware slot and its image, where that verifies (R586). -/
def goodFirmware (s : State) (slot : Nat) : Option (Nat × FirmwareImage) :=
  (s.flash.firmware[ix 2 slot (by decide)]).bind fun f => if (verifyFirmware s f).isNone then some (slot, f) else none

/-- The slot the boot loader starts: the one of the boot record, or the other where that fails (R613, R668). -/
def bootFirmware (s : State) : Option (Nat × FirmwareImage) :=
  (goodFirmware s (s.kept.bootSlot % 2)).or (goodFirmware s (1 - s.kept.bootSlot % 2))

/-- The event of a boot slot that is refused (R586). -/
def noteFirmware (s : State) : State :=
  match s.flash.firmware[ix 2 s.kept.bootSlot (by decide)] with
  | none => s.raise .cfg evImgFormat 0
  | some f =>
    match verifyFirmware s f with
    | some e => s.raise .cfg e.1 0
    | none => s

/-- MAS.FW and MAS.FW_BUILD (R684). -/
def showFirmware (s : State) (slot : Nat) (h : ImgHeader) : State :=
  (s.setReg .mas 0x10C (BitVec.ofNat 32 (slot + h.svn * 2))).setPair .mas 0x110 h.buildId.toNat

/-- MAS.STATE.MODE of a Mason that has become ready: Recovery, running once the tiers are trained, or booting (R501, R595,
R668). -/
def modeOf (s : State) : Nat :=
  if s.fld .cfg 0x40 0 3 = 4 then 3 else if s.fld .cfg 0x40 0 3 = 3 ∧ fdTier (directory s) ≠ 0 then 1 else 0

/-! #### The critical point (R659) -/

def setThermLevel (s : State) (d n : Nat) : State := s.setFld .pwr (trimOff d) 12 3 n

/-- The Mason's action at the critical point: class T jobs of the die pre-empted, the die at level 7. -/
def critAct (s : State) (d : Nat) : State :=
  let l := s.mas.jobs.filter fun j => j.clsT && j.bays.any fun b => b.members.any fun m => m.placed && m.die == d
  setThermLevel (l.foldl (fun t j => startPreempt t j.id) s) d 7

/-- The dies that crossed the critical point while the Mason was not ready (R47). -/
def critDueActs (s : State) : State :=
  ((List.range s.part.dies).filter fun d => s.supply.critDue.getLsbD d).foldl critAct
    { s with supply := { s.supply with critDue := 0 } }

/-- MASON_READY (R499, R668): firmware that verifies runs, with mclk locked; after a reset the Mason chooses its home. -/
def masonReady (s : State) : State :=
  if s.mas.ready || !powered s || s.fld .clk 0x40 16 1 == 0 then s
  else
    match bootFirmware s with
    | none => s
    | some k =>
      let t := showFirmware (noteFirmware s) k.1 k.2.hdr
      let t := advanceFor (t.onMas fun m => { m with ready := true, readyAt := s.time }) k.2.hdr
      critDueActs (if s.fld .mas 0x84 0 3 = 2 then t.setFld .mas 0x84 0 3 (modeOf s) else firstHome t)

def execMasonReady (s : State) : Host.Outcome State Fault Refusal := .next (masonReady s)

end Sys2Proof.Machine
end

