-- ==== Sys2Proof/Machine/Resets.lean ====
section
/-! DEFINITION. Resets of the module and of its fabrics, the supply, and the thermal trip (R642 to R644, R661, R665 to R668). -/

namespace Sys2Proof.Machine

/-! ### Pins and trip (R661, R667, R689) -/

/-- A pin's LEVEL and RAW; DONE_IN follows pin 3 (R614, R689). -/
def setPin (s : State) (pin : Nat) (high : Bool) : State :=
  let t := s.setFld .pin (0x48 + 16 * pin) 0 2 (b2n high * 3)
  if pin = 3 then t.setFld .cfg 0x40 16 1 (b2n high) else t

def pinHigh (s : State) (pin : Nat) : Bool := s.fld .pin (0x48 + 16 * pin) 0 1 == 1

def pinChatters (s : State) (pin : Nat) : Bool := s.fld .pin (0x48 + 16 * pin) 2 1 == 1

/-- After a trip a module reset has no effect for 10 s, nor while a die's last reading is above the critical point. -/
def tripHeld (s : State) : Bool :=
  s.fld .thm 0x4C 16 8 != 0 &&
  (s.supply.tripTimer || s.supply.temps.toList.any fun t => decide (4 * s.fld .thm 0x44 0 7 < t))

/-! ### Module reset (R666 to R668) -/

/-- After power-on or a module reset, before the boot loader: everything at reset but flash and fuses, and what no reset
touches: the module's identity, pins, cages, test port and sensors, and the model's own fields. -/
def coldState (s : State) : State :=
  { State.reset with
    part := s.part
    flash := s.flash
    fuses := s.fuses
    serial := s.serial
    cages := s.cages
    jtag := s.jtag
    supply := { Supply.reset with off := s.supply.off, resetLow := s.supply.resetLow, temps := s.supply.temps }
    out := s.out
    freeIdx := s.freeIdx
    pending := s.pending }

/-- Every die in one state of its fabric. -/
def allDies (s : State) (run : DieRun) : State := { s with dies := s.dies.map fun d => { d with run := run } }

/-- The fabric and memory PLLs of every die locked. -/
def lockDies (s : State) : State :=
  (s.setFld .clk 0x40 0 8 (2 ^ s.part.dies - 1)).setFld .clk 0x40 8 8 (2 ^ s.part.dies - 1)

/-- The boot loader (R668): rails up, PLLs locked, every die in configuration reset with its done output low. -/
def bootLoader (s : State) : State :=
  setPin (((lockDies (allDies s .idle)).setFld .clk 0x40 16 1 1).setFld .clk 0x40 17 1 1) 3 false

/-- POWER_ON (R668): power-good; with RESET_N low the sequence waits at time 0 (R672). -/
def execPowerOn (s : State) : Host.Outcome State Fault Refusal :=
  .next (
    if s.supply.off then s
    else if s.supply.resetLow then setPin (allDies (coldState s) .held) 0 false
    else bootLoader (coldState s))

def moduleReset (s : State) : State := if tripHeld s then s else bootLoader (coldState s)

/-- MODULE_RESET (R666). -/
def execModuleReset (s : State) : Host.Outcome State Fault Refusal := atModule s (moduleReset s)

/-- The module in reset while RESET_N is low. -/
def enterReset (s : State) : State :=
  setPin (allDies (coldState { s with supply := { s.supply with resetLow := true } }) .held) 0 false

/-- RESET_N low at its filtered level (R661, R667): while it chatters the level stays (R703). -/
def resetPinLow (s : State) : State :=
  if s.supply.off || pinChatters s 0 then s
  else if s.supply.resetLow || tripHeld s then setPin s 0 false
  else enterReset s

/-- RESET_N high again: the start-up order from time 0. -/
def resetPinHigh (s : State) : State :=
  if s.supply.off || pinChatters s 0 then s
  else if s.supply.resetLow then
    bootLoader (coldState { s with supply := { s.supply with resetLow := false } })
  else setPin s 0 true

/-- RESET_N_ASSERT (R667). -/
def execResetNAssert (s : State) : Host.Outcome State Fault Refusal := .next (resetPinLow s)

/-- RESET_N_RELEASE (R667). -/
def execResetNRelease (s : State) : Host.Outcome State Fault Refusal := .next (resetPinHigh s)

/-- THM.STATUS.HOLD as it stands; where the hold has ended and RESET_N is low, its reset now takes effect. -/
def settleHold (s : State) : State :=
  let h := tripHeld s
  let t := s.setFld .thm 0x4C 24 1 (b2n h)
  if s.fld .thm 0x4C 24 1 = 1 ∧ h = false ∧ pinHigh s 0 = false then enterReset t else t

/-! ### Fabric reset (R666) -/

/-- What belongs to no die stays; every die is at reset. -/
def clearFabric (s : State) (run : DieRun) : State :=
  { s with
    dies := Vector.replicate 8 { Die.reset with run := run }
    ashlars := []
    net := []
    portWait := []
    past := []
    regs := s.regs.filter fun e => !pageOfDie e.1
    latch := s.latch.filter fun e => !pageOfDie e.1.1
    loHeld := s.loHeld.filter fun e => !pageOfDie e.1.1
    reports := s.reports.filter fun r => !pageOfDie r.page
    heldEvents := s.heldEvents.filter fun r => !pageOfDie r.page }

/-- Every job unloaded: commands still open are refused, what the Mason holds of the dies is gone. -/
def unloadAll (s : State) : State :=
  let t := s.mas.jobs.foldl (fun t j => match j.wait with
    | some w => refused t w.1
    | none => t) s
  let t := match t.mas.publish.bind fun p => p.tag with
    | some w => refused t w
    | none => t
  t.onMas fun m => { m with
    jobs := [], loads := [], publish := none, summary := [], probe := [], autostarted := false, keyHeld := [], dumpSet := 0, dumpOff := 4096
    inboxes := m.inboxes.map fun l => l.filter fun r => !pageOfDie r.page }

/-- BOOT_STATUS before configuration; FALLBACK stays. -/
def bootIdle (s : State) : State :=
  let f := s.fld .cfg 0x40 5 1
  ({ s with image := none, doneWaited := false }).setReg .cfg 0x40 (BitVec.ofNat 32 (0xF00 + f * 32))

/-- The trim levels' state of R648. -/
def levelState (s : State) : PowerState :=
  if (List.range s.part.dies).any fun d => s.fld .pwr (0x60 + 4 * d) 4 3 != 0 then .trim else .active

/-- A fabric reset: what a fuse advance, an entry into Curing or Curing itself was doing ends, with PWR_STATE where the state
changes (R648); configuration follows. -/
def fabricReset (s : State) : State :=
  if s.fld .thm 0x4C 16 8 ≠ 0 then s
  else
    let t := bootIdle (unloadAll (clearFabric s .idle))
    let t := ((setPin (lockDies t) 3 false).setFld .fus 0x7C 11 1 0).setFld .pwr 0x40 2 1 0
    let back := s.supply.cured.cages
    let t := back.foldl (fun t c => t.emit (.cagePower c true)) t
    let t := { t with
      pstate := levelState s
      cages := t.cages ++ back
      supply := { t.supply with cured := { t.supply.cured with modes := [], frozen := [], jobs := [], cages := [] } } }
    let t := (t.setFld .cfg 0x5C 1 1 0).setFld .mas 0x84 0 3 (if s.mas.ready then 0 else s.fld .mas 0x84 0 3)
    if t.pstate = s.pstate then t else t.raise .pwr evPwrState 0

/-- FABRIC_RESET (R666). -/
def execFabricReset (s : State) : Host.Outcome State Fault Refusal := atModule s (fabricReset s)

/-! ### The supply (R642 to R646) -/

/-- A feed's reading. -/
def feedReading (s : State) (feed dv : Nat) : State := s.setFld .pwr (0x48 + 4 * feed) 0 16 dv

/-- FEED_LOSS (R643, R646): a feed's reading falls; the other carries the module. -/
def execFeedLoss (feed dv : Nat) (s : State) : Host.Outcome State Fault Refusal :=
  if feed < 2 then atModule s (feedReading s feed dv) else .fault .noSuchBlock

/-- FEED_RETURN (R643, R646). -/
def execFeedReturn (feed dv : Nat) (s : State) : Host.Outcome State Fault Refusal :=
  if feed < 2 then atModule s (feedReading s feed dv) else .fault .noSuchBlock

/-- SUPPLY_COLLAPSE (R644): the logic stops without an event; every volatile store is lost, steps blown stay. -/
def execSupplyCollapse (s : State) : Host.Outcome State Fault Refusal :=
  .next (
    let t := coldState { s with supply := { s.supply with off := true, temps := Vector.replicate 8 0 }, cages := [] }
    { allDies t .held with jtag := ⟨.idcode, 0⟩ })

/-- CONVERTER_RESTART (R644): an input is above 295 V again; power-good follows. -/
def execConverterRestart (s : State) : Host.Outcome State Fault Refusal :=
  .next { s with supply := { s.supply with off := false } }

/-! ### The trip (R661) -/

/-- The rails off but BUS48, AON and AUX; every die held; the endpoints' links and stores lost; THERM_TRIP. -/
def thermTrip (s : State) (die : Nat) : State :=
  let pcis := fun (p : Page) => p == .pci 0 || p == .pci 1
  let t := clearFabric s .held
  let t := { t with
    pcis := Vector.replicate 2 Pci.reset
    aperture := []
    regs := t.regs.filter fun e => !pcis e.1
    latch := t.latch.filter fun e => !pcis e.1.1
    loHeld := t.loHeld.filter fun e => !pcis e.1.1
    supply := { t.supply with tripTimer := true, temps := t.supply.temps.set (dieIdx die) (max 460 t.supply.temps[dieIdx die]) } }
  let t := (t.setFld .thm 0x4C (16 + die) 1 1).setFld .thm 0x4C 24 1 1
  (((t.setFld .clk 0x40 0 16 0).setFld .clk 0x40 18 2 0)).raise .thm evThermTrip 0

/-- THERM_TRIP (R661). -/
def execThermTrip (die : Nat) (s : State) : Host.Outcome State Fault Refusal :=
  if die < s.part.dies then atModule s (thermTrip s die) else .fault .noSuchBlock

/-- TRIP_HOLD_EXPIRY (R661): ten seconds have passed. -/
def execTripHoldExpiry (s : State) : Host.Outcome State Fault Refusal :=
  atModule s (settleHold { s with supply := { s.supply with tripTimer := false } })

end Sys2Proof.Machine
end

