-- ==== Sys2Proof/Machine/Boot.lean ====
section
/-! DEFINITION. Start-up configuration, Recovery and flash writes (R580, R581, R586, R591 to R595, R602, R607, R613, R614, R635,
R668). -/

namespace Sys2Proof.Machine

/-! ### BOOT_STATUS (R614) -/

def stage (s : State) : Nat := s.fld .cfg 0x40 0 3
def setStage (s : State) (n : Nat) : State := s.setFld .cfg 0x40 0 3 n
def source (s : State) : Nat := s.fld .cfg 0x40 3 2
def setMode (s : State) (n : Nat) : State := s.setFld .mas 0x84 0 3 n

/-- Every die of the part has released its done output. -/
def allReleased (s : State) : Bool := (List.range s.part.dies).all fun d => (s.die d).doneOut

/-- DONE_OUT as the dies have it. -/
def showDone (s : State) : State := s.setFld .cfg 0x40 17 1 (b2n (allReleased s))

/-! ### The chain (R591) -/

/-- Every die in configuration reset: what register writes set is gone, done outputs are low; a held die stays held and
degraded, and a socket keeps its DIMM. -/
def confReset (s : State) : State :=
  let t := { s with
    dies := s.dies.map fun d => { Die.reset with run := d.run, socket := d.socket }
    ashlars := []
    regs := s.regs.filter fun e => !pageOfDie e.1 }
  let t := if pinChatters t 3 then t else setPin t 3 false
  showDone ((List.range s.part.dies).foldl (fun u d =>
    if dieHeld u d then u.setFld (.cfgDie d) 0x50 16 1 1 else u) t)

/-- A section's register write: to a page of the die's blocks (R591). -/
def sectionWrite (d : Nat) (s : State) (w : Nat × Nat × Word) : State :=
  match bar0Page (d * 0x8000000 + w.1) with
  | some (.ash _) => s
  | some p => if pageDie p = d then writeReg s p (w.2.1 % 0x1000) w.2.2 else s
  | none => s

/-- Sections passed down the chain in table order: each is taken by its die while that has its clock; the first that fails
ends the stream with its die and cause. -/
def chain (enc : Bool) : List DieSection → State → State × Option (Nat × Nat)
  | [], s => (s, none)
  | x :: rest, s =>
    if s.part.dies ≤ x.die ∨ dieHeld s x.die ∨ s.fld .clk 0x40 x.die 1 = 0 then chain enc rest s
    else if !(x.sec.crcOk && x.sec.digestOk) then (s, some (x.die, 6))
    else if enc && !x.sec.decryptOk then (s, some (x.die, 7))
    else
      let t := s.setDie x.die { s.die x.die with conf := x.content }
      chain enc rest (x.writes.foldl (sectionWrite x.die) t)

/-- The dies that hold exactly one section release their done outputs. -/
def release (s : State) (l : List DieSection) : State :=
  let took := fun (d : Nat) => (l.filter fun x => x.die == d).length == 1 && !dieHeld s d && s.fld .clk 0x40 d 1 == 1
  let t := (List.range s.part.dies).foldl (fun u d => u.setDie d { u.die d with doneOut := took d }) s
  showDone (if allReleased t then setStage t 2 else t)

/-- Why a pass has failed: the die, if one did, the cause and the event (R586, R591). -/
structure PassFail where
  die : Option Nat
  cause : Nat
  ev : Ev
  deriving DecidableEq, Repr

/-- One pass: checks 1 to 5 by die 0, then the chain. With a die that holds no section it goes on waiting (STAGE 1). -/
def pass (s : State) (src : Nat) (img : Option FabricImage) : State × Option PassFail :=
  let t := setStage ((confReset s).setFld .cfg 0x40 3 2 src) 1
  match img with
  | none => (t, some ⟨none, 1, evImgFormat⟩)
  | some x =>
    match checkHeader s x.hdr 1 (src == 1) with
    | some e => (t, some ⟨none, e.2, e.1⟩)
    | none =>
      match chain x.hdr.enc x.secs { t with image := some x.hdr } with
      | (u, some f) => (u, some ⟨some f.1, f.2, evCfgChain⟩)
      | (u, none) => (release u x.secs, none)

/-- A failure reported: the dies in configuration reset, FAILDIE, CAUSE and the event. -/
def noteFail (s : State) (f : PassFail) : State :=
  let t := ((confReset s).setFld .cfg 0x40 8 4 (f.die.getD 15)).setFld .cfg 0x40 12 4 f.cause
  t.raise .cfg f.ev 0

/-- Recovery (R595). -/
def recovery (s : State) : State := setMode (setStage { s with image := none } 4) 3

/-- What follows a failure: after slot A the cornerstone image, with CFG_FALLBACK; else Recovery, with its RESULT where the
host supplied the image (R591, R595, R613). -/
def afterFail (s : State) (src : Nat) (f : PassFail) : State :=
  let t := noteFail s f
  match src with
  | 0 =>
    let u := (t.setFld .cfg 0x40 5 1 1).raise .cfg evCfgFallback 0
    (match pass u 1 (some u.flash.cornerstone) with
     | (v, none) => v
     | (v, some g) => recovery (noteFail v g))
  | 1 => recovery t
  | _ => recovery ((t.setFld .cfg 0x5C 1 1 0).setFld .cfg 0x5C 2 4 (f.cause + 1))

/-- A pass, and what follows it. -/
def configure (s : State) (src : Nat) (img : Option FabricImage) : State :=
  match pass s src img with
  | (t, none) => t
  | (t, some f) => afterFail t src f

/-- CONFIG_START (R591): once the Mason is ready, from slot A. -/
def execConfigStart (s : State) : Host.Outcome State Fault Refusal :=
  atModule s (if s.mas.ready && stage s == 0 then configure s 0 s.flash.slotA else s)

/-- SECTION_TIMEOUT (R591): a die that does not hold exactly one section reports failure. -/
def execSectionTimeout (die : Nat) (s : State) : Host.Outcome State Fault Refusal :=
  if die < s.part.dies then
    atModule s (if stage s = 1 ∧ !(s.die die).doneOut then afterFail s (source s) ⟨some die, 8, evCfgChain⟩ else s)
  else .fault .noSuchBlock

/-- The fabrics start (R591, R593): a started module ignores DONE_OD until its next module reset. -/
def fabricStart (s : State) : State :=
  if stage s ≠ 2 ∨ pinChatters s 3 then s
  else
    let t := { s with dies := s.dies.map fun d => if d.run = .idle then { d with run := .running } else d }
    let t := setPin (setStage t 3) 3 true
    let t := if source s = 2 then setMode ((t.setFld .cfg 0x5C 1 1 0).setFld .cfg 0x5C 2 4 0) 0 else t
    match s.image with
    | some h => advanceFor t h
    | none => t

/-- FABRIC_START (R591). -/
def execFabricStart (s : State) : Host.Outcome State Fault Refusal := atModule s (fabricStart s)

/-- DONE_WAIT (R594), once. -/
def execDoneWait (s : State) : Host.Outcome State Fault Refusal :=
  atModule s <|
    if stage s = 2 ∧ s.fld .cfg 0x48 0 16 ≠ 0 ∧ !s.doneWaited then { s with doneWaited := true }.raise .cfg evDoneWait 0
    else s

/-- RCV_GO (R595): a fabric image from host memory, in Recovery; one that cannot be read has CAUSE 9. -/
def rcvGo (s : State) (img : List Byte) (readOk : Bool) : State :=
  if stage s ≠ 4 then s
  else if !readOk || !(hostUp s 0 || hostUp s 1) then (s.setFld .cfg 0x40 12 4 9).setFld .cfg 0x5C 2 4 10
  else configure (s.setFld .cfg 0x5C 1 1 1) 2 (some (fabricImage (img.take (s.reg .cfg 0x58).toNat)))

def execRcvGo (img : List Byte) (readOk : Bool) (s : State) : Host.Outcome State Fault Refusal :=
  atModule s (rcvGo s img readOk)

/-- RELEASE_DONE (R595): in Recovery, for the other modules on the line. Whether one of them still holds DONE_OD low is open, and
LEVEL and DONE_IN show it (log 215); a level held for chatter stays. -/
def releaseDone (s : State) : State :=
  if stage s = 4 then
    let t := showDone { s with dies := s.dies.map fun d => { d with doneOut := true } }
    if pinChatters t 3 then t else setPin t.free.2 3 (t.free.1.getLsbD 0)
  else s

def execReleaseDone (s : State) : Host.Outcome State Fault Refusal := atModule s (releaseDone s)

/-! ### After the fabrics start (R402, R635, R639, R668) -/

/-- The job directory, named by every Hod, and the dump tensor. -/
def buildTables (s : State) : State :=
  let pref := ((List.range s.part.dies).find? fun d => !dieAsleep s d).getD 0
  match reserveFrame s pref with
  | none => s
  | some (fd, t) =>
    let u := (List.range s.part.dies).foldl (fun v d => v.setReg (.hod d) 0x4C fd) t
    (placeTensors u pref (fun _ => pref) 0xFFFF [⟨0xFFFFF, BitVec.ofNat 64 (2 ^ 30 + 2 ^ 40 + 2 ^ 42)⟩]).getD u

/-- TIER_TRAINING_DONE (R668): the course maps, the tables, then MODE 1. -/
def execTierTrainingDone (s : State) : Host.Outcome State Fault Refusal :=
  atModule s <|
    if s.mas.ready && stage s == 3 && s.fld .mas 0x84 0 3 == 0 then setMode (buildTables (applyCourses s)) 1 else s

/-! ### Flash writes (R580, R581, R607, R613) -/

/-- A range of the flash that is written in service. -/
inductive FlashSlot where
  | slotA
  | store (n : Nat)
  | autostart
  | firmware (n : Nat)
  deriving DecidableEq, Repr

/-- The slot an offset of a device lies in, its base and its size. -/
def flashSlot (supervisor : Bool) (off : Nat) : Option (FlashSlot × Nat × Nat) :=
  if supervisor then
    if 0x800000 ≤ off ∧ off < 0x4800000 then
      let n := (off - 0x800000) / 0x2000000
      some (.firmware n, 0x800000 + n * 0x2000000, 0x2000000)
    else none
  else if off < 0x4000000 then some (.slotA, 0, 0x4000000)
  else if off < 0xE000000 then
    let n := (off - 0x4000000) / 0x2000000
    some (.store n, 0x4000000 + n * 0x2000000, 0x2000000)
  else if 0xFF00000 ≤ off ∧ off < 0x10000000 then some (.autostart, off - off % 0x80000, 0x80000)
  else none

/-- The upper half of the fabric flash and the first 8 MiB of the supervisor flash. -/
def flashProtected (supervisor : Bool) (off : Nat) : Bool :=
  if supervisor then decide (off < 0x800000) else decide (0x10000000 ≤ off)

/-- What verification says of the bytes for a slot (R586, R592, R607). -/
def verifyFlash (s : State) (slot : FlashSlot) (d : FlashData) : Option (Ev × Nat) :=
  match slot, d with
  | .slotA, .image b => verifyFabric s (fabricImage b) false
  | .store _, .image b => verifyJob s (jobImage b [])
  | .firmware _, .image b => verifyFirmware s (firmwareImage b)
  | .autostart, .autostart _ => none
  | _, _ => some (evImgFormat, 1)

/-- A slot erased: of the autostart table the copy to be written (R582). -/
def eraseSlot (f : Flash) (slot : FlashSlot) : Flash :=
  match slot with
  | .slotA => { f with slotA := none }
  | .store n => { f with store := f.store.set (ix 5 n (by decide)) none }
  | .firmware n => { f with firmware := f.firmware.set (ix 2 n (by decide)) none }
  | .autostart => { f with autostart := writeCopy f.autostart [] false }

/-- A slot programmed. -/
def programSlot (f : Flash) (slot : FlashSlot) (d : FlashData) : Flash :=
  match slot, d with
  | .slotA, .image b => { f with slotA := some (fabricImage b) }
  | .store n, .image b => { f with store := f.store.set (ix 5 n (by decide)) (some (jobImage b [])) }
  | .firmware n, .image b => { f with firmware := f.firmware.set (ix 2 n (by decide)) (some (firmwareImage b)) }
  | .autostart, .autostart l => { f with autostart := writeCopy f.autostart l true }
  | _, _ => f

/-- RESULT and REASON of FL_CMD. -/
def flResult (s : State) (result reason : Nat) : State := (s.setFld .cfg 0x70 2 4 result).setFld .cfg 0x70 8 4 reason

/-- The bytes of an image that a flash write of some length reads. -/
def dataUpTo (d : FlashData) (len : Nat) : FlashData :=
  match d with
  | .image b => .image (b.take len)
  | .autostart l => .autostart l

/-- A flash write (R607): refused destinations do nothing else; the image is read and verified, the slot erased, programmed
and read back. A slot whose write failed holds no valid image; one whose image does not begin at its base does not read back as
the image. -/
def flashWrite (s : State) (data : FlashData) (readOk deviceOk same : Bool) : State :=
  let sup := s.fld .cfg 0x68 31 1 == 1
  let off := s.fld .cfg 0x68 0 29
  let len := (s.reg .cfg 0x6C).toNat
  if flashProtected sup off then flResult s 1 0
  else
    match flashSlot sup off with
    | none => flResult s 2 0
    | some (slot, base, size) =>
      if base + size < off + len then flResult s 2 0
      else if !readOk || (homeUp s).isNone then flResult s 3 9
      else
        let d := dataUpTo data len
        match verifyFlash s slot d with
        | some e => flResult (imageRefused s none e.1) 3 e.2
        | none =>
          let t := { s with flash := eraseSlot s.flash slot }
          if !deviceOk then flResult t 5 0
          else if !same ∨ off ≠ base then flResult t 4 0
          else flResult { t with flash := programSlot t.flash slot d } 0 0

/-- FLASH_WRITE (R607): by the Mason, which may be in Recovery. -/
def execFlashWrite (data : FlashData) (readOk deviceOk same : Bool) (s : State) : Host.Outcome State Fault Refusal :=
  atModule s (if s.mas.ready then flashWrite s data readOk deviceOk same else s)

end Sys2Proof.Machine
end

