-- ==== Sys2Proof/Machine/Power.lean ====
section
/-! DEFINITION. Trim, the power cap, heat and the clocks (R649 to R652, R659, R660, R662, R665, R352). -/

namespace Sys2Proof.Machine

/-! ### Levels (R649, R652) -/

def setCapLevel (s : State) (d n : Nat) : State := s.setFld .pwr (trimOff d) 8 3 n

/-- The highest level demanded for a die. -/
def demanded (s : State) (d : Nat) : Nat := max (floorOf s d) (max (capLevel s d) (thermLevel s d))

/-- The state of R648 that the levels make, with PWR_STATE on a change. -/
def settlePower (s : State) : State :=
  if s.pstate = .curing ∨ s.pstate = levelState s then s
  else { s with pstate := levelState s }.raise .pwr evPwrState 0

/-- TRIM_CHANGE (R649): the die runs at the level demanded; not in Curing, where it is only stored (R658). -/
def trimChange (s : State) (d : Nat) : State :=
  if s.pstate = .curing then s else settlePower (s.setFld .pwr (trimOff d) 4 3 (demanded s d))

def execTrimChange (die : Nat) (s : State) : Host.Outcome State Fault Refusal :=
  if die < s.part.dies then atModule s (trimChange s die) else .fault .noSuchBlock

/-! ### The power cap (R646, R651) -/

/-- The dies on which some placed bay of a class stands. -/
def holdsClass (s : State) (d : Nat) (clsT : Bool) : Bool :=
  (placedMembers s).any fun z => z.1.clsT == clsT && z.2.2.2.2.die == d

/-- One more than the highest priority of a class T job on a die; 0 where there is none. -/
def topPriority (s : State) (d : Nat) : Nat :=
  ((placedMembers s).filter fun z => z.1.clsT && z.2.2.2.2.die == d).foldl (fun m z => max m (z.1.prio + 1)) 0

/-- The order in which the cap trims dies. -/
def trimOrder (s : State) : List Nat :=
  let dies := List.range s.part.dies
  let free := dies.filter fun d => !holdsClass s d false
  let byPrio := (List.range 9).flatMap fun p => free.filter fun d => topPriority s d == p
  byPrio ++ if s.fld .pwr 0x54 16 1 = 1 then dies.filter fun d => holdsClass s d false else []

/-- PWR.INPUT with one more sample of one millisecond. -/
def inputSample (s : State) (w : Nat) : State :=
  let l := (s.supply.watts ++ [w]).drop (s.supply.watts.length + 1 - 10)
  let avg := l.foldl (· + ·) 0 / l.length
  (({ s with supply := { s.supply with watts := l } }).setFld .pwr 0x50 0 16 w).setFld .pwr 0x50 16 16 avg

/-- CAP.ACTIVE set or cleared, with PWR_CAP where it changes. -/
def capActive (s : State) (on : Bool) : State :=
  if s.fld .pwr 0x54 17 1 = b2n on then s else (s.setFld .pwr 0x54 17 1 (b2n on)).raise .pwr evPwrCap 0

/-- Above the cap: one die's level rises by one; where every die it may trim stands at 7, UNMET with PWR_CAP once. -/
def capRaise (s : State) : State :=
  let t := capActive ({ s with supply := { s.supply with below := 0 } }) true
  match (trimOrder t).find? fun d => decide (demanded t d < 7) with
  | some d => setCapLevel t d (demanded t d + 1)
  | none => if t.fld .pwr 0x54 18 1 = 1 then t else (t.setFld .pwr 0x54 18 1 1).raise .pwr evPwrCap 0

/-- Below 95% of the cap for 100 ms: the cap's demand on one die falls by one, in reverse order. -/
def capLower (s : State) : State :=
  let t := { s with supply := { s.supply with below := 0 } }
  let order := trimOrder t
  let all := (List.range t.part.dies).filter fun d => !order.contains d
  match ((order ++ all).reverse).find? fun d => decide (0 < capLevel t d) with
  | some d => setCapLevel t d (capLevel t d - 1)
  | none => t

/-- Whether the cap demands nothing. -/
def capIdle (s : State) : Bool := (List.range s.part.dies).all fun d => capLevel s d == 0

/-- The cap's action of one millisecond. -/
def capAct (s : State) : State :=
  let cap := s.fld .pwr 0x54 0 16
  let avg := s.fld .pwr 0x50 16 16
  if cap = 0 then
    let t := (List.range s.part.dies).foldl (fun t d => setCapLevel t d 0) s
    capActive (t.setFld .pwr 0x54 18 1 0) false
  else if cap < avg then capRaise s
  else
    let t := s.setFld .pwr 0x54 18 1 0
    let n := if 100 * avg < 95 * cap then s.supply.below + 1 else 0
    let t := { t with supply := { t.supply with below := n } }
    let t := if 100 ≤ n then capLower t else t
    if capIdle t then capActive t false else t

/-- CAP_TICK (R646, R651): input power as measured; the Mason acts while it runs and the module is not in Curing. -/
def execCapTick (w : Nat) (s : State) : Host.Outcome State Fault Refusal :=
  atModule s (let t := inputSample s w; if steady t then capAct t else t)

/-! ### Heat (R659, R660, R688) -/

def warnPoint (s : State) : Nat := 4 * s.fld .thm 0x40 0 7
def critPoint (s : State) : Nat := 4 * s.fld .thm 0x44 0 7

/-- TEMPd of a die: its last sample, the highest since the last read, the sensor. -/
def tempSample (s : State) (d temp sensor : Nat) : State :=
  let off := 0x50 + 4 * d
  ((s.setFld .thm off 0 10 temp).setFld .thm off 10 10 (max temp (s.fld .thm off 10 10))).setFld .thm off 20 4 sensor

/-- THERM_WARN once per crossing; ABOVE_WARN until the die is 5 °C below. -/
def warnCross (s : State) (d temp : Nat) : State :=
  if warnPoint s < temp then
    if s.fld .thm 0x4C d 1 = 1 then s else (s.setFld .thm 0x4C d 1 1).raise .thm evThermWarn 0
  else if temp + 20 ≤ warnPoint s then s.setFld .thm 0x4C d 1 0
  else s

/-- THERM_CRIT once per crossing; a Mason that is not ready acts once it is (R47, R659). -/
def critCross (s : State) (d temp : Nat) : State :=
  let above := decide (critPoint s < temp)
  let t := s.setFld .thm 0x4C (8 + d) 1 (b2n above)
  if above then
    if s.supply.critRaised.getLsbD d then t
    else
      let u := { t with supply := { t.supply with critRaised := t.supply.critRaised ||| 1 <<< d } }.raise .thm evThermCrit 0
      if u.mas.ready then critAct u d else { u with supply := { u.supply with critDue := u.supply.critDue ||| 1 <<< d } }
  else if temp + 20 ≤ critPoint s then
    let off := ~~~((1 : BitVec 8) <<< d)
    { t with supply := { t.supply with critRaised := t.supply.critRaised &&& off, critDue := t.supply.critDue &&& off } }
  else t

/-- THERMAL_SAMPLE (R659): the highest of a die's sensors; the registers of a die that is held or in Curing keep their last
sample, the readout's own reading goes on (R661, R688). -/
def thermalSample (s : State) (d temp sensor : Nat) : State :=
  let t := { s with supply := { s.supply with temps := s.supply.temps.set (dieIdx d) temp } }
  if dieHeld t d ∨ t.pstate = .curing then settleHold t
  else settleHold (critCross (warnCross (tempSample t d temp sensor) d temp) d temp)

def execThermalSample (die temp sensor : Nat) (s : State) : Host.Outcome State Fault Refusal :=
  if die < s.part.dies ∧ sensor < 16 then atModule s (if temp < 1024 then thermalSample s die temp sensor else s)
  else .fault .noSuchBlock

/-- THERMAL_TRIM_TICK (R659): one level up while the die is above the warning point, one down once it is 5 °C below. -/
def thermalTick (s : State) (d : Nat) : State :=
  let now := s.fld .thm (0x50 + 4 * d) 0 10
  if !steady s then s
  else if warnPoint s < now then setThermLevel s d (min 7 (demanded s d + 1))
  else if now + 20 ≤ warnPoint s then setThermLevel s d (thermLevel s d - 1)
  else s

def execThermalTrimTick (die : Nat) (s : State) : Host.Outcome State Fault Refusal :=
  if die < s.part.dies then atModule s (thermalTick s die) else .fault .noSuchBlock

/-! ### Lintels (R27, R352) -/

/-- STATUS.UP of a lintel, at both of its sides. -/
def lintelUp (s : State) (d : Nat) (side : Side) (up : Bool) : State :=
  match neighbour s.part d side with
  | some e => (s.setFld (.lin d side) 0x44 0 1 (b2n up)).setFld (.lin e (opposite side)) 0x44 0 1 (b2n up)
  | none => s

/-- Both dies' fabric clocks run and both sides have left reset. -/
def lintelRuns (s : State) (d : Nat) (side : Side) : Bool :=
  match neighbour s.part d side with
  | some e => [d, e].all fun k => !dieAsleep s k && s.fld .clk 0x40 k 1 == 1
  | none => false

/-- A lintel of the part. -/
def atLintel (s : State) (d : Nat) (side : Side) (go : State) : Host.Outcome State Fault Refusal :=
  if pageExists s.part (.lin d side) then atModule s go else .fault .noSuchBlock

/-- LINTEL_UP (R352). -/
def execLintelUp (die : Nat) (side : Side) (s : State) : Host.Outcome State Fault Refusal :=
  atLintel s die side (if lintelRuns s die side then lintelUp s die side true else s)

/-- LINTEL_DOWN (R352): only where a side's clock or reset has taken it down. -/
def execLintelDown (die : Nat) (side : Side) (s : State) : Host.Outcome State Fault Refusal :=
  atLintel s die side (if lintelRuns s die side then s else lintelUp s die side false)

def allSides : List Side := [.north, .east, .south, .west]

/-- Every lintel of a die down. -/
def lintelsDown (s : State) (d : Nat) : State := allSides.foldl (fun t side => lintelUp t d side false) s

/-! ### PLLs that lose lock (R665, R687) -/

/-- A bit of LOCK lost: UNLOCK shows it, and PLL_UNLOCK is raised. -/
def unlock (s : State) (b : Nat) : State :=
  ((s.setFld .clk 0x40 b 1 0).setFld .clk 0x44 b 1 1).raise .clk evPllUnlock 0

def locked (s : State) (b : Nat) : Bool := s.fld .clk 0x40 b 1 == 1

/-- Jobs with a segment in a frame that `lost` picks. -/
def jobsOfFrames (s : State) (lost : Nat → Nat → Bool) : List Half :=
  s.mas.jobs.filterMap fun j =>
    let here := (List.range s.part.dies).any fun d => (s.die d).frames.any fun e => lost d e.1.1 &&
      (match e.2.use with
       | .seg k _ _ => k == j.id
       | _ => false)
    if here then some j.id else none

/-- Every bay with an ashlar on a die faulted. -/
def faultDie (s : State) (d code : Nat) : State :=
  ((placedMembers s).filter fun z => z.2.2.2.2.die == d).foldl (fun t z => faultMember t z.1.id z.2.1 z.2.2.1 code) s

/-- A die's fabric clock lost: the die held, its lintels down, its bays and the jobs of its tiers faulted, the die degraded
until the next fabric or module reset. -/
def fclkUnlock (s : State) (d : Nat) : State :=
  if !locked s d then s
  else
    let code := evCode .clk evPllUnlock
    let t := lintelsDown (unlock s d) d
    let t := t.setDie d { t.die d with run := .held }
    let t := (jobsOfFrames t fun k _ => k == d).foldl (fun u id => faultJob u id code) (faultDie t d code)
    let u := t.setFld (.cfgDie d) 0x50 16 1 1
    u.masEvent evDieDegraded 0xFFFF (pageSrc u (.cfgDie d))

/-- FCLK_PLL_UNLOCK (R665). -/
def execFclkPllUnlock (die : Nat) (s : State) : Host.Outcome State Fault Refusal :=
  if die < s.part.dies then atModule s (fclkUnlock s die) else .fault .noSuchBlock

/-- A memory PLL lost: its controller stops, MEM_UE is raised and the jobs that hold its frames fault. Each stack's
controller has its own (R34). -/
def memUnlock (s : State) (d : Nat) (c : Ctl) : State :=
  let x := s.die d
  if x.stopped.contains c ∨ !(locked s (8 + d) ∨ !x.stopped.isEmpty) then s
  else
    let t := unlock s (8 + d)
    let t := (t.setDie d { t.die d with stopped := c :: x.stopped }).raise (ctlPage d c) evMemUe 0
    (jobsOfFrames t fun k tier => k == d && tier == ctlTier c).foldl (fun u id => faultJob u id (evCode .clk evPllUnlock)) t

/-- MEMCLK_PLL_UNLOCK (R665). -/
def execMemclkPllUnlock (die : Nat) (ctl : Ctl) (s : State) : Host.Outcome State Fault Refusal :=
  if die < s.part.dies then atModule s (memUnlock s die ctl) else .fault .noSuchBlock

/-- MCLK_PLL_UNLOCK (R665): the Mason stands still until mclk has relocked. -/
def execMclkPllUnlock (s : State) : Host.Outcome State Fault Refusal :=
  atModule s (if locked s 16 then (unlock s 16).onMas fun m => { m with ready := false } else s)

/-- MCLK_RELOCK (R665): the Mason restarts. -/
def execMclkRelock (s : State) : Host.Outcome State Fault Refusal :=
  atModule s (if locked s 16 ∨ s.reg .clk 0x40 = 0 then s else restartMason (s.setFld .clk 0x40 16 1 1) 3)

/-- TCLK_PLL_UNLOCK (R665): the time base goes on in steps of 100 ns, in holdover. -/
def execTclkPllUnlock (s : State) : Host.Outcome State Fault Refusal :=
  atModule s (if locked s 17 then (unlock { s with ppsFirst := false, ppsGood := 0 } 17).setFld .tim 0x60 0 2 2 else s)

/-- One cycle of the time base's clock: INCR is added, its fraction carried (R536); without tclk the reference steps it by
100 ns (R665). -/
def tick (s : State) : State :=
  if !powered s then s
  else if !locked s 17 then s.pass 100
  else
    let x := s.timeFrac.toNat + (s.reg .tim 0x58).toNat
    { s.pass (x / 2 ^ 30) with timeFrac := BitVec.ofNat 30 x }

/-- TCLK_RELOCK (R665): without a step of the time base; HOLDOVER goes as R539 has it. -/
def execTclkRelock (s : State) : Host.Outcome State Fault Refusal :=
  atModule s (if locked s 17 then s else s.setFld .clk 0x40 17 1 1)

/-- PCLK_PLL_UNLOCK (R665): the endpoint's link goes down (R575, R576). -/
def execPclkPllUnlock (k : Nat) (s : State) : Host.Outcome State Fault Refusal :=
  atPci k s (if locked s (18 + k) then (let t := unlock s (18 + k); if linkUp t k then pciDown t k true else t) else s)

end Sys2Proof.Machine
end

