-- ==== Sys2Proof/Machine/Curing.lean ====
section
/-! DEFINITION. Curing and the wakes from it (R653 to R658, R660, R565, R566). -/

namespace Sys2Proof.Machine

/-! ### Entering (R653, R654) -/

/-- Whether some member's recovery is under way. -/
def recovering (s : State) : Bool :=
  s.mas.jobs.any fun j => j.bays.any fun b => b.members.any fun m => m.state == .rebuilt

/-- WHY a request is refused; 0 where it is not. -/
def cureWhy (s : State) : Nat :=
  let still := fun (d : Nat) =>
    let v := (s.die d).socket.svc
    v == .online || v == .absent || v == .rejected
  if s.fld .mas 0x84 0 3 ≠ 1 ∨ !s.mas.ready then 1
  else if !((List.range s.part.dies).all still) then 2
  else if s.fld .cfg 0x70 1 1 == 1 || fuseBusy s || !s.mas.loads.isEmpty || recovering s then 3
  else if s.mas.publish.isSome then 4
  else 0

def onCured (s : State) (f : Cured → Cured) : State := { s with supply := { s.supply with cured := f s.supply.cured } }

/-- Step 1: every running class T job pre-empted; the wake registers take effect (R686). -/
def cureBegin (s : State) : State :=
  let l := (s.mas.jobs.filter fun j => j.clsT && j.state == .running).map fun j => j.id
  let t := onCured (l.foldl startPreempt s) fun _ =>
    ⟨[], [], l, [], s.reg .pwr 0x88, BitVec.ofNat 16 (s.fld .pwr 0x8C 0 16), BitVec.ofNat 64 (s.pair .pwr 0x90)⟩
  t.setFld .pwr 0x40 2 1 1

/-- Groups of the part: die and group. -/
def allGroups (s : State) : List (Nat × Nat) := (List.range s.part.dies).flatMap fun d => (List.range 8).map fun k => (d, k)

/-- Step 2: every egress group that releases anything set to SILENT, its mode kept. -/
def cureSilence (s : State) : State :=
  (allGroups s).foldl (fun t q =>
    let w := ((t.die q.1).egr.group q.2).written
    if bits w 0 2 = 0 then t
    else onCured (grpModeWrite t q.1 q.2 (setBits w 0 2 0)) fun c => { c with modes := c.modes ++ [(q.1, q.2, w)] }) s

/-- Step 3: every ingress queue empty, and egress past the last event that a member took. -/
def cureQuiet (s : State) : Bool :=
  (allGroups s).all fun q =>
    let g := (s.die q.1).ing.group q.2
    g.queue.isEmpty && (match g.delivered with
      | some x => seqLe x ((s.die q.1).egr.group q.2).last
      | none => true)

/-- The ashlars of class S bays. -/
def servingAsh (s : State) : List Ash :=
  (s.mas.jobs.filter fun j => !j.clsT).flatMap fun j => j.ashlars s

/-- Step 3: every ashlar of class S bays frozen. -/
def cureFreeze (s : State) : State :=
  let l := (servingAsh s).filter fun a => !(s.ash a).frozen
  onCured (freezeAll s l) fun c => { c with frozen := c.frozen ++ l }

/-- Step 4: migrations given up; in the model none is caught in its switching. -/
def cureMoves (s : State) : State :=
  (List.range s.part.dies).foldl (fun t d => (t.die d).hod.moves.foldl (fun u m => abortMove u d m) t) s

def jehamPorts (s : State) : List (Nat × Nat) := (List.range s.part.dies).flatMap fun d => [(d, 0), (d, 1)]

/-- Every Jeham port holds nothing of VC1 and VC2, and has all its frames acknowledged (R565). -/
def cureLinksQuiet (s : State) : Bool := (jehamPorts s).all fun q => jhlQuiet s q.1 q.2

/-- Whether a cage keeps its power in Curing: one of its lanes is kept up (R699). -/
def cageKept (s : State) (c : Nat) : Bool :=
  if c < 8 then (List.range 4).any fun l => portKept s c l
  else jhlState s ((c - 8) / 2) ((c - 8) % 2) == 3

/-- Cages whose power goes off, told outside. -/
def cagesOff (s : State) : State :=
  let off := s.cages.filter fun c => !cageKept s c
  let t := off.foldl (fun t c => t.emit (.cagePower c false)) { s with cages := s.cages.filter (cageKept s) }
  onCured t fun c => { c with cages := off }

/-- Ethernet lanes that are not in wake-filter mode taken down. -/
def lanesDown (s : State) : State :=
  (List.range s.part.dies).foldl (fun t d =>
    (List.range 4).foldl (fun u l => if portKept u d l then u else linkChange u d l false) t) s

/-- Steps 5 to 7: keep-alive, self-refresh, the fabric clocks stopped; weight tiles are not kept (R160, R655), and PWR.STATE
reads Curing. -/
def cureEnd (s : State) : State :=
  let t := (jehamPorts s).foldl (fun t q => jhlKeepAlive t q.1 q.2) s
  let t := (List.range s.part.dies).foldl lintelsDown (cagesOff (lanesDown t))
  let t := { t with ashlars := t.ashlars.map fun (e : Ash × Ashlar) => (e.1, dropTiles e.2), pstate := .curing }
  ((t.setFld .clk 0x40 0 16 0).setFld .pwr 0x40 2 1 0).raise .pwr evPwrState 0

/-- The entry as far as it can go now. -/
def cureAdvance (s : State) : State :=
  if s.mas.jobs.any fun j => j.state == .preempting then s
  else
    let t := cureSilence s
    if !cureQuiet t then t
    else
      let u := cureMoves (cureFreeze t)
      if cureLinksQuiet u then cureEnd u else u

/-- CURE_REQUEST (R653, R654, R658): refused with its reason; else the entry begins. A later request while it runs changes
nothing but lets it go on to the steps that have become possible. -/
def cureRequest (s : State) : State :=
  if s.pstate = .curing then s
  else if s.fld .pwr 0x40 2 1 = 1 then if s.mas.ready then cureAdvance s else s
  else
    let why := cureWhy s
    if why ≠ 0 then (s.setFld .pwr 0x44 2 1 1).setFld .pwr 0x44 4 4 why
    else cureAdvance (cureBegin ((s.setFld .pwr 0x44 2 1 0).setFld .pwr 0x44 4 4 0))

def execCureRequest (s : State) : Host.Outcome State Fault Refusal := atModule s (cureRequest s)

/-! ### Waking (R656 to R658) -/

/-- Clocks, levels and lintels back: a held die and a stopped controller stay as they are. -/
def wakeClocks (s : State) : State :=
  let t := { s with pstate := .active }
  let t := (List.range s.part.dies).foldl (fun u d =>
    let x := u.die d
    if x.run = .held then u
    else
      let v := ((u.setFld .clk 0x40 d 1 1).setFld .clk 0x40 (8 + d) 1 (b2n x.stopped.isEmpty))
      v.setFld .pwr (trimOff d) 4 3 (demanded v d)) t
  let t := (List.range t.part.dies).foldl (fun u d =>
    allSides.foldl (fun v side => if lintelRuns v d side then lintelUp v d side true else v) u) t
  { t with pstate := levelState t }

/-- What entry did, undone: links at full rate, cages on, class S bays let go, modes restored. Class T jobs wait in the run
queue. -/
def wakeUndo (s : State) : State :=
  let c := s.supply.cured
  let t := (jehamPorts s).foldl (fun t q => jhlFullRate t q.1 q.2) s
  let t := c.cages.foldl (fun t k => t.emit (.cagePower k true)) { t with cages := t.cages ++ c.cages }
  let t := c.modes.foldl (fun t q => grpModeWrite t q.1 q.2.1 q.2.2) (thawAll t c.frozen)
  (onCured t fun x => { x with modes := [], frozen := [], jobs := [], cages := [] }).setFld .pwr 0x40 2 1 0

/-- A wake source acts (R656): one that is not enabled is counted, one that is brings the module back. -/
def wake (s : State) (src : Nat) : State :=
  let entering := s.fld .pwr 0x40 2 1 == 1
  if s.pstate ≠ .curing ∧ !entering then s
  else if s.fld .pwr 0x80 src 1 = 0 then s.count16 .pwr 0x84 16 1
  else
    let t := s.setFld .pwr 0x84 0 5 (2 ^ src)
    if s.pstate = .curing then (wakeUndo (wakeClocks t)).raise .pwr evPwrState 0 else wakeUndo t

/-- WAKE_N_EDGE (R656, R703): a falling edge, of an input that is armed and does not chatter. -/
def execWakeNEdge (s : State) : Host.Outcome State Fault Refusal :=
  atModule s (if pinHigh s 1 && !pinChatters s 1 then wake (setPin s 1 false) 0 else s)

/-- WAKE_N_RELEASE (R656): the input re-arms. -/
def execWakeNRelease (s : State) : Host.Outcome State Fault Refusal :=
  atModule s (if pinChatters s 1 then s else setPin s 1 true)

/-- Whether a frame is the wake frame: destination address and EtherType (R656, R685). -/
def isWakeFrame (s : State) (frame : List Byte) : Bool :=
  let c := s.supply.cured
  ((List.range 6).all fun k => (frame.getD k 0).toNat == c.mac.toNat / 256 ^ k % 256)
    && (frame.getD 12 0).toNat * 256 + (frame.getD 13 0).toNat == c.etherType.toNat && decide (14 ≤ frame.length)

/-- WAKE_FRAME (R656): a frame on a port kept up in Curing; one that does not match is dropped and counted. -/
def wakeFrame (s : State) (d lport : Nat) (frame : List Byte) : State :=
  if s.pstate ≠ .curing ∨ !portKept s d lport ∨ s.fld (.eth d) 0x44 lport 1 = 0 then s
  else if isWakeFrame s frame then wake s 2
  else s.ethCount d lport 0 1

def execWakeFrame (die lport : Nat) (frame : List Byte) (s : State) : Host.Outcome State Fault Refusal :=
  if die < s.part.dies ∧ lport < 4 then atModule s (wakeFrame s die lport frame) else .fault .noSuchBlock

/-- HOST_WAKE (R656). -/
def execHostWake (s : State) : Host.Outcome State Fault Refusal := atModule s (wake s 3)

/-- TIMER_WAKE (R656): the time base has reached WAKE_TIME. -/
def timerWake (s : State) : State :=
  let w := s.pair .pwr 0x98
  wake (if s.time.toNat < w then { s with time := BitVec.ofNat 64 w } else s) 4

def execTimerWake (s : State) : Host.Outcome State Fault Refusal := atModule s (timerWake s)

end Sys2Proof.Machine
end

