-- ==== Sys2Proof/Machine/Pins.lean ====
section
/-! DEFINITION. Input pins, cages and the test port (R568, R689, R697, R699, R703). -/

namespace Sys2Proof.Machine

/-! ### Pin filters (R689, R702, R703) -/

def pinStatus (pin : Nat) : Nat := 0x48 + 16 * pin

/-- A pin's command: in module reset only RESET_N acts (R667). -/
def atPin (s : State) (pin : Nat) (go : State) : Host.Outcome State Fault Refusal :=
  if pin < 4 then .next (if !s.supply.off && (pin == 0 || !s.supply.resetLow) then go else s) else .fault .noSuchBlock

/-- PIN_GLITCH: a pulse shorter than GLITCH, counted; none is where GLITCH is 0. -/
def execPinGlitch (pin : Nat) (s : State) : Host.Outcome State Fault Refusal :=
  atPin s pin (if s.fld .pin (0x40 + 16 * pin) 0 12 = 0 then s else s.count16 .pin (pinStatus pin) 16 1)

/-- PIN_CHATTER: CHAT_N edges within the window hold LEVEL; raised once. -/
def execPinChatter (pin : Nat) (s : State) : Host.Outcome State Fault Refusal :=
  atPin s pin (
    if s.fld .pin (0x40 + 16 * pin) 12 4 = 0 ∨ pinChatters s pin then s
    else (s.setFld .pin (pinStatus pin) 2 1 1).raise .pin evPinChatter 0)

/-- CHATTER_CLEAR: LEVEL follows the pin again; RESET_N acts at the level it then has. -/
def chatterClear (s : State) (pin : Nat) (level : Bool) : State :=
  if !pinChatters s pin then s
  else
    let t := s.setFld .pin (pinStatus pin) 2 1 0
    if pin = 0 then (if level then resetPinHigh t else resetPinLow t) else setPin t pin level

def execChatterClear (pin : Nat) (level : Bool) (s : State) : Host.Outcome State Fault Refusal :=
  atPin s pin (chatterClear s pin level)

/-- PIN_STUCK: a pin at its asserted level beyond its timeout; RESET_N has none. -/
def execPinStuck (pin : Nat) (s : State) : Host.Outcome State Fault Refusal :=
  atPin s pin (
    if pin = 0 ∨ s.fld .pin (0x44 + 16 * pin) 0 24 = 0 then s
    else (s.setFld .pin (pinStatus pin) 3 1 1).raise .pin evPinChatter 0)

/-! ### Cages (R699, R703) -/

/-- Whether the part has a cage: an Ethernet cage a die, two Jeham cages a die. -/
def cageExists (part : Part) (c : Nat) : Bool :=
  if c < 8 then decide (c < part.dies) else decide (c < 24) && decide ((c - 8) / 2 < part.dies)

/-- CAGE_INSERT: presence has held for ETH.FILTER; in Curing the cage has no lane kept up. -/
def cageInsert (s : State) (c : Nat) : State :=
  if s.cages.contains c ∨ s.supply.cured.cages.contains c then s
  else if s.pstate = .curing then onCured s fun x => { x with cages := x.cages ++ [c] }
  else { s with cages := s.cages ++ [c] }.emit (.cagePower c true)

def execCageInsert (cage : Nat) (s : State) : Host.Outcome State Fault Refusal :=
  if cageExists s.part cage then atModule s (cageInsert s cage) else .fault .noSuchBlock

/-- The link of a cage gone with its pluggable: LINK_CHANGE, or JHL_LINK_DOWN. -/
def cageLinkLost (s : State) (c : Nat) : State :=
  if c < 8 then (List.range 4).foldl (fun t l => linkChange t c l false) s
  else jhlDown s ((c - 8) / 2) ((c - 8) % 2)

/-- CAGE_REMOVE: presence drops. -/
def cageRemove (s : State) (c : Nat) : State :=
  let t := onCured s fun x => { x with cages := x.cages.filter fun k => k != c }
  if !s.cages.contains c then t
  else cageLinkLost ({ t with cages := t.cages.filter fun k => k != c }.emit (.cagePower c false)) c

def execCageRemove (cage : Nat) (s : State) : Host.Outcome State Fault Refusal :=
  if cageExists s.part cage then atModule s (cageRemove s cage) else .fault .noSuchBlock

/-! ### The IEEE 1149.1 port (R697) -/

/-- The identification word. -/
def idcode (part : Part) : Nat :=
  1 + Config.manufacturer.toNat * 2 + deviceId part * 2 ^ 12 + Config.jtagVersion.toNat * 2 ^ 28

/-- A command of the test port, which AUX supplies. -/
def atJtag (s : State) (go : State) : Host.Outcome State Fault Refusal := .next (if s.supply.off then s else go)

def loadJtag (s : State) (i : JtagInstr) : State := { s with jtag := { s.jtag with instr := i } }

/-- BYPASS: the bypass register gives a 0. -/
def jtagBypass (s : State) : State := (loadJtag s .bypass).emit (.jtag 0)

def execBypass (s : State) : Host.Outcome State Fault Refusal := atJtag s (jtagBypass s)

/-- IDCODE. -/
def execIdcode (s : State) : Host.Outcome State Fault Refusal :=
  atJtag s ((loadJtag s .idcode).emit (.jtag (idcode s.part)))

/-- A boundary-register instruction, while RESET_N is low: what the pins show is open, and `v` is shifted in; at any other
time the port loads BYPASS. -/
def jtagBoundary (s : State) (i : JtagInstr) (v : Nat) : State :=
  if s.supply.resetLow then
    let x := s.free
    { x.2 with jtag := ⟨i, v⟩ }.emit (.jtag x.1.toNat)
  else jtagBypass s

/-- SAMPLE_PRELOAD. -/
def execSamplePreload (v : Nat) (s : State) : Host.Outcome State Fault Refusal := atJtag s (jtagBoundary s .sample v)

/-- EXTEST. -/
def execExtest (v : Nat) (s : State) : Host.Outcome State Fault Refusal := atJtag s (jtagBoundary s .extest v)

/-- TRST: Test-Logic-Reset, in which the port holds IDCODE. -/
def execTrst (s : State) : Host.Outcome State Fault Refusal := atJtag s (loadJtag s .idcode)

end Sys2Proof.Machine
end

