-- ==== Sys2Proof/Machine/Mailbox.lean ====
section
/-! DEFINITION. What the Mason does with what reaches its mailbox (R493, R498, R620 to R625): each event is posted and its
class acted on; and the probe for deadlock (R357). -/

namespace Sys2Proof.Machine

/-! ### Faults that events bring (R623 to R625) -/

/-- Whether an ashlar's event faults its member: it is of class BAY, or an engine or the Joiner has been left faulted
(R623). -/
def ashFaults (s : State) (a : Ash) (code : Nat) : Bool :=
  let v := s.ash a
  code / 4096 == 3 || v.joiner.state == .faulted || v.engines.toList.any fun e => e.faulted

/-- The physical word that an uncorrectable error of an ashlar's stores concerns, as its report tells it (R633). -/
def badPlace (a : Ash) (r : Report) : Option Nat :=
  let isEv := fun (e : Ev) => r.word.toNat == evCode (.ash a) e
  if isEv evImemEcc || isEv evSpadUe || isEv evDmemEcc || isEv evMxParity then some r.addr else none

/-- An uncorrectable error noted; whether the same word has had one before it was rewritten (R633). A weight of wrong parity is
rewritten by the instruction after the one that faults, which reloads both tiles (R160, R617). -/
def noteWord (s : State) (a : Ash) (r : Report) : Bool × State :=
  match badPlace a r with
  | none => (false, s)
  | some n =>
    let code := r.word.toNat
    let same := fun (x : BadWord) => x.ash == a && x.code == code && x.place == n
    if s.mas.badWords.any fun x => same x && x.rewritten then
      (true, s.onMas fun m => { m with badWords := m.badWords.filter fun x => !same x })
    else if s.mas.badWords.any same then (false, s)
    else (false, s.onMas fun m => { m with badWords := m.badWords ++ [⟨a, code, n, code == evCode (.ash a) evMxParity⟩] })

/-- A LINK_UE at a router noted; whether it is the third there within one second (R633). -/
def noteLink (s : State) (a : Ash) (code : Nat) : Bool × State :=
  if code ≠ evCode (.ash a) evLinkUe then (false, s)
  else
    let l := (s.mas.linkUes.filter fun x => decide ((s.time - x.2).toNat < 10 ^ 9)) ++ [(a, s.time)]
    (decide (3 ≤ (l.filter fun x => x.1 == a).length), s.onMas fun m => { m with linkUes := l })

/-- An event of an ashlar, and where the ashlar lies then. A row that it shows to have failed is retired, and the ashlar, wherever
its row lies then, has faulted (R632 to R634). -/
def ashEvent (s : State) (a : Ash) (r : Report) : State × Ash :=
  let code := r.word.toNat
  let x := noteWord s a r
  let y := noteLink x.2 a code
  if x.1 || y.1 then
    let t := retireRow y.2 a.die a.row (if ashFaults s a code then some (a, code) else none)
    (t, movedAsh s t a)
  else (if ashFaults s a code then faultAsh y.2 a code else y.2, a)

/-- Events held in a page (R493). -/
def heldOf (s : State) (a : Ash) : List Report := s.heldEvents.filter fun r => decide (r.page = .ash a)

/-- The events held in an ashlar's page acted on as the Mason reads it, in the order they were raised (R493, R623). -/
def actHeld (s : State) (a : Ash) : State :=
  let t := { s with heldEvents := s.heldEvents.filter fun r => decide (r.page ≠ .ash a) }
  ((heldOf s a).foldl (fun x r => ashEvent (x.1.onMas fun m => { m with raisedAt := r.time }) x.2 r) (t, a)).1

/-- The bay whose results egress group `g` of a die releases. -/
def groupBay (s : State) (d g : Nat) : Option (Half × Nat × Bay) :=
  (s.mas.jobs.flatMap fun j => if j.clsT then [] else
    j.bays.zipIdx.filterMap fun b => if b.1.portDie s = some d ∧ b.1.img.group = g then some (j.id, b.2, b.1) else none).head?

/-- Members of a bay with an ashlar whose page holds a recorded fault. -/
def suspects (s : State) (b : Bay) : List Nat :=
  b.serving.filter fun m =>
    match b.members[m]? with
    | some y => (b.ashlars s y).any (holdsFault s)
    | none => false

/-- The members an egress event faults, by what MM_INFO holds (R625). -/
def faultyMembers (s : State) (b : Bay) (kind member : Nat) : List Nat :=
  if kind = 1 ∨ kind = 2 then [member]
  else if kind = 0 ∧ (suspects s b).length = 1 then suspects s b
  else b.serving

/-- The serving members that an egress event of a die faults, and its bay; none where MM_INFO holds nothing. -/
def egressFaults (s : State) (d : Nat) : Option (Half × Nat × List Nat) :=
  let w := s.reg (.egr d) 0x64
  if !bit w 31 then none
  else
    (groupBay s d (bits w 0 3)).map fun q =>
      (q.1, q.2.1, (faultyMembers s q.2.2 (bits w 3 2) (bits w 5 2)).filter fun m => q.2.2.serving.contains m)

/-- MM_INFO read and cleared, and the members it tells of faulted. -/
def egressEvent (s : State) (d code : Nat) : State :=
  let t := (s.setReg (.egr d) 0x64 0).setReg (.egr d) 0x68 0
  match egressFaults s d with
  | some q => q.2.2.foldl (fun u m => faultMember u q.1 q.2.1 m code) t
  | none => t

/-- VOTE_DISSENT that names a member under recovery is not posted (R632). -/
def dissentMuted (s : State) (r : Report) : Bool :=
  match r.page with
  | .egr d => r.word.toNat == evCode r.page evVoteDissent &&
      (match egressFaults s d with
       | some q => q.2.2.isEmpty
       | none => false)
  | _ => false

/-- The owning job of a Plane's descriptor (R463). -/
def planeJob (s : State) (d : Nat) (c : Ctl) (k : Nat) : Half :=
  BitVec.ofNat 16 (bits (((s.plane d c).descs[ix 64 k (by decide)]).regs[ix 10 0 (by decide)]) 16 16)

/-- A job's fault recorded by a Plane: FAULT_INFO read and cleared (R451, R464). -/
def planeEvent (s : State) (d : Nat) (c : Ctl) (code : Nat) : State :=
  let w := s.reg (.pln d c) 0x74
  if !bit w 31 then s
  else
    faultJob (s.setReg (.pln d c) 0x74 0) (planeJob s d c (bits w 0 6)) code

/-- Jobs with a tunnel or a reduction context on a Jeham port (R555). -/
def portJobs (s : State) (d k : Nat) : List Half :=
  let tunnels := (s.jhl d k).tunnels.filterMap fun e => if e.2.valid then some e.2.job else none
  let red := (s.die d).red.toList.filterMap fun x => if x.valid then some x.job else none
  (tunnels ++ red).eraseDups

/-- Jobs of the reduction contexts of a die that have faulted. -/
def redJobs (s : State) (d : Nat) : List Half :=
  ((s.die d).red.toList.filterMap fun x => if x.valid ∧ x.faulted then some x.job else none).eraseDups

def faultJobs (s : State) (l : List Half) (code : Nat) : State := l.foldl (fun t id => faultJob t id code) s

/-- A lost DIMM: the jobs with a segment on its socket fault, and its frames are released, each with a new generation (R424,
R429). -/
def dimmLostEvent (s : State) (d code : Nat) : State :=
  let t := faultJobs s (jobsOfFrames s fun k tier => k == d && tier == 3) code
  let fds := ((t.die d).frames.filter fun e => e.1.1 == 3 && (holdsSeg e.2.use || e.2.use == .dest)).map fun e =>
    mkFd 3 d e.1.2 e.2.gen.toNat
  fds.foldl releaseFrame (dropMoves t fds)

/-- An event that concerns the bay of a sender or destination named in its report (R623). -/
def senderEvent (s : State) (r : Report) : State :=
  if r.word.toNat / 4096 = 3 then
    match ashOf s r.coord with
    | some a => faultAsh s a r.word.toNat
    | none => s
  else s

/-- The context that KEY.FAULT_INFO names after a KEY_FAULT is released: as soon as BUSY reads 0 where the sender is frozen by now,
else when its member is frozen to be loaded again (R187). -/
def releaseNamed (s : State) (d : Nat) (r : Report) : State :=
  let w := s.reg (.key d) 0x48
  match ashOf s r.coord with
  | none => s
  | some a =>
    if !bit w 31 then s
    else if (s.ash a).frozen then
      (s.onMas fun m => { m with keyHeld := m.keyHeld ++ [⟨d, bits w 20 6, 0, 0, 0, true⟩] }).writeDue
    else
      match memberAt s a with
      | some k => s.onMas fun m => { m with keyHeld := m.keyHeld ++ [⟨d, bits w 20 6, k.1, k.2.1, k.2.2, false⟩] }
      | none => s

/-- A wake asked for over a Jeham link: answered with LM 3, and a wake source (R566, R656). -/
def jehamWake (s : State) (d k : Nat) : State := wake (sendLm s d k 3) 1

/-- The job that an event concerns, as far as its page tells it (R498). -/
def eventJob (s : State) (r : Report) : Half :=
  let ofDest := fun (d : Dest) => (((ashOf s d).bind (memberAt s)).map fun k => k.1).getD 0xFFFF
  match r.page with
  | .ash _ => r.job
  | .mor _ => ofDest r.coord
  | .key _ => ofDest r.coord
  | .egr d => if r.word.toNat / 4096 = 3 then ((egressFaults s d).map fun q => q.1).getD 0xFFFF else r.job
  | .pln d c =>
    let w := s.reg (.pln d c) 0x74
    if bit w 31 then planeJob s d c (bits w 0 6) else r.job
  | _ => r.job

/-- What the Mason does after it has posted an event, by the page it came from (R620). -/
def handleEvent (s : State) (r : Report) : State :=
  let code := r.word.toNat
  let isEv := fun (e : Ev) => code == evCode r.page e
  match r.page with
  | .ash a =>
    let x := ashEvent s a r
    actHeld x.1 x.2
  | .mor _ => senderEvent s r
  | .key d => if isEv evKeyFault then releaseNamed (senderEvent s r) d r else senderEvent s r
  | .egr d => if code / 4096 = 3 then egressEvent s d code else s
  | .pln d c => if isEv evPlaneFault then planeEvent s d c code else s
  | .dmc d => if isEv evDimmLost then dimmLostEvent s d code else s
  | .jhl d k =>
    if isEv evJhlFail then faultJobs s (portJobs s d k) code
    else if isEv evJhlReduceFault then faultJobs s (redJobs s d) code
    else if isEv evJhlWake then jehamWake s d k
    else s
  | _ => s

/-! ### The mailbox (R493) -/

/-- A report taken: a message has no further meaning here, an event is posted and acted on. -/
def takeReport (s : State) (r : Report) : State :=
  if !r.event then s
  else if dissentMuted s r then
    match r.page with
    | .egr d => (s.setReg (.egr d) 0x64 0).setReg (.egr d) 0x68 0
    | _ => s
  else handleEvent ((s.onMas fun m => { m with raisedAt := r.time }).post r.word.toNat (eventJob s r) (pageSrc s r.page) false) r

/-- One ashlar of the bitmap: its page read, its event posted as coalesced with its row as SRC, and what it holds acted on. -/
def takeSummary (s : State) (a : Ash) : State :=
  let code := s.fld (.ash a) 0x1C 0 16
  let src := srcOf (ashDest s { a with col := 0 }) a.die
  let t := s.onMas fun m => { m with summary := m.summary.filter fun b => b != a }
  actHeld (t.post code (t.ash a).job src true) a

/-- The bits of a die that are set in its lowest logical row. -/
def summaryRow (s : State) (die : Nat) : List Ash :=
  let mine := s.mas.summary.filter fun a => a.die == die
  let rows := mine.map fun a => destY (ashDest s a)
  match rows.min? with
  | some r => (mine.filter fun a => destY (ashDest s a) == r).mergeSort fun a b => decide (a.col ≤ b.col)
  | none => []

/-- One visit of the Mason to a die's mailbox: a row of the bitmap while any bit is set, else the inbox's head. -/
def mailboxEntry (s : State) (die : Nat) : State :=
  match summaryRow s die, dieInbox s die with
  | [], [] => s
  | [], r :: l => takeReport (setInbox s die l) r
  | l, _ => l.foldl takeSummary s

/-- MAILBOX_ENTRY (R493, R633). -/
def execMailboxEntry (die : Nat) (s : State) : Host.Outcome State Fault Refusal :=
  if die < s.part.dies then atModule s (if s.mas.ready then mailboxEntry (raccWatch s die) die else s) else .fault .noSuchBlock

/-! ### Deadlock (R357) -/

/-- The ashlar that a blocked send engine waits for. -/
def sdTarget (s : State) (a : Ash) : Option Ash :=
  let w := (s.ash a).sdBlock
  if bit w 0 then (let d := BitVec.ofNat 17 (bits w 10 17); if isBlock d then none else ashOf s d) else none

/-- blocked(b) of R357. -/
def sdBlocked (s : State) (b : Ash) : Bool := bit (s.ash b).sdBlock 0 && (s.ash b).joiner.state == .stalled

/-- The walk of R357; a path is never longer than the list of ashlars that have done anything. -/
def probePath (s : State) : Nat → List Ash → Ash → List Ash
  | 0, _, _ => []
  | n + 1, path, cur =>
    match sdTarget s cur with
    | none => []
    | some b =>
      if !sdBlocked s b then []
      else if path.contains b then path.dropWhile fun c => c != b
      else probePath s n (path ++ [b]) b

/-- The cycle that a probe from an ashlar finds, with the ARRIVALS of every member's endpoints. -/
def probeCycle (s : State) (a : Ash) : List (Ash × List Half) :=
  (probePath s (s.ashlars.length + 1) [a] a).map fun b => (b, (s.ash b).endpoints.toList.map fun e => e.arrivals)

/-- Whether two probes found the same cycle with no arrival in between. -/
def sameCycle (old new : List (Ash × List Half)) : Bool :=
  !new.isEmpty && old.length == new.length && new.all fun x => old.contains x

/-- The bay member of a deadlocked ashlar fenced, frozen and dumped, then treated as faulted (R390, R624); a member that an
ashlar before it has faulted already stays as it is. An ashlar of no job is frozen. -/
def freezeDeadlocked (s : State) (a : Ash) : State :=
  let code := evCode .mas evDeadlock
  match memberAt s a with
  | none => freezeAll s [a]
  | some (id, bi, m) =>
    match s.job id, s.bay id bi, s.member id bi m with
    | some j, some b, some y =>
      if j.clsT then faultJob s id code
      else if y.state = .faulted ∨ y.state = .failed then s
      else
        let l := b.ashlars s y
        faultMember (dumpSet (freezeAll (fenceMember s id bi m false) l) code id bi m l) id bi m code
    | _, _, _ => s

/-- A deadlock declared (R357): DEADLOCK reported for each member of the cycle, and each member's bay frozen and dumped. -/
def declareDeadlock (s : State) (cycle : List Ash) : State :=
  cycle.foldl freezeDeadlocked
    (cycle.foldl (fun t a => t.masEvent evDeadlock (s.ash a).job (pageSrc s (.ash a))) s)

/-- The cycle kept of an ashlar's last probe, and when it was found. -/
def keptProbe (s : State) (a : Ash) : DWord × List (Ash × List Half) :=
  ((s.mas.probe.find? fun x => x.1 == a).map fun x => x.2).getD (0, [])

/-- The probes kept of other ashlars. -/
def otherProbes (s : State) (a : Ash) : List (Ash × DWord × List (Ash × List Half)) := s.mas.probe.filter fun x => x.1 != a

/-- One probe of an ashlar: the cycle it finds is kept for that ashlar, and a probe of it 10 µs later or more that finds the same
declares the deadlock; one before that only waits. -/
def deadlockProbe (s : State) (a : Ash) : State :=
  let c := probeCycle s a
  let kept := keptProbe s a
  if sameCycle kept.2 c then
    if (s.time - kept.1).toNat < 10000 then s
    else declareDeadlock (s.onMas fun m => { m with probe := otherProbes s a, raisedAt := s.time }) (c.map fun x => x.1)
  else s.onMas fun m => { m with probe := if c.isEmpty then otherProbes s a else otherProbes s a ++ [(a, s.time, c)] }

/-- DEADLOCK_PROBE (R357). -/
def execDeadlockProbe (a : Ash) (s : State) : Host.Outcome State Fault Refusal :=
  atAsh s a (.next (if s.mas.ready then deadlockProbe s a else s))

end Sys2Proof.Machine
end

