-- ==== Sys2Proof/Machine/Bus.lean ====
section
/-! DEFINITION. Accesses to registers from outside and by the Mason (R14, R569, R577, R678 to R681) and the SMBus target
(R690, R696). -/

namespace Sys2Proof.Machine

/-! ### Who may reach what -/

/-- Whether an agent can make an access now: an endpoint with its link up, the SMBus target, a Mason that runs. -/
def writerUp (s : State) (w : Writer) : Bool :=
  powered s && (match w with
    | .pci0 => linkUp s 0
    | .pci1 => linkUp s 1
    | .smbus => true
    | .mason => s.mas.ready)

/-- ERR_ACCESS of an access that reaches no page that answers: on the endpoint's page, or the PIN page (R569, R680, R690). -/
def busError (s : State) (w : Writer) : State :=
  match w with
  | .pci0 => s.record (.pci 0) evErrAccess 0
  | .pci1 => s.record (.pci 1) evErrAccess 0
  | .smbus => s.record .pin evErrAccess 0
  | .mason => s

/-- What an address leads to. -/
inductive Target where
  /-- beyond the BAR, or where the agent does not reach -/
  | nowhere
  | reserved
  /-- a page that the part does not have: it reads 0 and takes no write (R22, R569) -/
  | absent
  /-- a page that cannot answer now -/
  | silent
  | reg (p : Page) (off : Nat)
  deriving DecidableEq, Repr

/-- Where an access goes: BAR0 or BAR2 at a byte address; the SMBus target reaches BAR2 alone. -/
def busTarget (s : State) (w : Writer) (bar2 : Bool) (addr : Nat) : Target :=
  if (if bar2 then 2 ^ 24 else 2 ^ 30) ≤ addr ∨ (w = .smbus ∧ !bar2) then .nowhere
  else
    match (if bar2 then bar2Page addr else bar0Page addr) with
    | none => if !bar2 ∧ s.part.dies ≤ addr / 0x8000000 then .absent else .reserved
    | some p => if !pageExists s.part p then .absent else if !pageAnswers s p then .silent else .reg p (addr % 4096)

/-! ### Writes -/

/-- A write of PWR.STATE_CTRL (R685, R686). -/
def stateCtrlWrite (s : State) (v : Word) : State :=
  if bit v 0 ∧ bit v 1 then s.record .pwr evErrAccess 0
  else
    let t := writeReg s .pwr 0x44 v
    if bit v 0 then cureRequest t else if bit v 1 then wake t 3 else t

/-- A write of PWR.RESET: a module reset wins (R686). -/
def resetWrite (s : State) (v : Word) : State :=
  if bit v 0 then moduleReset s else if bit v 1 then fabricReset s else s

/-- An aligned 32-bit write to a register of a page that answers, by the register's own rule. -/
def busRegWrite (s : State) (w : Writer) (p : Page) (off : Nat) (v : Word) : State :=
  match p, off with
  | .cfg, 0x44 => (let t := writeReg s p off v; if bit v 0 then releaseDone t else t)
  | .pwr, 0x44 => stateCtrlWrite s v
  | .pwr, 0x58 => resetWrite s v
  | .fus, 0x7C => fusCmdWrite s w v
  | _, _ => writeReg s p off v

/-- A write over a bus: an access of another size, or not aligned, has no effect and records ERR_ACCESS in the page
(R14). -/
def busWrite (s : State) (w : Writer) (bar2 : Bool) (addr size : Nat) (v : Word) : State :=
  match busTarget s w bar2 addr with
  | .nowhere => s
  | .reserved => busError s w
  | .absent => s
  | .silent => s
  | .reg p off => if size = 4 ∧ off % 4 = 0 then busRegWrite s w p off v else s.record p evErrAccess 0

/-- REGISTER_WRITE (R15). -/
def execRegisterWrite (w : Writer) (bar2 : Bool) (addr size : Nat) (v : Word) (s : State) :
    Host.Outcome State Fault Refusal :=
  .next (if writerUp s w then busWrite s w bar2 addr size v else s)

/-! ### Reads -/

/-- A read over a bus: what it returns and the state after it. -/
def busRead (s : State) (w : Writer) (bar2 : Bool) (addr size : Nat) : Word × State :=
  match busTarget s w bar2 addr with
  | .nowhere => (0, s)
  | .reserved => (0, busError s w)
  | .absent => (0, s)
  | .silent => (0, busError s w)
  | .reg p off => if size = 4 ∧ off % 4 = 0 then readReg s p off else (0, s.record p evErrAccess 0)

/-- The answer leaves over the bus it was asked for on; the Mason's own read leaves nothing outside. -/
def busAnswer (w : Writer) (r : Word × State) : State :=
  match w with
  | .pci0 => r.2.emit (.readData r.1)
  | .pci1 => r.2.emit (.readData r.1)
  | .smbus => r.2.emit (.smbus r.1)
  | .mason => r.2

/-- REGISTER_READ (R15). -/
def execRegisterRead (w : Writer) (bar2 : Bool) (addr size : Nat) (s : State) : Host.Outcome State Fault Refusal :=
  .next (if writerUp s w then
      (if busTarget s w bar2 addr = .nowhere then s else busAnswer w (busRead s w bar2 addr size))
    else s)

/-! ### The SMBus target (R690, R696) -/

/-- SMB_SET_OFFSET (R690): the target answers in every state but Off. -/
def execSmbSetOffset (off : Word) (s : State) : Host.Outcome State Fault Refusal :=
  .next (if s.supply.off then s else { s with smbOffset := off })

/-- A command at the offset: nothing but ERR_ACCESS on the PIN page where it is no multiple of 4; else the access, and
the offset advances. -/
def atOffset (s : State) (go : State → State) : State :=
  if s.supply.off then s
  else if s.smbOffset.toNat % 4 ≠ 0 then s.record .pin evErrAccess 0
  else
    let t := go s
    { t with smbOffset := s.smbOffset + 4 }

/-- A read over SMBus: beyond the BAR as in its reserved range. -/
def smbRead (s : State) : State :=
  let a := s.smbOffset.toNat
  if !powered s then s.emit (.smbus 0)
  else if 2 ^ 24 ≤ a then busAnswer .smbus (0, busError s .smbus)
  else busAnswer .smbus (busRead s .smbus true a 4)

def smbWrite (s : State) (v : Word) : State :=
  let a := s.smbOffset.toNat
  if !powered s then s
  else if 2 ^ 24 ≤ a then busError s .smbus
  else busWrite s .smbus true a 4 v

/-- SMB_READ (R690). -/
def execSmbRead (s : State) : Host.Outcome State Fault Refusal := .next (atOffset s smbRead)

/-- SMB_WRITE (R690). -/
def execSmbWrite (v : Word) (s : State) : Host.Outcome State Fault Refusal := .next (atOffset s fun t => smbWrite t v)

/-- SMB_CLOCK_LOW_TIMEOUT (R696): the transaction under way is abandoned and the bus released. No command of this model
is part of a transaction, so nothing is left to abandon. -/
def execSmbClockLowTimeout (s : State) : Host.Outcome State Fault Refusal := .next s

end Sys2Proof.Machine
end

