-- ==== Sys2Proof/Machine/EngineDecode.lean ====
section
/-! DEFINITION. The decode of an engine instruction (R56, R59, R114), and the two ends it comes to: its reads retired and
its completion (R62, R66). -/

namespace Sys2Proof.Machine

/-! ### The checks of R59 -/

/-- Whether BODY_LEN is one an opcode takes; false for an undefined opcode (R59, R153, R233, R253, R279, R335). -/
def bodyLegal (i : EngInstr) : Bool :=
  let op := opcodeOf i
  let n := bits (iw i 0) 20 4
  match i.engine with
  | .matrix => ((op == 1 || op == 2) && n == 10) || (op == 3 && n == 2)
  | .vector => if op = 0x30 then n == 4 else op != 0 && (n == 6 || n == 10)
  | .stream => ((op == 1 || op == 2) && n == 10) || (3 ≤ op && op ≤ 6 && n == 2)
  | .send => sendBody op == some n

/-- Whether a wait of word 0 is illegal: mode 0b11, or in use on a peg that does not exist (R59), or a take of a threshold
outside 1 to 32,767 (R375). -/
def waitBad (mode peg th : Nat) : Bool :=
  mode == 3 || (mode != 0 && decide (48 ≤ peg)) || (mode == 1 && (th == 0 || decide (0x8000 ≤ th)))

/-- Whether a signal of word 2 is illegal (R59). -/
def sigBad (mode peg inc : Nat) : Bool := mode == 3 || (mode != 0 && (decide (48 ≤ peg) || inc == 0))

/-- Whether the common words fail a check of R59 or R375, or name a store ring as a source (R272). -/
def commonBad (v : Ashlar) (i : EngInstr) : Bool :=
  let w0 := iw i 0
  let w1 := iw i 1
  let w2 := iw i 2
  waitBad (bits w0 18 2) (bits w0 12 6) (bits w1 16 16) || waitBad (bits w0 10 2) (bits w0 4 6) (bits w1 0 16)
    || sigBad (bits w2 24 2) (bits w2 26 6) (bits w2 16 8) || sigBad (bits w2 8 2) (bits w2 10 6) (bits w2 0 8)
    || bits w0 0 4 != 0 || bits (iw i 3) 0 2 != 0 || bits (iw i 4) 0 2 != 0 || bits (iw i 5) 0 2 != 0
    || rangeStore v i 0 || rangeStore v i 1

/-- The conditions of an engine's chapter. -/
def engineBad (v : Ashlar) (i : EngInstr) : Bool :=
  match i.engine with
  | .matrix => matrixIllegal v i
  | .vector => if opcodeOf i = 0x30 then optupdIllegal v i else vectorIllegal i
  | .stream => streamIllegal v i
  | .send => sendIllegal v i

/-- Whether range k names a window that is not configured, or ends beyond its bound; a ring's range is bounded by its
slots instead (R59, R275). -/
def rangeBad (v : Ashlar) (i : EngInstr) (k : Nat) : Bool :=
  let r := irange i k
  let w := v.win (rangeWin r)
  rangeLen r != 0 && (!w.valid || (!w.isRing && decide (w.size.toNat < rangeStart r + rangeLen r)))

/-- The event of a failing check, or none where the instruction is legal (R59). -/
def decodeFault (v : Ashlar) (i : EngInstr) : Option Ev :=
  if !bodyLegal i || commonBad v i || engineBad v i then some evDescFault
  else if rangeBad v i 0 || rangeBad v i 1 || rangeBad v i 2 then some evWindowFault
  else none

/-! ### ENGINE_DECODE (R56, R114) -/

/-- A legal instruction placed in its queue with its scoreboard entry (R56, R64). -/
def placeInstr (v : Ashlar) (i : EngInstr) : Ashlar :=
  let j := { i with
    phase := .ready
    reads := rangePhys v (irange i 0) ++ rangePhys v (irange i 1)
    write := (rangePhys v (irange i 2)).head? }
  let q := v.eng i.engine
  { v.setEng i.engine { q with queue := q.queue ++ [j] } with transfer := none }

/-- A failing instruction: its event raised, its pending bit cleared, the trap ISSUE_DECODE taken ahead of any other, or held
where the Joiner is frozen (R59, R90, R114). -/
def failDecode (s : State) (a : Ash) (i : EngInstr) (ev : Ev) : State :=
  let s1 := s.onAsh a fun v =>
    { v with transfer := none, joiner := v.joiner.clearPending (rdstOf i.engine i.words) }
  let s2 := s1.faultInfo a i.engine 4 3 i.seq.toNat
  let val := BitVec.ofNat 32 i.pc.toNat
  takeHeld ((s2.raise (.ash a) ev 0).onJ a fun j => { j with held := (0x08, val) :: j.held }) a

/-- The instruction that waits for its decode is decoded, frozen or not (R56, R75). -/
def engineDecode (s : State) (a : Ash) : State :=
  match (s.ash a).transfer with
  | none => s
  | some i =>
    match decodeFault (s.ash a) i with
    | some ev => failDecode s a i ev
    | none => s.onAsh a fun v => placeInstr v i

def execEngineDecode (a : Ash) (s : State) : Host.Outcome State Fault Refusal :=
  atAsh s a (.next (engineDecode s a))

/-! ### Reads retired and completion (R62, R66) -/

def isSload (i : EngInstr) : Bool := i.engine = .stream && opcodeOf i == 1
def isSstore (i : EngInstr) : Bool := i.engine = .stream && opcodeOf i == 2

/-- Whether an instruction has made its last read and has not been retired yet: a load program makes none, a store program
reads its slots (R62, R288). -/
def readsDone (v : Ashlar) (i : EngInstr) : Bool :=
  !i.faulted && (i.phase = .executed
    || (i.phase = .running && (isSload i || (isSstore i && programDrained v i))))

/-- Whether an instruction has committed its last write (R62, R288). -/
def workDone (v : Ashlar) (i : EngInstr) : Bool :=
  !i.faulted && (if isSload i || isSstore i then
      (i.phase = .running || i.phase = .readsRetired) && programDone v i
    else i.phase = .executed || i.phase = .readsRetired)

/-- READS_RETIRED (R66). -/
def execReadsRetired (a : Ash) (seq : BitVec 5) (s : State) : Host.Outcome State Fault Refusal :=
  atAsh s a <|
    let v := s.ash a
    match findSeq v seq (readsDone v) with
    | some i => if v.frozen then .next s else .next (retireReads s a i)
    | none => .next s

/-- An instruction completes, its reads retired first where they have not been; a stream instruction gives its program
slot back (R62, R66, R279, R288). -/
def finishInstr (s : State) (a : Ash) (i : EngInstr) : State :=
  let s1 := if i.phase = .readsRetired then s else retireReads s a i
  let s2 := completeInstr s1 a i
  if i.engine = .stream then s2.onAsh a fun v => endProg v i false else s2

/-- INSTR_COMPLETE (R62). -/
def execInstrComplete (a : Ash) (seq : BitVec 5) (s : State) : Host.Outcome State Fault Refusal :=
  atAsh s a <|
    let v := s.ash a
    match findSeq v seq (workDone v) with
    | some i => if v.frozen then .next s else .next (finishInstr s a i)
    | none => .next s

end Sys2Proof.Machine
end

