-- ==== Sys2Proof/Machine/JoinerAlu.lean ====
section
/-! DEFINITION. The Joiner's instructions: the ALU group, immediates, loads and stores, branches and loops (R101 to R106,
R115 to R118). -/

namespace Sys2Proof.Machine

/-- An ALU-group instruction: rd receives f of rs1 and rs2 (R102). -/
def jAlu (s : State) (a : Ash) (func : Nat) (rd rs1 rs2 : Reg) (f : Word → Word → Word) :
    Host.Outcome State Fault Refusal :=
  jExec s a (encAlu func rd rs1 rs2) [rd, rs1, rs2] fun t => jWrite t a rd (f (t.jr a rs1) (t.jr a rs2))

/-- An immediate instruction: rd receives f of rs1 (R101). -/
def jImm (s : State) (a : Ash) (w : Word) (rd rs1 : Reg) (f : Word → Word) : Host.Outcome State Fault Refusal :=
  jExec s a w [rd, rs1] fun t => jWrite t a rd (f (t.jr a rs1))

def fltWord (x y : Word) : Word := b2w (Val.lt (fp32 x) (fp32 y))
def fleWord (x y : Word) : Word := b2w (Val.le (fp32 x) (fp32 y))
def feqWord (x y : Word) : Word := b2w (Val.eq (fp32 x) (fp32 y))

/-- A finite value truncated toward zero. -/
def truncVal (x : Val) : Int := if x.sign then -(x.neg.floorInt) else x.floorInt

/-- FCVTI: FP32 to a signed integer toward zero, 0 for a NaN, saturating (R104). -/
def fcvtiWord (x : Word) : Word :=
  match fp32 x with
  | .nan => 0
  | .inf true => 0x80000000
  | .inf false => 0x7FFFFFFF
  | v =>
    let n := truncVal v
    if 2147483647 < n then 0x7FFFFFFF else if n < -2147483648 then 0x80000000 else BitVec.ofInt 32 n

/-- FCVTF: a signed integer to FP32 with RNE (R102). -/
def fcvtfWord (x : Word) : Word := rne32Code (Val.ofInt x.toInt)

/-- ADD, FUNC 0x00 (R102). -/
def execAdd (a : Ash) (rd rs1 rs2 : Reg) (s : State) : Host.Outcome State Fault Refusal :=
  jAlu s a 0x00 rd rs1 rs2 fun x y => x + y

/-- SUB, FUNC 0x01 (R102). -/
def execSub (a : Ash) (rd rs1 rs2 : Reg) (s : State) : Host.Outcome State Fault Refusal :=
  jAlu s a 0x01 rd rs1 rs2 fun x y => x - y

/-- AND, FUNC 0x02 (R102). -/
def execAnd (a : Ash) (rd rs1 rs2 : Reg) (s : State) : Host.Outcome State Fault Refusal :=
  jAlu s a 0x02 rd rs1 rs2 fun x y => x &&& y

/-- OR, FUNC 0x03 (R102). -/
def execOr (a : Ash) (rd rs1 rs2 : Reg) (s : State) : Host.Outcome State Fault Refusal :=
  jAlu s a 0x03 rd rs1 rs2 fun x y => x ||| y

/-- XOR, FUNC 0x04 (R102). -/
def execXor (a : Ash) (rd rs1 rs2 : Reg) (s : State) : Host.Outcome State Fault Refusal :=
  jAlu s a 0x04 rd rs1 rs2 fun x y => x ^^^ y

/-- SLL, FUNC 0x05 (R102). -/
def execSll (a : Ash) (rd rs1 rs2 : Reg) (s : State) : Host.Outcome State Fault Refusal :=
  jAlu s a 0x05 rd rs1 rs2 fun x y => x <<< (y.toNat % 32)

/-- SRL, FUNC 0x06 (R102). -/
def execSrl (a : Ash) (rd rs1 rs2 : Reg) (s : State) : Host.Outcome State Fault Refusal :=
  jAlu s a 0x06 rd rs1 rs2 fun x y => x >>> (y.toNat % 32)

/-- SRA, FUNC 0x07 (R102). -/
def execSra (a : Ash) (rd rs1 rs2 : Reg) (s : State) : Host.Outcome State Fault Refusal :=
  jAlu s a 0x07 rd rs1 rs2 fun x y => x.sshiftRight (y.toNat % 32)

/-- SLT, FUNC 0x08 (R102). -/
def execSlt (a : Ash) (rd rs1 rs2 : Reg) (s : State) : Host.Outcome State Fault Refusal :=
  jAlu s a 0x08 rd rs1 rs2 fun x y => b2w (x.slt y)

/-- SLTU, FUNC 0x09 (R102). -/
def execSltu (a : Ash) (rd rs1 rs2 : Reg) (s : State) : Host.Outcome State Fault Refusal :=
  jAlu s a 0x09 rd rs1 rs2 fun x y => b2w (x.ult y)

/-- MIN, FUNC 0x0A (R102). -/
def execMin (a : Ash) (rd rs1 rs2 : Reg) (s : State) : Host.Outcome State Fault Refusal :=
  jAlu s a 0x0A rd rs1 rs2 fun x y => if x.slt y then x else y

/-- MAX, FUNC 0x0B (R102). -/
def execMax (a : Ash) (rd rs1 rs2 : Reg) (s : State) : Host.Outcome State Fault Refusal :=
  jAlu s a 0x0B rd rs1 rs2 fun x y => if x.slt y then y else x

/-- MINU, FUNC 0x0C (R102). -/
def execMinu (a : Ash) (rd rs1 rs2 : Reg) (s : State) : Host.Outcome State Fault Refusal :=
  jAlu s a 0x0C rd rs1 rs2 fun x y => if x.ult y then x else y

/-- MAXU, FUNC 0x0D (R102). -/
def execMaxu (a : Ash) (rd rs1 rs2 : Reg) (s : State) : Host.Outcome State Fault Refusal :=
  jAlu s a 0x0D rd rs1 rs2 fun x y => if x.ult y then y else x

/-- MUL, FUNC 0x10 (R102). -/
def execMul (a : Ash) (rd rs1 rs2 : Reg) (s : State) : Host.Outcome State Fault Refusal :=
  jAlu s a 0x10 rd rs1 rs2 fun x y => x * y

/-- MULHU, FUNC 0x11 (R102). -/
def execMulhu (a : Ash) (rd rs1 rs2 : Reg) (s : State) : Host.Outcome State Fault Refusal :=
  jAlu s a 0x11 rd rs1 rs2 fun x y => BitVec.ofNat 32 (x.toNat * y.toNat / 2 ^ 32)

/-- MULH, FUNC 0x12 (R102). -/
def execMulh (a : Ash) (rd rs1 rs2 : Reg) (s : State) : Host.Outcome State Fault Refusal :=
  jAlu s a 0x12 rd rs1 rs2 fun x y => BitVec.ofInt 32 (x.toInt * y.toInt / 2 ^ 32)

/-- FLT, FUNC 0x20 (R102, R104). -/
def execFlt (a : Ash) (rd rs1 rs2 : Reg) (s : State) : Host.Outcome State Fault Refusal :=
  jAlu s a 0x20 rd rs1 rs2 fltWord

/-- FLE, FUNC 0x21 (R102, R104). -/
def execFle (a : Ash) (rd rs1 rs2 : Reg) (s : State) : Host.Outcome State Fault Refusal :=
  jAlu s a 0x21 rd rs1 rs2 fleWord

/-- FEQ, FUNC 0x22 (R102, R104). -/
def execFeq (a : Ash) (rd rs1 rs2 : Reg) (s : State) : Host.Outcome State Fault Refusal :=
  jAlu s a 0x22 rd rs1 rs2 feqWord

/-- FCVTI, FUNC 0x23, rs2 reserved (R102, R104). -/
def execFcvti (a : Ash) (rd rs1 : Reg) (s : State) : Host.Outcome State Fault Refusal :=
  jImm s a (encAlu 0x23 rd rs1 0) rd rs1 fcvtiWord

/-- FCVTF, FUNC 0x24, rs2 reserved (R102, R104). -/
def execFcvtf (a : Ash) (rd rs1 : Reg) (s : State) : Host.Outcome State Fault Refusal :=
  jImm s a (encAlu 0x24 rd rs1 0) rd rs1 fcvtfWord

/-- ADDI, opcode 0x01 (R101). -/
def execAddi (a : Ash) (rd rs1 : Reg) (imm : Half) (s : State) : Host.Outcome State Fault Refusal :=
  jImm s a (encI 0x01 rd rs1 imm) rd rs1 fun x => x + imm.signExtend 32

/-- ANDI, opcode 0x02 (R101). -/
def execAndi (a : Ash) (rd rs1 : Reg) (imm : Half) (s : State) : Host.Outcome State Fault Refusal :=
  jImm s a (encI 0x02 rd rs1 imm) rd rs1 fun x => x &&& imm.zeroExtend 32

/-- ORI, opcode 0x03 (R101). -/
def execOri (a : Ash) (rd rs1 : Reg) (imm : Half) (s : State) : Host.Outcome State Fault Refusal :=
  jImm s a (encI 0x03 rd rs1 imm) rd rs1 fun x => x ||| imm.zeroExtend 32

/-- XORI, opcode 0x04 (R101). -/
def execXori (a : Ash) (rd rs1 : Reg) (imm : Half) (s : State) : Host.Outcome State Fault Refusal :=
  jImm s a (encI 0x04 rd rs1 imm) rd rs1 fun x => x ^^^ imm.zeroExtend 32

/-- SLTI, opcode 0x08 (R101). -/
def execSlti (a : Ash) (rd rs1 : Reg) (imm : Half) (s : State) : Host.Outcome State Fault Refusal :=
  jImm s a (encI 0x08 rd rs1 imm) rd rs1 fun x => b2w (x.slt (imm.signExtend 32))

/-- SLTIU, opcode 0x09 (R101). -/
def execSltiu (a : Ash) (rd rs1 : Reg) (imm : Half) (s : State) : Host.Outcome State Fault Refusal :=
  jImm s a (encI 0x09 rd rs1 imm) rd rs1 fun x => b2w (x.ult (imm.signExtend 32))

/-- SLLI, opcode 0x05 (R101). -/
def execSlli (a : Ash) (rd rs1 : Reg) (sh : BitVec 5) (s : State) : Host.Outcome State Fault Refusal :=
  jImm s a (encShift 0x05 rd rs1 sh) rd rs1 fun x => x <<< sh.toNat

/-- SRLI, opcode 0x06 (R101). -/
def execSrli (a : Ash) (rd rs1 : Reg) (sh : BitVec 5) (s : State) : Host.Outcome State Fault Refusal :=
  jImm s a (encShift 0x06 rd rs1 sh) rd rs1 fun x => x >>> sh.toNat

/-- SRAI, opcode 0x07 (R101). -/
def execSrai (a : Ash) (rd rs1 : Reg) (sh : BitVec 5) (s : State) : Host.Outcome State Fault Refusal :=
  jImm s a (encShift 0x07 rd rs1 sh) rd rs1 fun x => x.sshiftRight sh.toNat

/-- LUI, opcode 0x0A, rs1 reserved (R101). -/
def execLui (a : Ash) (rd : Reg) (imm : Half) (s : State) : Host.Outcome State Fault Refusal :=
  jExec s a (encI 0x0A rd 0 imm) [rd] fun t => jWrite t a rd (imm.zeroExtend 32 <<< 16)

/-! ### Loads and stores (R105) -/

/-- The address of a load or store, or the cause it traps with (R105). -/
def dmemAddr (base : Word) (imm : Half) (n : Nat) : Except Byte Nat :=
  let x := (base + imm.signExtend 32).toNat
  if 0xFFF < x then .error 0x04 else if x % n ≠ 0 then .error 0x03 else .ok x

/-- The trap value of a load or store: its 32-bit sum. -/
def dmemSum (base : Word) (imm : Half) : Word := base + imm.signExtend 32

/-- The bytes of a half from byte address x on: n of them (R98). -/
def halfBytes (w : Word) (x n : Nat) : Nat := w.toNat / 2 ^ (8 * (x % 4)) % 2 ^ (8 * n)

/-- A load of n bytes: rd receives g of them (R105). -/
def jLoad (s : State) (a : Ash) (w : Word) (rd rs1 : Reg) (imm : Half) (n : Nat) (g : Nat → Word) :
    Host.Outcome State Fault Refusal :=
  jExec s a w [rd, rs1] fun t =>
    match dmemAddr (t.jr a rs1) imm n with
    | .error c => .trap c (dmemSum (t.jr a rs1) imm)
    | .ok x =>
      let h := readHalf (t.ash a).joiner.dmem (x / 4)
      match h.2 with
      | .ue => .trap 0x05 (dmemSum (t.jr a rs1) imm)
      | .clean => jWrite t a rd (g (halfBytes h.1 x n))
      | .corrected _ => jWrite (t.countErr (.ash a)) a rd (g (halfBytes h.1 x n))

/-- A half of data memory written with fresh check bits. -/
def dmemStore (s : State) (a : Ash) (i data : Nat) : State := s.onJ a fun j => { j with dmem := halfStore j.dmem i data }

/-- The half with the n bytes from byte address x on replaced. -/
def mergeHalf (old : Word) (x n data : Nat) : Nat :=
  mergeBits old.toNat (data % 2 ^ (8 * n) * 2 ^ (8 * (x % 4))) ((2 ^ (8 * n) - 1) * 2 ^ (8 * (x % 4)))

/-- A store of n bytes; a partial one is a checked read-modify-write of its half (R105). -/
def jStore (s : State) (a : Ash) (w : Word) (rs2 rs1 : Reg) (imm : Half) (n : Nat) :
    Host.Outcome State Fault Refusal :=
  jExec s a w [rs1, rs2] fun t =>
    match dmemAddr (t.jr a rs1) imm n with
    | .error c => .trap c (dmemSum (t.jr a rs1) imm)
    | .ok x =>
      let data := (t.jr a rs2).toNat
      if n = 4 then .done (dmemStore t a (x / 4) data) .seq
      else
        let h := readHalf (t.ash a).joiner.dmem (x / 4)
        match h.2 with
        | .ue => .trap 0x05 (dmemSum (t.jr a rs1) imm)
        | .clean => .done (dmemStore t a (x / 4) (mergeHalf h.1 x n data)) .seq
        | .corrected _ => .done (dmemStore (t.countErr (.ash a)) a (x / 4) (mergeHalf h.1 x n data)) .seq

/-- LW, opcode 0x10 (R101, R105). -/
def execLw (a : Ash) (rd rs1 : Reg) (imm : Half) (s : State) : Host.Outcome State Fault Refusal :=
  jLoad s a (encI 0x10 rd rs1 imm) rd rs1 imm 4 fun d => BitVec.ofNat 32 d

/-- LH, opcode 0x11 (R101, R105). -/
def execLh (a : Ash) (rd rs1 : Reg) (imm : Half) (s : State) : Host.Outcome State Fault Refusal :=
  jLoad s a (encI 0x11 rd rs1 imm) rd rs1 imm 2 fun d => (BitVec.ofNat 16 d).signExtend 32

/-- LHU, opcode 0x12 (R101, R105). -/
def execLhu (a : Ash) (rd rs1 : Reg) (imm : Half) (s : State) : Host.Outcome State Fault Refusal :=
  jLoad s a (encI 0x12 rd rs1 imm) rd rs1 imm 2 fun d => BitVec.ofNat 32 d

/-- LB, opcode 0x13 (R101, R105). -/
def execLb (a : Ash) (rd rs1 : Reg) (imm : Half) (s : State) : Host.Outcome State Fault Refusal :=
  jLoad s a (encI 0x13 rd rs1 imm) rd rs1 imm 1 fun d => (BitVec.ofNat 8 d).signExtend 32

/-- LBU, opcode 0x14 (R101, R105). -/
def execLbu (a : Ash) (rd rs1 : Reg) (imm : Half) (s : State) : Host.Outcome State Fault Refusal :=
  jLoad s a (encI 0x14 rd rs1 imm) rd rs1 imm 1 fun d => BitVec.ofNat 32 d

/-- SW, opcode 0x15 (R101, R105). -/
def execSw (a : Ash) (rs2 rs1 : Reg) (imm : Half) (s : State) : Host.Outcome State Fault Refusal :=
  jStore s a (encI 0x15 rs2 rs1 imm) rs2 rs1 imm 4

/-- SH, opcode 0x16 (R101, R105). -/
def execSh (a : Ash) (rs2 rs1 : Reg) (imm : Half) (s : State) : Host.Outcome State Fault Refusal :=
  jStore s a (encI 0x16 rs2 rs1 imm) rs2 rs1 imm 2

/-- SB, opcode 0x17 (R101, R105). -/
def execSb (a : Ash) (rs2 rs1 : Reg) (imm : Half) (s : State) : Host.Outcome State Fault Refusal :=
  jStore s a (encI 0x17 rs2 rs1 imm) rs2 rs1 imm 1

/-! ### Branches and jumps (R106) -/

def jCond (s : State) (a : Ash) (opc : Nat) (rs1 rs2 : Reg) (off : Half) (p : Word → Word → Bool) :
    Host.Outcome State Fault Refusal :=
  jExec s a (encI opc rs1 rs2 off) [rs1, rs2] fun t => jBranch t a (p (t.jr a rs1) (t.jr a rs2)) off

/-- BEQ, opcode 0x18 (R101, R106). -/
def execBeq (a : Ash) (rs1 rs2 : Reg) (off : Half) (s : State) : Host.Outcome State Fault Refusal :=
  jCond s a 0x18 rs1 rs2 off fun x y => x == y

/-- BNE, opcode 0x19 (R101, R106). -/
def execBne (a : Ash) (rs1 rs2 : Reg) (off : Half) (s : State) : Host.Outcome State Fault Refusal :=
  jCond s a 0x19 rs1 rs2 off fun x y => x != y

/-- BLT, opcode 0x1A (R101, R106). -/
def execBlt (a : Ash) (rs1 rs2 : Reg) (off : Half) (s : State) : Host.Outcome State Fault Refusal :=
  jCond s a 0x1A rs1 rs2 off fun x y => x.slt y

/-- BGE, opcode 0x1B (R101, R106). -/
def execBge (a : Ash) (rs1 rs2 : Reg) (off : Half) (s : State) : Host.Outcome State Fault Refusal :=
  jCond s a 0x1B rs1 rs2 off fun x y => !x.slt y

/-- BLTU, opcode 0x1C (R101, R106). -/
def execBltu (a : Ash) (rs1 rs2 : Reg) (off : Half) (s : State) : Host.Outcome State Fault Refusal :=
  jCond s a 0x1C rs1 rs2 off fun x y => x.ult y

/-- BGEU, opcode 0x1D (R101, R106). -/
def execBgeu (a : Ash) (rs1 rs2 : Reg) (off : Half) (s : State) : Host.Outcome State Fault Refusal :=
  jCond s a 0x1D rs1 rs2 off fun x y => !x.ult y

/-- The link value PC + 1. -/
def linkWord (s : State) (a : Ash) : Word := (s.ash a).joiner.pc.zeroExtend 32 + 1

/-- JAL, opcode 0x1E, rs1 reserved (R101, R106). -/
def execJal (a : Ash) (rd : Reg) (imm : Half) (s : State) : Host.Outcome State Fault Refusal :=
  jExec s a (encI 0x1E rd 0 imm) [rd] fun t =>
    jTarget t ((t.ash a).joiner.pc.zeroExtend 32 + imm.signExtend 32) fun u =>
      u.onJ a fun j => j.wr rd (linkWord t a)

/-- JALR, opcode 0x1F (R101, R106). -/
def execJalr (a : Ash) (rd rs1 : Reg) (imm : Half) (s : State) : Host.Outcome State Fault Refusal :=
  jExec s a (encI 0x1F rd rs1 imm) [rd, rs1] fun t =>
    jTarget t (t.jr a rs1 + imm.signExtend 32) fun u => u.onJ a fun j => j.wr rd (linkWord t a)

/-! ### Hardware loops (R115 to R118) -/

def bodyLen (body : Byte) : Nat := if body = 0 then 256 else body.toNat

/-- start_loop of R115, with the checks of R117. -/
def startLoop (s : State) (a : Ash) (count : Word) (body : Nat) (tile : Bool) (tlog2 : BitVec 5) (rem : Word) : JRes :=
  let j := (s.ash a).joiner
  let pc := j.pc.toNat
  let first := pc + 1
  let last := pc + body
  let top := j.loops[ix 4 (j.depth - 1) (by decide)]
  if 4 ≤ j.depth ∨ 2047 < last ∨ j.handler then .trap 0x07 (BitVec.ofNat 32 pc)
  else if 0 < j.depth ∧ (first < top.lstart.toNat ∨ top.lend.toNat < last) then .trap 0x07 (BitVec.ofNat 32 pc)
  else if count = 0 then .done s (.skip last)
  else
    let l : LoopLevel := ⟨BitVec.ofNat 11 first, BitVec.ofNat 11 last, count, 0, tile, tlog2, rem⟩
    .done (s.onJ a fun j => { j.onLevel j.depth (fun _ => l) with depth := j.depth + 1 }) (.loop (BitVec.ofNat 11 first))

/-- LOOP, opcode 0x20 (R101, R115). -/
def execLoop (a : Ash) (rs1 : Reg) (body : Byte) (s : State) : Host.Outcome State Fault Refusal :=
  jExec s a (encLoop rs1 body) [rs1] fun t => startLoop t a (t.jr a rs1) (bodyLen body) false 0 0

/-- LOOPI, opcode 0x21 (R101, R115). -/
def execLoopi (a : Ash) (count : BitVec 12) (body : Byte) (s : State) : Host.Outcome State Fault Refusal :=
  jExec s a (encLoopi count body) [] fun t => startLoop t a (count.zeroExtend 32) (bodyLen body) false 0 0

/-- The remaining extent and the trip count of a tile loop (loopt_count of R115). -/
def looptCount (maxtiles base al : Word) (tlog2 : BitVec 5) : Word × Word :=
  let rem := al.toNat - base.toNat
  let t := 2 ^ tlog2.toNat
  let tiles := rem / t + (if rem % t = 0 then 0 else 1)
  (BitVec.ofNat 32 (min maxtiles.toNat tiles), BitVec.ofNat 32 rem)

/-- LOOPT, opcode 0x22 (R101, R115, R118). -/
def execLoopt (a : Ash) (rs2 rs1 : Reg) (alsel : BitVec 2) (tlog2 : BitVec 5) (body : Byte) (s : State) :
    Host.Outcome State Fault Refusal :=
  jExec s a (encLoopt rs2 rs1 alsel tlog2 body) [rs1, rs2] fun t =>
    let c := looptCount (t.jr a rs1) (t.jr a rs2) (t.ash a).joiner.al[alsel.toFin] tlog2
    startLoop t a c.1 (bodyLen body) true tlog2 c.2

end Sys2Proof.Machine
end

