-- ==== Sys2Proof/Machine/Dispatch.lean ====
section
/-! DEFINITION. Which meaning each command has: one arm a constructor, each one direct call. -/

namespace Sys2Proof.Machine

/-- A command's effect on everything but the queue of waiting commands. -/
def exec (i : Instr) (s : State) : Host.Outcome State Fault Refusal :=
  match i with
  | .add a rd rs1 rs2 => Sys2Proof.Machine.execAdd a rd rs1 rs2 s
  | .sub a rd rs1 rs2 => Sys2Proof.Machine.execSub a rd rs1 rs2 s
  | .and a rd rs1 rs2 => Sys2Proof.Machine.execAnd a rd rs1 rs2 s
  | .or a rd rs1 rs2 => Sys2Proof.Machine.execOr a rd rs1 rs2 s
  | .xor a rd rs1 rs2 => Sys2Proof.Machine.execXor a rd rs1 rs2 s
  | .sll a rd rs1 rs2 => Sys2Proof.Machine.execSll a rd rs1 rs2 s
  | .srl a rd rs1 rs2 => Sys2Proof.Machine.execSrl a rd rs1 rs2 s
  | .sra a rd rs1 rs2 => Sys2Proof.Machine.execSra a rd rs1 rs2 s
  | .slt a rd rs1 rs2 => Sys2Proof.Machine.execSlt a rd rs1 rs2 s
  | .sltu a rd rs1 rs2 => Sys2Proof.Machine.execSltu a rd rs1 rs2 s
  | .min a rd rs1 rs2 => Sys2Proof.Machine.execMin a rd rs1 rs2 s
  | .max a rd rs1 rs2 => Sys2Proof.Machine.execMax a rd rs1 rs2 s
  | .minu a rd rs1 rs2 => Sys2Proof.Machine.execMinu a rd rs1 rs2 s
  | .maxu a rd rs1 rs2 => Sys2Proof.Machine.execMaxu a rd rs1 rs2 s
  | .mul a rd rs1 rs2 => Sys2Proof.Machine.execMul a rd rs1 rs2 s
  | .mulhu a rd rs1 rs2 => Sys2Proof.Machine.execMulhu a rd rs1 rs2 s
  | .mulh a rd rs1 rs2 => Sys2Proof.Machine.execMulh a rd rs1 rs2 s
  | .flt a rd rs1 rs2 => Sys2Proof.Machine.execFlt a rd rs1 rs2 s
  | .fle a rd rs1 rs2 => Sys2Proof.Machine.execFle a rd rs1 rs2 s
  | .feq a rd rs1 rs2 => Sys2Proof.Machine.execFeq a rd rs1 rs2 s
  | .fcvti a rd rs1 => Sys2Proof.Machine.execFcvti a rd rs1 s
  | .fcvtf a rd rs1 => Sys2Proof.Machine.execFcvtf a rd rs1 s
  | .addi a rd rs1 imm => Sys2Proof.Machine.execAddi a rd rs1 imm s
  | .andi a rd rs1 imm => Sys2Proof.Machine.execAndi a rd rs1 imm s
  | .ori a rd rs1 imm => Sys2Proof.Machine.execOri a rd rs1 imm s
  | .xori a rd rs1 imm => Sys2Proof.Machine.execXori a rd rs1 imm s
  | .slli a rd rs1 sh => Sys2Proof.Machine.execSlli a rd rs1 sh s
  | .srli a rd rs1 sh => Sys2Proof.Machine.execSrli a rd rs1 sh s
  | .srai a rd rs1 sh => Sys2Proof.Machine.execSrai a rd rs1 sh s
  | .slti a rd rs1 imm => Sys2Proof.Machine.execSlti a rd rs1 imm s
  | .sltiu a rd rs1 imm => Sys2Proof.Machine.execSltiu a rd rs1 imm s
  | .lui a rd imm => Sys2Proof.Machine.execLui a rd imm s
  | .lw a rd rs1 imm => Sys2Proof.Machine.execLw a rd rs1 imm s
  | .lh a rd rs1 imm => Sys2Proof.Machine.execLh a rd rs1 imm s
  | .lhu a rd rs1 imm => Sys2Proof.Machine.execLhu a rd rs1 imm s
  | .lb a rd rs1 imm => Sys2Proof.Machine.execLb a rd rs1 imm s
  | .lbu a rd rs1 imm => Sys2Proof.Machine.execLbu a rd rs1 imm s
  | .sw a rs2 rs1 imm => Sys2Proof.Machine.execSw a rs2 rs1 imm s
  | .sh a rs2 rs1 imm => Sys2Proof.Machine.execSh a rs2 rs1 imm s
  | .sb a rs2 rs1 imm => Sys2Proof.Machine.execSb a rs2 rs1 imm s
  | .beq a rs1 rs2 off => Sys2Proof.Machine.execBeq a rs1 rs2 off s
  | .bne a rs1 rs2 off => Sys2Proof.Machine.execBne a rs1 rs2 off s
  | .blt a rs1 rs2 off => Sys2Proof.Machine.execBlt a rs1 rs2 off s
  | .bge a rs1 rs2 off => Sys2Proof.Machine.execBge a rs1 rs2 off s
  | .bltu a rs1 rs2 off => Sys2Proof.Machine.execBltu a rs1 rs2 off s
  | .bgeu a rs1 rs2 off => Sys2Proof.Machine.execBgeu a rs1 rs2 off s
  | .jal a rd imm => Sys2Proof.Machine.execJal a rd imm s
  | .jalr a rd rs1 imm => Sys2Proof.Machine.execJalr a rd rs1 imm s
  | .loop a rs1 body => Sys2Proof.Machine.execLoop a rs1 body s
  | .loopi a count body => Sys2Proof.Machine.execLoopi a count body s
  | .loopt a rs2 rs1 alsel tlog2 body => Sys2Proof.Machine.execLoopt a rs2 rs1 alsel tlog2 body s
  | .issue a rsA rs1 widxA rsB widxB => Sys2Proof.Machine.execIssue a rsA rs1 widxA rsB widxB s
  | .engineDecode a => Sys2Proof.Machine.execEngineDecode a s
  | .psig a inc peg => Sys2Proof.Machine.execPsig a inc peg s
  | .pwait a rs1 mode peg => Sys2Proof.Machine.execPwait a rs1 mode peg s
  | .ptest a rd rs1 peg => Sys2Proof.Machine.execPtest a rd rs1 peg s
  | .prd a rd peg => Sys2Proof.Machine.execPrd a rd peg s
  | .pfadd a rd rs1 rs2 => Sys2Proof.Machine.execPfadd a rd rs1 rs2 s
  | .eprd a rd word ep => Sys2Proof.Machine.execEprd a rd word ep s
  | .eppop a ep => Sys2Proof.Machine.execEppop a ep s
  | .bepe a ep off => Sys2Proof.Machine.execBepe a ep off s
  | .bepne a ep off => Sys2Proof.Machine.execBepne a ep off s
  | .csrr a rd csr => Sys2Proof.Machine.execCsrr a rd csr s
  | .csrw a rs1 csr => Sys2Proof.Machine.execCsrw a rs1 csr s
  | .msg a rs1 => Sys2Proof.Machine.execMsg a rs1 s
  | .tend a => Sys2Proof.Machine.execTend a s
  | .trap a code => Sys2Proof.Machine.execTrap a code s
  | .reth a => Sys2Proof.Machine.execReth a s
  | .fence a mask => Sys2Proof.Machine.execFence a mask s
  | .halt a => Sys2Proof.Machine.execHalt a s
  | .breakpoint a => Sys2Proof.Machine.execBreakpoint a s
  | .taskBoundary a => Sys2Proof.Machine.execTaskBoundary a s
  | .reductionWrite a rd => Sys2Proof.Machine.execReductionWrite a rd s
  | .instrComplete a seq => Sys2Proof.Machine.execInstrComplete a seq s
  | .readsRetired a seq => Sys2Proof.Machine.execReadsRetired a seq s
  | .mma a => Sys2Proof.Machine.execMma a s
  | .mwload a => Sys2Proof.Machine.execMwload a s
  | .mwdrop a => Sys2Proof.Machine.execMwdrop a s
  | .weightPreload a => Sys2Proof.Machine.execWeightPreload a s
  | .plumbSampleArrive a => Sys2Proof.Machine.execPlumbSampleArrive a s
  | .satCountArrive a => Sys2Proof.Machine.execSatCountArrive a s
  | .slotSnap die slot => Sys2Proof.Machine.execSlotSnap die slot s
  | .slotClear die slot => Sys2Proof.Machine.execSlotClear die slot s
  | .slotConfigWrite w die off v => Sys2Proof.Machine.execSlotConfigWrite w die off v s
  | .slotConfigDone die slot => Sys2Proof.Machine.execSlotConfigDone die slot s
  | .vecAdd a => Sys2Proof.Machine.execVecAdd a s
  | .vecSub a => Sys2Proof.Machine.execVecSub a s
  | .vecMul a => Sys2Proof.Machine.execVecMul a s
  | .vecFma a => Sys2Proof.Machine.execVecFma a s
  | .vecMin a => Sys2Proof.Machine.execVecMin a s
  | .vecMax a => Sys2Proof.Machine.execVecMax a s
  | .vecAbs a => Sys2Proof.Machine.execVecAbs a s
  | .vecNeg a => Sys2Proof.Machine.execVecNeg a s
  | .cpsgn a => Sys2Proof.Machine.execCpsgn a s
  | .cvt a => Sys2Proof.Machine.execCvt a s
  | .sel a => Sys2Proof.Machine.execSel a s
  | .cmpLt a => Sys2Proof.Machine.execCmpLt a s
  | .cmpLe a => Sys2Proof.Machine.execCmpLe a s
  | .cmpEq a => Sys2Proof.Machine.execCmpEq a s
  | .cmpNe a => Sys2Proof.Machine.execCmpNe a s
  | .cmpGt a => Sys2Proof.Machine.execCmpGt a s
  | .cmpGe a => Sys2Proof.Machine.execCmpGe a s
  | .fnExp a => Sys2Proof.Machine.execFnExp a s
  | .fnExp2 a => Sys2Proof.Machine.execFnExp2 a s
  | .fnLn a => Sys2Proof.Machine.execFnLn a s
  | .fnLog2 a => Sys2Proof.Machine.execFnLog2 a s
  | .fnRecip a => Sys2Proof.Machine.execFnRecip a s
  | .fnSqrt a => Sys2Proof.Machine.execFnSqrt a s
  | .fnRsqrt a => Sys2Proof.Machine.execFnRsqrt a s
  | .fnTanh a => Sys2Proof.Machine.execFnTanh a s
  | .fnSigmoid a => Sys2Proof.Machine.execFnSigmoid a s
  | .fnSilu a => Sys2Proof.Machine.execFnSilu a s
  | .fnGelu a => Sys2Proof.Machine.execFnGelu a s
  | .fnSoftplus a => Sys2Proof.Machine.execFnSoftplus a s
  | .vecAnd a => Sys2Proof.Machine.execVecAnd a s
  | .vecOr a => Sys2Proof.Machine.execVecOr a s
  | .vecXor a => Sys2Proof.Machine.execVecXor a s
  | .shl a => Sys2Proof.Machine.execShl a s
  | .shr a => Sys2Proof.Machine.execShr a s
  | .vecSra a => Sys2Proof.Machine.execVecSra a s
  | .rsum a => Sys2Proof.Machine.execRsum a s
  | .rssq a => Sys2Proof.Machine.execRssq a s
  | .rmax a => Sys2Proof.Machine.execRmax a s
  | .rmin a => Sys2Proof.Machine.execRmin a s
  | .ramax a => Sys2Proof.Machine.execRamax a s
  | .compress a => Sys2Proof.Machine.execCompress a s
  | .expand a => Sys2Proof.Machine.execExpand a s
  | .mload a => Sys2Proof.Machine.execMload a s
  | .mstore a => Sys2Proof.Machine.execMstore a s
  | .mlogicAnd a => Sys2Proof.Machine.execMlogicAnd a s
  | .mlogicOr a => Sys2Proof.Machine.execMlogicOr a s
  | .mlogicXor a => Sys2Proof.Machine.execMlogicXor a s
  | .mlogicAndn a => Sys2Proof.Machine.execMlogicAndn a s
  | .mlogicNot a => Sys2Proof.Machine.execMlogicNot a s
  | .mlogicSet a => Sys2Proof.Machine.execMlogicSet a s
  | .mlogicClear a => Sys2Proof.Machine.execMlogicClear a s
  | .optupdSgd a => Sys2Proof.Machine.execOptupdSgd a s
  | .optupdMomentum a => Sys2Proof.Machine.execOptupdMomentum a s
  | .optupdNesterov a => Sys2Proof.Machine.execOptupdNesterov a s
  | .optupdAdamw a => Sys2Proof.Machine.execOptupdAdamw a s
  | .optupdLion a => Sys2Proof.Machine.execOptupdLion a s
  | .optupdAdagrad a => Sys2Proof.Machine.execOptupdAdagrad a s
  | .sload a => Sys2Proof.Machine.execSload a s
  | .sstore a => Sys2Proof.Machine.execSstore a s
  | .fill a => Sys2Proof.Machine.execFill a s
  | .copy a => Sys2Proof.Machine.execCopy a s
  | .rpop a => Sys2Proof.Machine.execRpop a s
  | .wctlOpen a => Sys2Proof.Machine.execWctlOpen a s
  | .wctlClose a => Sys2Proof.Machine.execWctlClose a s
  | .wctlCloseOpen a => Sys2Proof.Machine.execWctlCloseOpen a s
  | .sloadRequest a prog => Sys2Proof.Machine.execSloadRequest a prog s
  | .sstoreDrain a prog => Sys2Proof.Machine.execSstoreDrain a prog s
  | .spadWriteback a => Sys2Proof.Machine.execSpadWriteback a s
  | .scrubVisit a => Sys2Proof.Machine.execScrubVisit a s
  | .sendt a => Sys2Proof.Machine.execSendt a s
  | .sendi a => Sys2Proof.Machine.execSendi a s
  | .msend a => Sys2Proof.Machine.execMsend a s
  | .wsend a => Sys2Proof.Machine.execWsend a s
  | .psigr a => Sys2Proof.Machine.execPsigr a s
  | .connConnect a => Sys2Proof.Machine.execConnConnect a s
  | .connDisconnect a => Sys2Proof.Machine.execConnDisconnect a s
  | .ksend a => Sys2Proof.Machine.execKsend a s
  | .sendResume a => Sys2Proof.Machine.execSendResume a s
  | .connectRetry a => Sys2Proof.Machine.execConnectRetry a s
  | .channelFlit p => Sys2Proof.Machine.execChannelFlit p s
  | .connect p => Sys2Proof.Machine.execConnect p s
  | .connReply p => Sys2Proof.Machine.execConnReply p s
  | .rwrite p => Sys2Proof.Machine.execRwrite p s
  | .nak p => Sys2Proof.Machine.execNak p s
  | .cret p => Sys2Proof.Machine.execCret p s
  | .psigPacket p => Sys2Proof.Machine.execPsigPacket p s
  | .fadd p => Sys2Proof.Machine.execFadd p s
  | .faddReply p => Sys2Proof.Machine.execFaddReply p s
  | .stall a => Sys2Proof.Machine.execStall a s
  | .deadlockProbe a => Sys2Proof.Machine.execDeadlockProbe a s
  | .fenceWrite die n v => Sys2Proof.Machine.execFenceWrite die n v s
  | .fenceApply die n => Sys2Proof.Machine.execFenceApply die n s
  | .raccRead die => Sys2Proof.Machine.execRaccRead die s
  | .raccWrite die => Sys2Proof.Machine.execRaccWrite die s
  | .lintelUp die side => Sys2Proof.Machine.execLintelUp die side s
  | .lintelDown die side => Sys2Proof.Machine.execLintelDown die side s
  | .kreq p => Sys2Proof.Machine.execKreq p s
  | .kgrant p => Sys2Proof.Machine.execKgrant p s
  | .kreqRetry a => Sys2Proof.Machine.execKreqRetry a s
  | .keystoneAdmit die => Sys2Proof.Machine.execKeystoneAdmit die s
  | .keystonePartial p => Sys2Proof.Machine.execKeystonePartial p s
  | .ctxRelease die ctx => Sys2Proof.Machine.execCtxRelease die ctx s
  | .ctxReleaseRect die fence => Sys2Proof.Machine.execCtxReleaseRect die fence s
  | .releaseDrainEnd die => Sys2Proof.Machine.execReleaseDrainEnd die s
  | .mreqRead p => Sys2Proof.Machine.execMreqRead p s
  | .mwrite p => Sys2Proof.Machine.execMwrite p s
  | .mreqLookup p => Sys2Proof.Machine.execMreqLookup p s
  | .mresp p => Sys2Proof.Machine.execMresp p s
  | .mack p => Sys2Proof.Machine.execMack p s
  | .patrolScrub die ctl => Sys2Proof.Machine.execPatrolScrub die ctl s
  | .decaySweep die => Sys2Proof.Machine.execDecaySweep die s
  | .migrationStart die => Sys2Proof.Machine.execMigrationStart die s
  | .migrationSwitch die idx => Sys2Proof.Machine.execMigrationSwitch die idx s
  | .migrationAbort die idx => Sys2Proof.Machine.execMigrationAbort die idx s
  | .frameReuse die tier frame => Sys2Proof.Machine.execFrameReuse die tier frame s
  | .hodCmdGo die v => Sys2Proof.Machine.execHodCmdGo die v s
  | .dimmEvacuate die => Sys2Proof.Machine.execDimmEvacuate die s
  | .dimmCancel die => Sys2Proof.Machine.execDimmCancel die s
  | .dimmReadmit die => Sys2Proof.Machine.execDimmReadmit die s
  | .dimmSafe die => Sys2Proof.Machine.execDimmSafe die s
  | .dimmPresent die d => Sys2Proof.Machine.execDimmPresent die d s
  | .dimmRemoved die => Sys2Proof.Machine.execDimmRemoved die s
  | .dimmTrainingDone die ok => Sys2Proof.Machine.execDimmTrainingDone die ok s
  | .dimmInitDone die ok => Sys2Proof.Machine.execDimmInitDone die ok s
  | .dimmLost die => Sys2Proof.Machine.execDimmLost die s
  | .planeTrigger p => Sys2Proof.Machine.execPlaneTrigger p s
  | .planeDispatch die ctl => Sys2Proof.Machine.execPlaneDispatch die ctl s
  | .planeWorkItem die ctl => Sys2Proof.Machine.execPlaneWorkItem die ctl s
  | .planeItemAnswer p => Sys2Proof.Machine.execPlaneItemAnswer p s
  | .plnDescWrite die ctl off v => Sys2Proof.Machine.execPlnDescWrite die ctl off v s
  | .loadJob c img => Sys2Proof.Machine.execLoadJob c img s
  | .startJob c => Sys2Proof.Machine.execStartJob c s
  | .stopJob c => Sys2Proof.Machine.execStopJob c s
  | .resumeJob c => Sys2Proof.Machine.execResumeJob c s
  | .unloadJob c => Sys2Proof.Machine.execUnloadJob c s
  | .setPriority c => Sys2Proof.Machine.execSetPriority c s
  | .slotAdd c => Sys2Proof.Machine.execSlotAdd c s
  | .slotRemove c => Sys2Proof.Machine.execSlotRemove c s
  | .slotDrainDone job bay slot => Sys2Proof.Machine.execSlotDrainDone job bay slot s
  | .publish c tensors => Sys2Proof.Machine.execPublish c tensors s
  | .dimmServiceBegin c => Sys2Proof.Machine.execDimmServiceBegin c s
  | .dimmServiceCancel c => Sys2Proof.Machine.execDimmServiceCancel c s
  | .dimmServiceReadmit c => Sys2Proof.Machine.execDimmServiceReadmit c s
  | .signal c => Sys2Proof.Machine.execSignal c s
  | .queryJob c => Sys2Proof.Machine.execQueryJob c s
  | .masonRestart c => Sys2Proof.Machine.execMasonRestart c s
  | .masonReady => Sys2Proof.Machine.execMasonReady s
  | .masWdog => Sys2Proof.Machine.execMasWdog s
  | .hcqEnable ring v => Sys2Proof.Machine.execHcqEnable ring v s
  | .mailboxEntry die => Sys2Proof.Machine.execMailboxEntry die s
  | .preempt job => Sys2Proof.Machine.execPreempt job s
  | .preemptTimeout job => Sys2Proof.Machine.execPreemptTimeout job s
  | .quantumExpiry => Sys2Proof.Machine.execQuantumExpiry s
  | .runQueuePlace => Sys2Proof.Machine.execRunQueuePlace s
  | .bayMove job bay member => Sys2Proof.Machine.execBayMove job bay member s
  | .frameReceive die lport frame age => Sys2Proof.Machine.execFrameReceive die lport frame age s
  | .routeInject die route => Sys2Proof.Machine.execRouteInject die route s
  | .staleDrop die group => Sys2Proof.Machine.execStaleDrop die group s
  | .captureWrite die => Sys2Proof.Machine.execCaptureWrite die s
  | .captureCreditReturn p => Sys2Proof.Machine.execCaptureCreditReturn p s
  | .lkInsert die => Sys2Proof.Machine.execLkInsert die s
  | .lkDelete die => Sys2Proof.Machine.execLkDelete die s
  | .lkRead die => Sys2Proof.Machine.execLkRead die s
  | .puntPop die => Sys2Proof.Machine.execPuntPop die s
  | .mtxGo die => Sys2Proof.Machine.execMtxGo die s
  | .mgmtTxStart die => Sys2Proof.Machine.execMgmtTxStart die s
  | .linkChange die lport up => Sys2Proof.Machine.execLinkChange die lport up s
  | .rxIdle die lport => Sys2Proof.Machine.execRxIdle die lport s
  | .egressResult die input => Sys2Proof.Machine.execEgressResult die input s
  | .twinWaitExpiry die group seq => Sys2Proof.Machine.execTwinWaitExpiry die group seq s
  | .unavailPeriod die group => Sys2Proof.Machine.execUnavailPeriod die group s
  | .grpModeWrite die group v => Sys2Proof.Machine.execGrpModeWrite die group v s
  | .timSet v => Sys2Proof.Machine.execTimSet v s
  | .timAdj v => Sys2Proof.Machine.execTimAdj v s
  | .ppsPulse width since => Sys2Proof.Machine.execPpsPulse width since s
  | .ppsHoldover => Sys2Proof.Machine.execPpsHoldover s
  | .jhlFrameReceive die port good corrected f => Sys2Proof.Machine.execJhlFrameReceive die port good corrected f s
  | .replayTimeout die port => Sys2Proof.Machine.execReplayTimeout die port s
  | .jhlLinkDown die port => Sys2Proof.Machine.execJhlLinkDown die port s
  | .jhlTrained die port serial peer expected => Sys2Proof.Machine.execJhlTrained die port serial peer expected s
  | .jhlFail die port => Sys2Proof.Machine.execJhlFail die port s
  | .jhlRetrain die port => Sys2Proof.Machine.execJhlRetrain die port s
  | .heartbeatSend die port => Sys2Proof.Machine.execHeartbeatSend die port s
  | .jhlPeerLost die port => Sys2Proof.Machine.execJhlPeerLost die port s
  | .tunnelRwrite p => Sys2Proof.Machine.execTunnelRwrite p s
  | .tunnelPsig p => Sys2Proof.Machine.execTunnelPsig p s
  | .tunnelConnect p => Sys2Proof.Machine.execTunnelConnect p s
  | .tunnelChannelFlit p => Sys2Proof.Machine.execTunnelChannelFlit p s
  | .tunnelCret die port => Sys2Proof.Machine.execTunnelCret die port s
  | .jhlRemoteNak p => Sys2Proof.Machine.execJhlRemoteNak p s
  | .reduceTrigger p => Sys2Proof.Machine.execReduceTrigger p s
  | .reduceStart die ctx => Sys2Proof.Machine.execReduceStart die ctx s
  | .reduceSegment die => Sys2Proof.Machine.execReduceSegment die s
  | .bcastSegment die => Sys2Proof.Machine.execBcastSegment die s
  | .barReadTimeout k => Sys2Proof.Machine.execBarReadTimeout k s
  | .apertureRead k addr len => Sys2Proof.Machine.execApertureRead k addr len s
  | .apertureWrite k addr data => Sys2Proof.Machine.execApertureWrite k addr data s
  | .dmaNop k q d => Sys2Proof.Machine.execDmaNop k q d s
  | .dmaHostToTier k q d data err => Sys2Proof.Machine.execDmaHostToTier k q d data err s
  | .dmaTierToHost k q d err => Sys2Proof.Machine.execDmaTierToHost k q d err s
  | .dqEnable k q v => Sys2Proof.Machine.execDqEnable k q v s
  | .apEntryWrite k v => Sys2Proof.Machine.execApEntryWrite k v s
  | .makeHome k => Sys2Proof.Machine.execMakeHome k s
  | .pcieLinkDown k link => Sys2Proof.Machine.execPcieLinkDown k link s
  | .flr k => Sys2Proof.Machine.execFlr k s
  | .powerOn => Sys2Proof.Machine.execPowerOn s
  | .configStart => Sys2Proof.Machine.execConfigStart s
  | .sectionTimeout die => Sys2Proof.Machine.execSectionTimeout die s
  | .fabricStart => Sys2Proof.Machine.execFabricStart s
  | .doneWait => Sys2Proof.Machine.execDoneWait s
  | .rcvGo img readOk => Sys2Proof.Machine.execRcvGo img readOk s
  | .releaseDone => Sys2Proof.Machine.execReleaseDone s
  | .flashWrite data readOk deviceOk same => Sys2Proof.Machine.execFlashWrite data readOk deviceOk same s
  | .autostartLoad => Sys2Proof.Machine.execAutostartLoad s
  | .regWrite p => Sys2Proof.Machine.execRegWrite p s
  | .regRead p => Sys2Proof.Machine.execRegRead p s
  | .readReply p => Sys2Proof.Machine.execReadReply p s
  | .bcast p => Sys2Proof.Machine.execBcast p s
  | .bcastDone p => Sys2Proof.Machine.execBcastDone p s
  | .loadOrder p => Sys2Proof.Machine.execLoadOrder p s
  | .loadDone p => Sys2Proof.Machine.execLoadDone p s
  | .saveOrder p => Sys2Proof.Machine.execSaveOrder p s
  | .saveDone p => Sys2Proof.Machine.execSaveDone p s
  | .report die => Sys2Proof.Machine.execReport die s
  | .masonMessage p => Sys2Proof.Machine.execMasonMessage p s
  | .bayLoadStart die => Sys2Proof.Machine.execBayLoadStart die s
  | .memberRecovery job bay member => Sys2Proof.Machine.execMemberRecovery job bay member s
  | .survivorHeld job bay member => Sys2Proof.Machine.execSurvivorHeld job bay member s
  | .bayRebuild job bay => Sys2Proof.Machine.execBayRebuild job bay s
  | .courseShift die row => Sys2Proof.Machine.execCourseShift die row s
  | .courseCmdRetire die v => Sys2Proof.Machine.execCourseCmdRetire die v s
  | .freezeSet a => Sys2Proof.Machine.execFreezeSet a s
  | .freezeClear a => Sys2Proof.Machine.execFreezeClear a s
  | .softReset a => Sys2Proof.Machine.execSoftReset a s
  | .pageSoftReset p => Sys2Proof.Machine.execPageSoftReset p s
  | .resume a mask => Sys2Proof.Machine.execResume a mask s
  | .flush a mask => Sys2Proof.Machine.execFlush a mask s
  | .perfClear p => Sys2Proof.Machine.execPerfClear p s
  | .dbgRead a => Sys2Proof.Machine.execDbgRead a s
  | .dbgWrite a => Sys2Proof.Machine.execDbgWrite a s
  | .jctrlRun a => Sys2Proof.Machine.execJctrlRun a s
  | .jctrlHalt a => Sys2Proof.Machine.execJctrlHalt a s
  | .jctrlStep a => Sys2Proof.Machine.execJctrlStep a s
  | .jbankArm a => Sys2Proof.Machine.execJbankArm a s
  | .jbankDisarm a => Sys2Proof.Machine.execJbankDisarm a s
  | .jregDataWrite a v => Sys2Proof.Machine.execJregDataWrite a v s
  | .pegSigWrite a v => Sys2Proof.Machine.execPegSigWrite a v s
  | .pegValueWrite a peg v => Sys2Proof.Machine.execPegValueWrite a peg v s
  | .pegWatchdog a waiter => Sys2Proof.Machine.execPegWatchdog a waiter s
  | .winCfgWrite a win v => Sys2Proof.Machine.execWinCfgWrite a win v s
  | .winRingWrite a win v => Sys2Proof.Machine.execWinRingWrite a win v s
  | .doOpen a win => Sys2Proof.Machine.execDoOpen a win s
  | .doClose a win => Sys2Proof.Machine.execDoClose a win s
  | .epCfgWrite a ep v => Sys2Proof.Machine.execEpCfgWrite a ep v s
  | .intForce p v => Sys2Proof.Machine.execIntForce p v s
  | .registerWrite w bar2 addr size v => Sys2Proof.Machine.execRegisterWrite w bar2 addr size v s
  | .smbSetOffset off => Sys2Proof.Machine.execSmbSetOffset off s
  | .smbRead => Sys2Proof.Machine.execSmbRead s
  | .smbWrite v => Sys2Proof.Machine.execSmbWrite v s
  | .bypass => Sys2Proof.Machine.execBypass s
  | .idcode => Sys2Proof.Machine.execIdcode s
  | .samplePreload v => Sys2Proof.Machine.execSamplePreload v s
  | .extest v => Sys2Proof.Machine.execExtest v s
  | .trst => Sys2Proof.Machine.execTrst s
  | .pinGlitch pin => Sys2Proof.Machine.execPinGlitch pin s
  | .pinChatter pin => Sys2Proof.Machine.execPinChatter pin s
  | .chatterClear pin level => Sys2Proof.Machine.execChatterClear pin level s
  | .pinStuck pin => Sys2Proof.Machine.execPinStuck pin s
  | .cageInsert cage => Sys2Proof.Machine.execCageInsert cage s
  | .cageRemove cage => Sys2Proof.Machine.execCageRemove cage s
  | .resetNAssert => Sys2Proof.Machine.execResetNAssert s
  | .resetNRelease => Sys2Proof.Machine.execResetNRelease s
  | .moduleReset => Sys2Proof.Machine.execModuleReset s
  | .fabricReset => Sys2Proof.Machine.execFabricReset s
  | .perstRelease k => Sys2Proof.Machine.execPerstRelease k s
  | .feedLoss feed dv => Sys2Proof.Machine.execFeedLoss feed dv s
  | .supplyCollapse => Sys2Proof.Machine.execSupplyCollapse s
  | .converterRestart => Sys2Proof.Machine.execConverterRestart s
  | .capTick w => Sys2Proof.Machine.execCapTick w s
  | .trimChange die => Sys2Proof.Machine.execTrimChange die s
  | .thermalSample die temp sensor => Sys2Proof.Machine.execThermalSample die temp sensor s
  | .thermalTrimTick die => Sys2Proof.Machine.execThermalTrimTick die s
  | .thermTrip die => Sys2Proof.Machine.execThermTrip die s
  | .cureRequest => Sys2Proof.Machine.execCureRequest s
  | .wakeNEdge => Sys2Proof.Machine.execWakeNEdge s
  | .wakeFrame die lport frame => Sys2Proof.Machine.execWakeFrame die lport frame s
  | .hostWake => Sys2Proof.Machine.execHostWake s
  | .timerWake => Sys2Proof.Machine.execTimerWake s
  | .fclkPllUnlock die => Sys2Proof.Machine.execFclkPllUnlock die s
  | .memclkPllUnlock die ctl => Sys2Proof.Machine.execMemclkPllUnlock die ctl s
  | .mclkPllUnlock => Sys2Proof.Machine.execMclkPllUnlock s
  | .tclkPllUnlock => Sys2Proof.Machine.execTclkPllUnlock s
  | .tclkRelock => Sys2Proof.Machine.execTclkRelock s
  | .pclkPllUnlock k => Sys2Proof.Machine.execPclkPllUnlock k s
  | .fuseAdvance w target => Sys2Proof.Machine.execFuseAdvance w target s
  | .fuseStep => Sys2Proof.Machine.execFuseStep s
  | .fuseRevoke w slot => Sys2Proof.Machine.execFuseRevoke w slot s
  | .registerRead w bar2 addr size => Sys2Proof.Machine.execRegisterRead w bar2 addr size s
  | .frameTransmit die lport => Sys2Proof.Machine.execFrameTransmit die lport s
  | .tierTrainingDone => Sys2Proof.Machine.execTierTrainingDone s
  | .pcieLinkUp k bme speed width => Sys2Proof.Machine.execPcieLinkUp k bme speed width s
  | .pcieConfigRequest k dw => Sys2Proof.Machine.execPcieConfigRequest k dw s
  | .mclkRelock => Sys2Proof.Machine.execMclkRelock s
  | .feedReturn feed dv => Sys2Proof.Machine.execFeedReturn feed dv s
  | .wakeNRelease => Sys2Proof.Machine.execWakeNRelease s
  | .slewComplete => Sys2Proof.Machine.execSlewComplete s
  | .tripHoldExpiry => Sys2Proof.Machine.execTripHoldExpiry s
  | .smbClockLowTimeout => Sys2Proof.Machine.execSmbClockLowTimeout s

end Sys2Proof.Machine
end

