-- ==== Sys2Proof/Machine/Step.lean ====
section
/-! DEFINITION. One step: the command at the front of the queue, or one cycle of the time base. -/

namespace Sys2Proof.Machine

/-- The first waiting command takes effect and leaves the queue; with none waiting one cycle of the
time base passes, and accesses that wait inside a PCIe endpoint are tried again (log 3). -/
def step (s : State) : Host.Outcome State Fault Refusal :=
  match s.pending with
  | [] => .next (apertureIdle (tick s))
  | c :: rest => exec c { s with pending := rest }

/-- s with the command that a table word spells put at the front of its queue; s itself where the word spells none. -/
def State.withFetchWord (s : State) (nbits w : Nat) : State :=
  match decodeTableWord nbits w with
  | some c => { s with pending := c :: s.pending }
  | none => s

end Sys2Proof.Machine
end

