-- ==== Sys2Proof/Machine/JoinerWords.lean ====
section
/-! DEFINITION. The words of the Joiner's commands, both ways (R100 to R103): the word whose turn a command is, and the
command a word is. -/

namespace Sys2Proof.Machine

/-- The ashlar and the word of a Joiner instruction command; none for any other command. -/
def joinerWord (i : Instr) : Option (Ash × Word) :=
  match i with
  | .add a rd rs1 rs2 => some (a, encAlu 0x00 rd rs1 rs2)
  | .sub a rd rs1 rs2 => some (a, encAlu 0x01 rd rs1 rs2)
  | .and a rd rs1 rs2 => some (a, encAlu 0x02 rd rs1 rs2)
  | .or a rd rs1 rs2 => some (a, encAlu 0x03 rd rs1 rs2)
  | .xor a rd rs1 rs2 => some (a, encAlu 0x04 rd rs1 rs2)
  | .sll a rd rs1 rs2 => some (a, encAlu 0x05 rd rs1 rs2)
  | .srl a rd rs1 rs2 => some (a, encAlu 0x06 rd rs1 rs2)
  | .sra a rd rs1 rs2 => some (a, encAlu 0x07 rd rs1 rs2)
  | .slt a rd rs1 rs2 => some (a, encAlu 0x08 rd rs1 rs2)
  | .sltu a rd rs1 rs2 => some (a, encAlu 0x09 rd rs1 rs2)
  | .min a rd rs1 rs2 => some (a, encAlu 0x0A rd rs1 rs2)
  | .max a rd rs1 rs2 => some (a, encAlu 0x0B rd rs1 rs2)
  | .minu a rd rs1 rs2 => some (a, encAlu 0x0C rd rs1 rs2)
  | .maxu a rd rs1 rs2 => some (a, encAlu 0x0D rd rs1 rs2)
  | .mul a rd rs1 rs2 => some (a, encAlu 0x10 rd rs1 rs2)
  | .mulhu a rd rs1 rs2 => some (a, encAlu 0x11 rd rs1 rs2)
  | .mulh a rd rs1 rs2 => some (a, encAlu 0x12 rd rs1 rs2)
  | .flt a rd rs1 rs2 => some (a, encAlu 0x20 rd rs1 rs2)
  | .fle a rd rs1 rs2 => some (a, encAlu 0x21 rd rs1 rs2)
  | .feq a rd rs1 rs2 => some (a, encAlu 0x22 rd rs1 rs2)
  | .fcvti a rd rs1 => some (a, encAlu 0x23 rd rs1 0)
  | .fcvtf a rd rs1 => some (a, encAlu 0x24 rd rs1 0)
  | .addi a rd rs1 imm => some (a, encI 0x01 rd rs1 imm)
  | .andi a rd rs1 imm => some (a, encI 0x02 rd rs1 imm)
  | .ori a rd rs1 imm => some (a, encI 0x03 rd rs1 imm)
  | .xori a rd rs1 imm => some (a, encI 0x04 rd rs1 imm)
  | .slli a rd rs1 sh => some (a, encShift 0x05 rd rs1 sh)
  | .srli a rd rs1 sh => some (a, encShift 0x06 rd rs1 sh)
  | .srai a rd rs1 sh => some (a, encShift 0x07 rd rs1 sh)
  | .slti a rd rs1 imm => some (a, encI 0x08 rd rs1 imm)
  | .sltiu a rd rs1 imm => some (a, encI 0x09 rd rs1 imm)
  | .lui a rd imm => some (a, encI 0x0A rd 0 imm)
  | .lw a rd rs1 imm => some (a, encI 0x10 rd rs1 imm)
  | .lh a rd rs1 imm => some (a, encI 0x11 rd rs1 imm)
  | .lhu a rd rs1 imm => some (a, encI 0x12 rd rs1 imm)
  | .lb a rd rs1 imm => some (a, encI 0x13 rd rs1 imm)
  | .lbu a rd rs1 imm => some (a, encI 0x14 rd rs1 imm)
  | .sw a rs2 rs1 imm => some (a, encI 0x15 rs2 rs1 imm)
  | .sh a rs2 rs1 imm => some (a, encI 0x16 rs2 rs1 imm)
  | .sb a rs2 rs1 imm => some (a, encI 0x17 rs2 rs1 imm)
  | .beq a rs1 rs2 off => some (a, encI 0x18 rs1 rs2 off)
  | .bne a rs1 rs2 off => some (a, encI 0x19 rs1 rs2 off)
  | .blt a rs1 rs2 off => some (a, encI 0x1A rs1 rs2 off)
  | .bge a rs1 rs2 off => some (a, encI 0x1B rs1 rs2 off)
  | .bltu a rs1 rs2 off => some (a, encI 0x1C rs1 rs2 off)
  | .bgeu a rs1 rs2 off => some (a, encI 0x1D rs1 rs2 off)
  | .jal a rd imm => some (a, encI 0x1E rd 0 imm)
  | .jalr a rd rs1 imm => some (a, encI 0x1F rd rs1 imm)
  | .loop a rs1 body => some (a, encLoop rs1 body)
  | .loopi a n body => some (a, encLoopi n body)
  | .loopt a rs2 rs1 alsel tlog2 body => some (a, encLoopt rs2 rs1 alsel tlog2 body)
  | .issue a rsA rs1 widxA rsB widxB => some (a, encIssue rsA rs1 widxA rsB widxB)
  | .psig a inc peg => some (a, encPsig inc peg)
  | .pwait a rs1 mode peg => some (a, encPwait rs1 mode peg)
  | .ptest a rd rs1 peg => some (a, encPtest rd rs1 peg)
  | .prd a rd peg => some (a, encPrd rd peg)
  | .pfadd a rd rs1 rs2 => some (a, encR 0x2C rd rs1 rs2 0)
  | .eprd a rd word ep => some (a, encEprd rd word ep)
  | .eppop a ep => some (a, encEppop ep)
  | .bepe a ep off => some (a, encBep 0x32 ep off)
  | .bepne a ep off => some (a, encBep 0x33 ep off)
  | .csrr a rd csr => some (a, encCsrr rd csr)
  | .csrw a rs1 csr => some (a, encCsrw rs1 csr)
  | .msg a rs1 => some (a, encI 0x38 0 rs1 0)
  | .tend a => some (a, encI 0x39 0 0 0)
  | .trap a code => some (a, encI 0x3A 0 0 code)
  | .reth a => some (a, encI 0x3B 0 0 0)
  | .fence a mask => some (a, encFence mask)
  | .halt a => some (a, encI 0x3D 0 0 0)
  | _ => none

/-- A field of a word as bits. -/
def fieldOf (w : Word) (lo n : Nat) : BitVec n := BitVec.ofNat n (bits w lo n)

/-- The command of the ALU group with this FUNC (R102). -/
def aluInstr (a : Ash) (w : Word) : Option Instr :=
  let rd : Reg := fieldOf w 21 5
  let rs1 : Reg := fieldOf w 16 5
  let rs2 : Reg := fieldOf w 11 5
  match bits w 0 6 with
  | 0x00 => some (.add a rd rs1 rs2)
  | 0x01 => some (.sub a rd rs1 rs2)
  | 0x02 => some (.and a rd rs1 rs2)
  | 0x03 => some (.or a rd rs1 rs2)
  | 0x04 => some (.xor a rd rs1 rs2)
  | 0x05 => some (.sll a rd rs1 rs2)
  | 0x06 => some (.srl a rd rs1 rs2)
  | 0x07 => some (.sra a rd rs1 rs2)
  | 0x08 => some (.slt a rd rs1 rs2)
  | 0x09 => some (.sltu a rd rs1 rs2)
  | 0x0A => some (.min a rd rs1 rs2)
  | 0x0B => some (.max a rd rs1 rs2)
  | 0x0C => some (.minu a rd rs1 rs2)
  | 0x0D => some (.maxu a rd rs1 rs2)
  | 0x10 => some (.mul a rd rs1 rs2)
  | 0x11 => some (.mulhu a rd rs1 rs2)
  | 0x12 => some (.mulh a rd rs1 rs2)
  | 0x20 => some (.flt a rd rs1 rs2)
  | 0x21 => some (.fle a rd rs1 rs2)
  | 0x22 => some (.feq a rd rs1 rs2)
  | 0x23 => some (.fcvti a rd rs1)
  | 0x24 => some (.fcvtf a rd rs1)
  | _ => none

/-- The command with this opcode, its reserved fields not looked at (R101). -/
def opcodeInstr (a : Ash) (w : Word) : Option Instr :=
  let f25 : Reg := fieldOf w 21 5
  let f20 : Reg := fieldOf w 16 5
  let imm : Half := fieldOf w 0 16
  match bits w 26 6 with
  | 0x00 => aluInstr a w
  | 0x01 => some (.addi a f25 f20 imm)
  | 0x02 => some (.andi a f25 f20 imm)
  | 0x03 => some (.ori a f25 f20 imm)
  | 0x04 => some (.xori a f25 f20 imm)
  | 0x05 => some (.slli a f25 f20 (fieldOf w 0 5))
  | 0x06 => some (.srli a f25 f20 (fieldOf w 0 5))
  | 0x07 => some (.srai a f25 f20 (fieldOf w 0 5))
  | 0x08 => some (.slti a f25 f20 imm)
  | 0x09 => some (.sltiu a f25 f20 imm)
  | 0x0A => some (.lui a f25 imm)
  | 0x10 => some (.lw a f25 f20 imm)
  | 0x11 => some (.lh a f25 f20 imm)
  | 0x12 => some (.lhu a f25 f20 imm)
  | 0x13 => some (.lb a f25 f20 imm)
  | 0x14 => some (.lbu a f25 f20 imm)
  | 0x15 => some (.sw a f25 f20 imm)
  | 0x16 => some (.sh a f25 f20 imm)
  | 0x17 => some (.sb a f25 f20 imm)
  | 0x18 => some (.beq a f25 f20 imm)
  | 0x19 => some (.bne a f25 f20 imm)
  | 0x1A => some (.blt a f25 f20 imm)
  | 0x1B => some (.bge a f25 f20 imm)
  | 0x1C => some (.bltu a f25 f20 imm)
  | 0x1D => some (.bgeu a f25 f20 imm)
  | 0x1E => some (.jal a f25 imm)
  | 0x1F => some (.jalr a f25 f20 imm)
  | 0x20 => some (.loop a f20 (fieldOf w 0 8))
  | 0x21 => some (.loopi a (fieldOf w 8 12) (fieldOf w 0 8))
  | 0x22 => some (.loopt a f25 f20 (fieldOf w 14 2) (fieldOf w 8 5) (fieldOf w 0 8))
  | 0x24 => some (.issue a f25 f20 (fieldOf w 12 4) (fieldOf w 7 5) (fieldOf w 3 4))
  | 0x28 => some (.psig a (fieldOf w 8 8) (fieldOf w 0 6))
  | 0x29 => some (.pwait a f20 (fieldOf w 6 2) (fieldOf w 0 6))
  | 0x2A => some (.ptest a f25 f20 (fieldOf w 0 6))
  | 0x2B => some (.prd a f25 (fieldOf w 0 6))
  | 0x2C => some (.pfadd a f25 f20 (fieldOf w 11 5))
  | 0x30 => some (.eprd a f25 (fieldOf w 3 2) (fieldOf w 0 3))
  | 0x31 => some (.eppop a (fieldOf w 0 3))
  | 0x32 => some (.bepe a (fieldOf w 16 3) imm)
  | 0x33 => some (.bepne a (fieldOf w 16 3) imm)
  | 0x34 => some (.csrr a f25 (fieldOf w 0 8))
  | 0x35 => some (.csrw a f20 (fieldOf w 0 8))
  | 0x38 => some (.msg a f20)
  | 0x39 => some (.tend a)
  | 0x3A => some (.trap a imm)
  | 0x3B => some (.reth a)
  | 0x3C => some (.fence a (fieldOf w 0 4))
  | 0x3D => some (.halt a)
  | _ => none

/-- The command that a legal word is at an ashlar; none for a word that traps as ILLEGAL (R103). -/
def joinerInstr (a : Ash) (w : Word) : Option Instr := if jLegal w then opcodeInstr a w else none

end Sys2Proof.Machine
end

