-- ==== Sys2Proof/WellFormed.lean ====
section
/-! DEFINITION. Which commands are well formed on a part: the block a command names exists (R1, R22, R307, R673), and its
operands have the form its row takes. -/

namespace Sys2Proof

open Machine

/-! ### Blocks of the part -/

/-- A destination of the part: a block it has, or a place on its grid (R307, R308). -/
def destOn (part : Part) (d : Dest) : Bool :=
  if isBlock d then blockExists part d
  else decide (destX d < 128 * part.dieCols) && decide (destY d < 96 * part.dieRows)

/-- A tier block of the part. -/
def tierOn (part : Part) (d : Dest) : Bool := blockExists part d && (ctlOfDest d).isSome

/-- A block of the part with one code. -/
def blockOn (part : Part) (code : Nat) (d : Dest) : Bool := isBlock d && (blockOf d).1 == code && blockExists part d

def blockCode (p : Packet) : Nat := (blockOf p.dest).1

/-! ### What a packet carries (R311, R603) -/

def bodyChan (p : Packet) : Bool :=
  match p.body with
  | .chan _ _ _ => true
  | _ => false

def bodyConnect (p : Packet) : Bool :=
  match p.body with
  | .connect _ _ _ _ _ _ _ => true
  | _ => false

def bodyConnReply (p : Packet) : Bool :=
  match p.body with
  | .connReply _ _ _ _ _ _ _ => true
  | _ => false

def bodyRwrite (p : Packet) : Bool :=
  match p.body with
  | .rwrite _ => true
  | _ => false

def bodyNak (p : Packet) : Bool :=
  match p.body with
  | .nak _ _ => true
  | _ => false

def bodyCret (p : Packet) : Bool :=
  match p.body with
  | .cret _ _ => true
  | _ => false

def bodyPsig (p : Packet) : Bool :=
  match p.body with
  | .psig _ _ _ => true
  | _ => false

def bodyFadd (p : Packet) : Bool :=
  match p.body with
  | .fadd _ _ _ => true
  | _ => false

def bodyFaddReply (p : Packet) : Bool :=
  match p.body with
  | .faddReply _ _ => true
  | _ => false

def bodyKreq (p : Packet) : Bool :=
  match p.body with
  | .kreq _ => true
  | _ => false

def bodyKgrant (p : Packet) : Bool :=
  match p.body with
  | .kgrant _ _ => true
  | _ => false

def bodyMwrite (p : Packet) : Bool :=
  match p.body with
  | .mwrite _ _ _ _ => true
  | _ => false

def bodyMlookup (p : Packet) : Bool :=
  match p.body with
  | .mlookup _ _ _ _ => true
  | _ => false

def bodyMresp (p : Packet) : Bool :=
  match p.body with
  | .mresp _ _ _ _ _ _ => true
  | _ => false

def bodyMack (p : Packet) : Bool :=
  match p.body with
  | .mack _ _ => true
  | _ => false

def bodyRegWrite (p : Packet) : Bool :=
  match p.body with
  | .scaf _ (.regWrite _ _) => true
  | _ => false

def bodyRegRead (p : Packet) : Bool :=
  match p.body with
  | .scaf _ (.regRead _) => true
  | _ => false

def bodyReadReply (p : Packet) : Bool :=
  match p.body with
  | .scaf _ (.readReply _ _) => true
  | _ => false

def bodyBcast (p : Packet) : Bool :=
  match p.body with
  | .scaf _ (.bcast _ _ _) => true
  | _ => false

def bodyBcastDone (p : Packet) : Bool :=
  match p.body with
  | .scaf _ (.bcastDone _) => true
  | _ => false

def bodyLoadOrder (p : Packet) : Bool :=
  match p.body with
  | .scaf _ (.loadOrder _ _ _ _ _) => true
  | _ => false

def bodyLoadDone (p : Packet) : Bool :=
  match p.body with
  | .scaf _ (.loadDone _) => true
  | _ => false

def bodySaveOrder (p : Packet) : Bool :=
  match p.body with
  | .scaf _ (.saveOrder _ _ _ _ _) => true
  | _ => false

def bodySaveDone (p : Packet) : Bool :=
  match p.body with
  | .scaf _ (.saveDone _) => true
  | _ => false

def bodyMason (p : Packet) : Bool :=
  match p.body with
  | .scaf _ (.mason _) => true
  | _ => false

def bodyMreq (p : Packet) : Bool :=
  match p.body with
  | .mread _ => true
  | .plane _ => true
  | _ => false

/-- A PSIG to a tunnel names peg 16 or above, one to a reduction context a peg below 16 (R558, R561). -/
def bodyPsigHi (p : Packet) : Bool :=
  match p.body with
  | .psig peg _ _ => decide (16 ≤ peg.toNat)
  | _ => false

def bodyPsigLo (p : Packet) : Bool :=
  match p.body with
  | .psig peg _ _ => decide (peg.toNat < 16)
  | _ => false

/-! ### Commands -/

/-- Whether the part has the block, page or instance that a command names. -/
def Instr.onPart (part : Part) (c : Instr) : Bool :=
  match c with
  | .add a _ _ _ => pageExists part (.ash a)
  | .sub a _ _ _ => pageExists part (.ash a)
  | .and a _ _ _ => pageExists part (.ash a)
  | .or a _ _ _ => pageExists part (.ash a)
  | .xor a _ _ _ => pageExists part (.ash a)
  | .sll a _ _ _ => pageExists part (.ash a)
  | .srl a _ _ _ => pageExists part (.ash a)
  | .sra a _ _ _ => pageExists part (.ash a)
  | .slt a _ _ _ => pageExists part (.ash a)
  | .sltu a _ _ _ => pageExists part (.ash a)
  | .min a _ _ _ => pageExists part (.ash a)
  | .max a _ _ _ => pageExists part (.ash a)
  | .minu a _ _ _ => pageExists part (.ash a)
  | .maxu a _ _ _ => pageExists part (.ash a)
  | .mul a _ _ _ => pageExists part (.ash a)
  | .mulhu a _ _ _ => pageExists part (.ash a)
  | .mulh a _ _ _ => pageExists part (.ash a)
  | .flt a _ _ _ => pageExists part (.ash a)
  | .fle a _ _ _ => pageExists part (.ash a)
  | .feq a _ _ _ => pageExists part (.ash a)
  | .fcvti a _ _ => pageExists part (.ash a)
  | .fcvtf a _ _ => pageExists part (.ash a)
  | .addi a _ _ _ => pageExists part (.ash a)
  | .andi a _ _ _ => pageExists part (.ash a)
  | .ori a _ _ _ => pageExists part (.ash a)
  | .xori a _ _ _ => pageExists part (.ash a)
  | .slli a _ _ _ => pageExists part (.ash a)
  | .srli a _ _ _ => pageExists part (.ash a)
  | .srai a _ _ _ => pageExists part (.ash a)
  | .slti a _ _ _ => pageExists part (.ash a)
  | .sltiu a _ _ _ => pageExists part (.ash a)
  | .lui a _ _ => pageExists part (.ash a)
  | .lw a _ _ _ => pageExists part (.ash a)
  | .lh a _ _ _ => pageExists part (.ash a)
  | .lhu a _ _ _ => pageExists part (.ash a)
  | .lb a _ _ _ => pageExists part (.ash a)
  | .lbu a _ _ _ => pageExists part (.ash a)
  | .sw a _ _ _ => pageExists part (.ash a)
  | .sh a _ _ _ => pageExists part (.ash a)
  | .sb a _ _ _ => pageExists part (.ash a)
  | .beq a _ _ _ => pageExists part (.ash a)
  | .bne a _ _ _ => pageExists part (.ash a)
  | .blt a _ _ _ => pageExists part (.ash a)
  | .bge a _ _ _ => pageExists part (.ash a)
  | .bltu a _ _ _ => pageExists part (.ash a)
  | .bgeu a _ _ _ => pageExists part (.ash a)
  | .jal a _ _ => pageExists part (.ash a)
  | .jalr a _ _ _ => pageExists part (.ash a)
  | .loop a _ _ => pageExists part (.ash a)
  | .loopi a _ _ => pageExists part (.ash a)
  | .loopt a _ _ _ _ _ => pageExists part (.ash a)
  | .issue a _ _ _ _ _ => pageExists part (.ash a)
  | .engineDecode a => pageExists part (.ash a)
  | .psig a _ _ => pageExists part (.ash a)
  | .pwait a _ _ _ => pageExists part (.ash a)
  | .ptest a _ _ _ => pageExists part (.ash a)
  | .prd a _ _ => pageExists part (.ash a)
  | .pfadd a _ _ _ => pageExists part (.ash a)
  | .eprd a _ _ _ => pageExists part (.ash a)
  | .eppop a _ => pageExists part (.ash a)
  | .bepe a _ _ => pageExists part (.ash a)
  | .bepne a _ _ => pageExists part (.ash a)
  | .csrr a _ _ => pageExists part (.ash a)
  | .csrw a _ _ => pageExists part (.ash a)
  | .msg a _ => pageExists part (.ash a)
  | .tend a => pageExists part (.ash a)
  | .trap a _ => pageExists part (.ash a)
  | .reth a => pageExists part (.ash a)
  | .fence a _ => pageExists part (.ash a)
  | .halt a => pageExists part (.ash a)
  | .breakpoint a => pageExists part (.ash a)
  | .taskBoundary a => pageExists part (.ash a)
  | .reductionWrite a _ => pageExists part (.ash a)
  | .instrComplete a _ => pageExists part (.ash a)
  | .readsRetired a _ => pageExists part (.ash a)
  | .mma a => pageExists part (.ash a)
  | .mwload a => pageExists part (.ash a)
  | .mwdrop a => pageExists part (.ash a)
  | .weightPreload a => pageExists part (.ash a)
  | .plumbSampleArrive a => pageExists part (.ash a)
  | .satCountArrive a => pageExists part (.ash a)
  | .slotSnap die slot => decide (die < part.dies) && decide (slot < 33)
  | .slotClear die slot => decide (die < part.dies) && decide (slot < 33)
  | .slotConfigWrite _ die _ _ => decide (die < part.dies)
  | .slotConfigDone die slot => decide (die < part.dies) && decide (slot < 33)
  | .vecAdd a => pageExists part (.ash a)
  | .vecSub a => pageExists part (.ash a)
  | .vecMul a => pageExists part (.ash a)
  | .vecFma a => pageExists part (.ash a)
  | .vecMin a => pageExists part (.ash a)
  | .vecMax a => pageExists part (.ash a)
  | .vecAbs a => pageExists part (.ash a)
  | .vecNeg a => pageExists part (.ash a)
  | .cpsgn a => pageExists part (.ash a)
  | .cvt a => pageExists part (.ash a)
  | .sel a => pageExists part (.ash a)
  | .cmpLt a => pageExists part (.ash a)
  | .cmpLe a => pageExists part (.ash a)
  | .cmpEq a => pageExists part (.ash a)
  | .cmpNe a => pageExists part (.ash a)
  | .cmpGt a => pageExists part (.ash a)
  | .cmpGe a => pageExists part (.ash a)
  | .fnExp a => pageExists part (.ash a)
  | .fnExp2 a => pageExists part (.ash a)
  | .fnLn a => pageExists part (.ash a)
  | .fnLog2 a => pageExists part (.ash a)
  | .fnRecip a => pageExists part (.ash a)
  | .fnSqrt a => pageExists part (.ash a)
  | .fnRsqrt a => pageExists part (.ash a)
  | .fnTanh a => pageExists part (.ash a)
  | .fnSigmoid a => pageExists part (.ash a)
  | .fnSilu a => pageExists part (.ash a)
  | .fnGelu a => pageExists part (.ash a)
  | .fnSoftplus a => pageExists part (.ash a)
  | .vecAnd a => pageExists part (.ash a)
  | .vecOr a => pageExists part (.ash a)
  | .vecXor a => pageExists part (.ash a)
  | .shl a => pageExists part (.ash a)
  | .shr a => pageExists part (.ash a)
  | .vecSra a => pageExists part (.ash a)
  | .rsum a => pageExists part (.ash a)
  | .rssq a => pageExists part (.ash a)
  | .rmax a => pageExists part (.ash a)
  | .rmin a => pageExists part (.ash a)
  | .ramax a => pageExists part (.ash a)
  | .compress a => pageExists part (.ash a)
  | .expand a => pageExists part (.ash a)
  | .mload a => pageExists part (.ash a)
  | .mstore a => pageExists part (.ash a)
  | .mlogicAnd a => pageExists part (.ash a)
  | .mlogicOr a => pageExists part (.ash a)
  | .mlogicXor a => pageExists part (.ash a)
  | .mlogicAndn a => pageExists part (.ash a)
  | .mlogicNot a => pageExists part (.ash a)
  | .mlogicSet a => pageExists part (.ash a)
  | .mlogicClear a => pageExists part (.ash a)
  | .optupdSgd a => pageExists part (.ash a)
  | .optupdMomentum a => pageExists part (.ash a)
  | .optupdNesterov a => pageExists part (.ash a)
  | .optupdAdamw a => pageExists part (.ash a)
  | .optupdLion a => pageExists part (.ash a)
  | .optupdAdagrad a => pageExists part (.ash a)
  | .sload a => pageExists part (.ash a)
  | .sstore a => pageExists part (.ash a)
  | .fill a => pageExists part (.ash a)
  | .copy a => pageExists part (.ash a)
  | .rpop a => pageExists part (.ash a)
  | .wctlOpen a => pageExists part (.ash a)
  | .wctlClose a => pageExists part (.ash a)
  | .wctlCloseOpen a => pageExists part (.ash a)
  | .sloadRequest a prog => pageExists part (.ash a) && decide (prog < 4)
  | .sstoreDrain a prog => pageExists part (.ash a) && decide (prog < 4)
  | .spadWriteback a => pageExists part (.ash a)
  | .scrubVisit a => pageExists part (.ash a)
  | .sendt a => pageExists part (.ash a)
  | .sendi a => pageExists part (.ash a)
  | .msend a => pageExists part (.ash a)
  | .wsend a => pageExists part (.ash a)
  | .psigr a => pageExists part (.ash a)
  | .connConnect a => pageExists part (.ash a)
  | .connDisconnect a => pageExists part (.ash a)
  | .ksend a => pageExists part (.ash a)
  | .sendResume a => pageExists part (.ash a)
  | .connectRetry a => pageExists part (.ash a)
  | .channelFlit p => destOn part p.dest
  | .connect p => destOn part p.dest
  | .connReply p => destOn part p.dest
  | .rwrite p => destOn part p.dest
  | .nak p => destOn part p.dest
  | .cret p => destOn part p.dest
  | .psigPacket p => destOn part p.dest
  | .fadd p => destOn part p.dest
  | .faddReply p => destOn part p.dest
  | .stall a => pageExists part (.ash a)
  | .deadlockProbe a => pageExists part (.ash a)
  | .fenceWrite die n _ => decide (die < part.dies) && decide (n < 16)
  | .fenceApply die n => decide (die < part.dies) && decide (n < 16)
  | .raccRead die => decide (die < part.dies)
  | .raccWrite die => decide (die < part.dies)
  | .lintelUp die side => pageExists part (.lin die side)
  | .lintelDown die side => pageExists part (.lin die side)
  | .kreq p => destOn part p.dest
  | .kgrant p => destOn part p.dest
  | .kreqRetry a => pageExists part (.ash a)
  | .keystoneAdmit die => decide (die < part.dies)
  | .keystonePartial p => destOn part p.dest
  | .ctxRelease die ctx => decide (die < part.dies) && decide (ctx < 64)
  | .ctxReleaseRect die n => decide (die < part.dies) && decide (n < 16)
  | .releaseDrainEnd die => decide (die < part.dies)
  | .mreqRead p => tierOn part p.dest
  | .mwrite p => tierOn part p.dest
  | .mreqLookup p => blockOn part 3 p.dest
  | .mresp p => destOn part p.dest
  | .mack p => destOn part p.dest
  | .patrolScrub die _ => decide (die < part.dies)
  | .decaySweep die => decide (die < part.dies)
  | .migrationStart die => decide (die < part.dies)
  | .migrationSwitch die _ => decide (die < part.dies)
  | .migrationAbort die _ => decide (die < part.dies)
  | .frameReuse die tier _ => decide (die < part.dies) && decide (1 ≤ tier ∧ tier ≤ 3)
  | .hodCmdGo die _ => decide (die < part.dies)
  | .dimmEvacuate die => decide (die < part.dies)
  | .dimmCancel die => decide (die < part.dies)
  | .dimmReadmit die => decide (die < part.dies)
  | .dimmSafe die => decide (die < part.dies)
  | .dimmPresent die _ => decide (die < part.dies)
  | .dimmRemoved die => decide (die < part.dies)
  | .dimmTrainingDone die _ => decide (die < part.dies)
  | .dimmInitDone die _ => decide (die < part.dies)
  | .dimmLost die => decide (die < part.dies)
  | .planeTrigger p => destOn part p.dest
  | .planeDispatch die _ => decide (die < part.dies)
  | .planeWorkItem die _ => decide (die < part.dies)
  | .planeItemAnswer p => destOn part p.dest
  | .plnDescWrite die _ _ _ => decide (die < part.dies)
  | .loadJob _ _ => true
  | .startJob _ => true
  | .stopJob _ => true
  | .resumeJob _ => true
  | .unloadJob _ => true
  | .setPriority _ => true
  | .slotAdd _ => true
  | .slotRemove _ => true
  | .slotDrainDone _ _ _ => true
  | .publish _ _ => true
  | .dimmServiceBegin _ => true
  | .dimmServiceCancel _ => true
  | .dimmServiceReadmit _ => true
  | .signal _ => true
  | .queryJob _ => true
  | .masonRestart _ => true
  | .masonReady => true
  | .masWdog => true
  | .hcqEnable ring _ => decide (ring < 3)
  | .mailboxEntry die => decide (die < part.dies)
  | .preempt _ => true
  | .preemptTimeout _ => true
  | .quantumExpiry => true
  | .runQueuePlace => true
  | .bayMove _ _ _ => true
  | .frameReceive die lport _ _ => decide (die < part.dies) && decide (lport < 4)
  | .routeInject die route => decide (die < part.dies) && decide (route < 16)
  | .staleDrop die group => decide (die < part.dies) && decide (group < 8)
  | .captureWrite die => decide (die < part.dies)
  | .captureCreditReturn p => destOn part p.dest
  | .lkInsert die => decide (die < part.dies)
  | .lkDelete die => decide (die < part.dies)
  | .lkRead die => decide (die < part.dies)
  | .puntPop die => decide (die < part.dies)
  | .mtxGo die => decide (die < part.dies)
  | .mgmtTxStart die => decide (die < part.dies)
  | .linkChange die lport _ => decide (die < part.dies) && decide (lport < 4)
  | .rxIdle die lport => decide (die < part.dies) && decide (lport < 4)
  | .egressResult die input => decide (die < part.dies) && decide (input < 8)
  | .twinWaitExpiry die group _ => decide (die < part.dies) && decide (group < 8)
  | .unavailPeriod die group => decide (die < part.dies) && decide (group < 8)
  | .grpModeWrite die group _ => decide (die < part.dies) && decide (group < 8)
  | .timSet _ => true
  | .timAdj _ => true
  | .ppsPulse _ _ => true
  | .ppsHoldover => true
  | .jhlFrameReceive die port _ _ _ => decide (die < part.dies) && decide (port < 2)
  | .replayTimeout die port => decide (die < part.dies) && decide (port < 2)
  | .jhlLinkDown die port => decide (die < part.dies) && decide (port < 2)
  | .jhlTrained die port _ _ _ => decide (die < part.dies) && decide (port < 2)
  | .jhlFail die port => decide (die < part.dies) && decide (port < 2)
  | .jhlRetrain die port => decide (die < part.dies) && decide (port < 2)
  | .heartbeatSend die port => decide (die < part.dies) && decide (port < 2)
  | .jhlPeerLost die port => decide (die < part.dies) && decide (port < 2)
  | .tunnelRwrite p => destOn part p.dest
  | .tunnelPsig p => destOn part p.dest
  | .tunnelConnect p => destOn part p.dest
  | .tunnelChannelFlit p => destOn part p.dest
  | .tunnelCret die port => decide (die < part.dies) && decide (port < 2)
  | .jhlRemoteNak p => destOn part p.dest
  | .reduceTrigger p => destOn part p.dest
  | .reduceStart die ctx => decide (die < part.dies) && decide (ctx < 16)
  | .reduceSegment die => decide (die < part.dies)
  | .bcastSegment die => decide (die < part.dies)
  | .barReadTimeout k => decide (k < 2)
  | .apertureRead k _ _ => decide (k < 2)
  | .apertureWrite k _ _ => decide (k < 2)
  | .dmaNop k q _ => decide (k < 2) && decide (q < 16)
  | .dmaHostToTier k q _ _ _ => decide (k < 2) && decide (q < 16)
  | .dmaTierToHost k q _ _ => decide (k < 2) && decide (q < 16)
  | .dqEnable k q _ => decide (k < 2) && decide (q < 16)
  | .apEntryWrite k _ => decide (k < 2)
  | .makeHome k => decide (k < 2)
  | .pcieLinkDown k _ => decide (k < 2)
  | .flr k => decide (k < 2)
  | .powerOn => true
  | .configStart => true
  | .sectionTimeout die => decide (die < part.dies)
  | .fabricStart => true
  | .doneWait => true
  | .rcvGo _ _ => true
  | .releaseDone => true
  | .flashWrite _ _ _ _ => true
  | .autostartLoad => true
  | .regWrite p => destOn part p.dest
  | .regRead p => destOn part p.dest
  | .readReply p => destOn part p.dest
  | .bcast p => destOn part p.dest
  | .bcastDone p => destOn part p.dest
  | .loadOrder p => destOn part p.dest
  | .loadDone p => destOn part p.dest
  | .saveOrder p => destOn part p.dest
  | .saveDone p => destOn part p.dest
  | .report die => decide (die < part.dies)
  | .masonMessage p => destOn part p.dest
  | .bayLoadStart die => decide (die < part.dies)
  | .memberRecovery _ _ _ => true
  | .survivorHeld _ _ _ => true
  | .bayRebuild _ _ => true
  | .courseShift die row => decide (die < part.dies) && decide (row < 98)
  | .courseCmdRetire die _ => decide (die < part.dies)
  | .freezeSet a => pageExists part (.ash a)
  | .freezeClear a => pageExists part (.ash a)
  | .softReset a => pageExists part (.ash a)
  | .pageSoftReset p => pageExists part p
  | .resume a _ => pageExists part (.ash a)
  | .flush a _ => pageExists part (.ash a)
  | .perfClear p => pageExists part p
  | .dbgRead a => pageExists part (.ash a)
  | .dbgWrite a => pageExists part (.ash a)
  | .jctrlRun a => pageExists part (.ash a)
  | .jctrlHalt a => pageExists part (.ash a)
  | .jctrlStep a => pageExists part (.ash a)
  | .jbankArm a => pageExists part (.ash a)
  | .jbankDisarm a => pageExists part (.ash a)
  | .jregDataWrite a _ => pageExists part (.ash a)
  | .pegSigWrite a _ => pageExists part (.ash a)
  | .pegValueWrite a peg _ => pageExists part (.ash a) && decide (peg < 48)
  | .pegWatchdog a waiter => pageExists part (.ash a) && decide (waiter < 5)
  | .winCfgWrite a win _ => pageExists part (.ash a) && decide (win < 16)
  | .winRingWrite a win _ => pageExists part (.ash a) && decide (win < 16)
  | .doOpen a win => pageExists part (.ash a) && decide (win < 16)
  | .doClose a win => pageExists part (.ash a) && decide (win < 16)
  | .epCfgWrite a ep _ => pageExists part (.ash a) && decide (ep < 8)
  | .intForce p _ => pageExists part p
  | .registerWrite _ _ _ _ _ => true
  | .smbSetOffset _ => true
  | .smbRead => true
  | .smbWrite _ => true
  | .bypass => true
  | .idcode => true
  | .samplePreload _ => true
  | .extest _ => true
  | .trst => true
  | .pinGlitch pin => decide (pin < 4)
  | .pinChatter pin => decide (pin < 4)
  | .chatterClear pin _ => decide (pin < 4)
  | .pinStuck pin => decide (pin < 4)
  | .cageInsert cage => cageExists part cage
  | .cageRemove cage => cageExists part cage
  | .resetNAssert => true
  | .resetNRelease => true
  | .moduleReset => true
  | .fabricReset => true
  | .perstRelease k => decide (k < 2)
  | .feedLoss feed _ => decide (feed < 2)
  | .supplyCollapse => true
  | .converterRestart => true
  | .capTick _ => true
  | .trimChange die => decide (die < part.dies)
  | .thermalSample die _ sensor => decide (die < part.dies) && decide (sensor < 16)
  | .thermalTrimTick die => decide (die < part.dies)
  | .thermTrip die => decide (die < part.dies)
  | .cureRequest => true
  | .wakeNEdge => true
  | .wakeFrame die lport _ => decide (die < part.dies) && decide (lport < 4)
  | .hostWake => true
  | .timerWake => true
  | .fclkPllUnlock die => decide (die < part.dies)
  | .memclkPllUnlock die _ => decide (die < part.dies)
  | .mclkPllUnlock => true
  | .tclkPllUnlock => true
  | .tclkRelock => true
  | .pclkPllUnlock k => decide (k < 2)
  | .fuseAdvance _ _ => true
  | .fuseStep => true
  | .fuseRevoke _ _ => true
  | .registerRead _ _ _ _ => true
  | .frameTransmit die lport => decide (die < part.dies) && decide (lport < 4)
  | .tierTrainingDone => true
  | .pcieLinkUp k _ _ _ => decide (k < 2)
  | .pcieConfigRequest k _ => decide (k < 2)
  | .mclkRelock => true
  | .feedReturn feed _ => decide (feed < 2)
  | .wakeNRelease => true
  | .slewComplete => true
  | .tripHoldExpiry => true
  | .smbClockLowTimeout => true

/-- Whether a command's operands have the form of its row. -/
def Instr.shaped (c : Instr) : Bool :=
  match c with
  | .add _ _ _ _ => true
  | .sub _ _ _ _ => true
  | .and _ _ _ _ => true
  | .or _ _ _ _ => true
  | .xor _ _ _ _ => true
  | .sll _ _ _ _ => true
  | .srl _ _ _ _ => true
  | .sra _ _ _ _ => true
  | .slt _ _ _ _ => true
  | .sltu _ _ _ _ => true
  | .min _ _ _ _ => true
  | .max _ _ _ _ => true
  | .minu _ _ _ _ => true
  | .maxu _ _ _ _ => true
  | .mul _ _ _ _ => true
  | .mulhu _ _ _ _ => true
  | .mulh _ _ _ _ => true
  | .flt _ _ _ _ => true
  | .fle _ _ _ _ => true
  | .feq _ _ _ _ => true
  | .fcvti _ _ _ => true
  | .fcvtf _ _ _ => true
  | .addi _ _ _ _ => true
  | .andi _ _ _ _ => true
  | .ori _ _ _ _ => true
  | .xori _ _ _ _ => true
  | .slli _ _ _ _ => true
  | .srli _ _ _ _ => true
  | .srai _ _ _ _ => true
  | .slti _ _ _ _ => true
  | .sltiu _ _ _ _ => true
  | .lui _ _ _ => true
  | .lw _ _ _ _ => true
  | .lh _ _ _ _ => true
  | .lhu _ _ _ _ => true
  | .lb _ _ _ _ => true
  | .lbu _ _ _ _ => true
  | .sw _ _ _ _ => true
  | .sh _ _ _ _ => true
  | .sb _ _ _ _ => true
  | .beq _ _ _ _ => true
  | .bne _ _ _ _ => true
  | .blt _ _ _ _ => true
  | .bge _ _ _ _ => true
  | .bltu _ _ _ _ => true
  | .bgeu _ _ _ _ => true
  | .jal _ _ _ => true
  | .jalr _ _ _ _ => true
  | .loop _ _ _ => true
  | .loopi _ _ _ => true
  | .loopt _ _ _ _ _ _ => true
  | .issue _ _ _ _ _ _ => true
  | .engineDecode _ => true
  | .psig _ _ _ => true
  | .pwait _ _ _ _ => true
  | .ptest _ _ _ _ => true
  | .prd _ _ _ => true
  | .pfadd _ _ _ _ => true
  | .eprd _ _ _ _ => true
  | .eppop _ _ => true
  | .bepe _ _ _ => true
  | .bepne _ _ _ => true
  | .csrr _ _ _ => true
  | .csrw _ _ _ => true
  | .msg _ _ => true
  | .tend _ => true
  | .trap _ _ => true
  | .reth _ => true
  | .fence _ _ => true
  | .halt _ => true
  | .breakpoint _ => true
  | .taskBoundary _ => true
  | .reductionWrite _ _ => true
  | .instrComplete _ _ => true
  | .readsRetired _ _ => true
  | .mma _ => true
  | .mwload _ => true
  | .mwdrop _ => true
  | .weightPreload _ => true
  | .plumbSampleArrive _ => true
  | .satCountArrive _ => true
  | .slotSnap _ _ => true
  | .slotClear _ _ => true
  | .slotConfigWrite _ _ off _ => (off == 0x44 || off == 0x48)
  | .slotConfigDone _ _ => true
  | .vecAdd _ => true
  | .vecSub _ => true
  | .vecMul _ => true
  | .vecFma _ => true
  | .vecMin _ => true
  | .vecMax _ => true
  | .vecAbs _ => true
  | .vecNeg _ => true
  | .cpsgn _ => true
  | .cvt _ => true
  | .sel _ => true
  | .cmpLt _ => true
  | .cmpLe _ => true
  | .cmpEq _ => true
  | .cmpNe _ => true
  | .cmpGt _ => true
  | .cmpGe _ => true
  | .fnExp _ => true
  | .fnExp2 _ => true
  | .fnLn _ => true
  | .fnLog2 _ => true
  | .fnRecip _ => true
  | .fnSqrt _ => true
  | .fnRsqrt _ => true
  | .fnTanh _ => true
  | .fnSigmoid _ => true
  | .fnSilu _ => true
  | .fnGelu _ => true
  | .fnSoftplus _ => true
  | .vecAnd _ => true
  | .vecOr _ => true
  | .vecXor _ => true
  | .shl _ => true
  | .shr _ => true
  | .vecSra _ => true
  | .rsum _ => true
  | .rssq _ => true
  | .rmax _ => true
  | .rmin _ => true
  | .ramax _ => true
  | .compress _ => true
  | .expand _ => true
  | .mload _ => true
  | .mstore _ => true
  | .mlogicAnd _ => true
  | .mlogicOr _ => true
  | .mlogicXor _ => true
  | .mlogicAndn _ => true
  | .mlogicNot _ => true
  | .mlogicSet _ => true
  | .mlogicClear _ => true
  | .optupdSgd _ => true
  | .optupdMomentum _ => true
  | .optupdNesterov _ => true
  | .optupdAdamw _ => true
  | .optupdLion _ => true
  | .optupdAdagrad _ => true
  | .sload _ => true
  | .sstore _ => true
  | .fill _ => true
  | .copy _ => true
  | .rpop _ => true
  | .wctlOpen _ => true
  | .wctlClose _ => true
  | .wctlCloseOpen _ => true
  | .sloadRequest _ _ => true
  | .sstoreDrain _ _ => true
  | .spadWriteback _ => true
  | .scrubVisit _ => true
  | .sendt _ => true
  | .sendi _ => true
  | .msend _ => true
  | .wsend _ => true
  | .psigr _ => true
  | .connConnect _ => true
  | .connDisconnect _ => true
  | .ksend _ => true
  | .sendResume _ => true
  | .connectRetry _ => true
  | .channelFlit p => bodyChan p && (!isBlock p.dest || blockCode p == 4)
  | .connect p => bodyConnect p && (!isBlock p.dest || blockCode p != 5)
  | .connReply p => bodyConnReply p
  | .rwrite p => bodyRwrite p && !isBlock p.dest
  | .nak p => bodyNak p
  | .cret p => bodyCret p
  | .psigPacket p => bodyPsig p && (!isBlock p.dest || !([0, 1, 2, 4, 5].contains (blockCode p)))
  | .fadd p => bodyFadd p
  | .faddReply p => bodyFaddReply p && !isBlock p.dest
  | .stall _ => true
  | .deadlockProbe _ => true
  | .fenceWrite _ _ _ => true
  | .fenceApply _ _ => true
  | .raccRead _ => true
  | .raccWrite _ => true
  | .lintelUp _ _ => true
  | .lintelDown _ _ => true
  | .kreq p => bodyKreq p && isBlock p.dest && blockCode p == 7
  | .kgrant p => bodyKgrant p && !isBlock p.dest
  | .kreqRetry _ => true
  | .keystoneAdmit _ => true
  | .keystonePartial p => bodyChan p && isBlock p.dest && blockCode p == 7
  | .ctxRelease _ _ => true
  | .ctxReleaseRect _ _ => true
  | .releaseDrainEnd _ => true
  | .mreqRead p => bodyMreq p && isBlock p.dest && decide (blockCode p ≤ 2)
  | .mwrite p => bodyMwrite p && isBlock p.dest && decide (blockCode p ≤ 2)
  | .mreqLookup p => bodyMlookup p && isBlock p.dest && blockCode p == 3
  | .mresp p => bodyMresp p
  | .mack p => bodyMack p
  | .patrolScrub _ _ => true
  | .decaySweep _ => true
  | .migrationStart _ => true
  | .migrationSwitch _ _ => true
  | .migrationAbort _ _ => true
  | .frameReuse _ _ _ => true
  | .hodCmdGo _ _ => true
  | .dimmEvacuate _ => true
  | .dimmCancel _ => true
  | .dimmReadmit _ => true
  | .dimmSafe _ => true
  | .dimmPresent _ _ => true
  | .dimmRemoved _ => true
  | .dimmTrainingDone _ _ => true
  | .dimmInitDone _ _ => true
  | .dimmLost _ => true
  | .planeTrigger p => bodyPsig p && isBlock p.dest && decide (blockCode p ≤ 2)
  | .planeDispatch _ _ => true
  | .planeWorkItem _ _ => true
  | .planeItemAnswer p => bodyMresp p && isBlock p.dest && decide (blockCode p ≤ 2)
  | .plnDescWrite _ _ off _ => decide (0x44 ≤ off ∧ off ≤ 0x68 ∧ off % 4 = 0)
  | .loadJob _ _ => true
  | .startJob _ => true
  | .stopJob _ => true
  | .resumeJob _ => true
  | .unloadJob _ => true
  | .setPriority _ => true
  | .slotAdd _ => true
  | .slotRemove _ => true
  | .slotDrainDone _ _ _ => true
  | .publish _ _ => true
  | .dimmServiceBegin _ => true
  | .dimmServiceCancel _ => true
  | .dimmServiceReadmit _ => true
  | .signal _ => true
  | .queryJob _ => true
  | .masonRestart _ => true
  | .masonReady => true
  | .masWdog => true
  | .hcqEnable _ _ => true
  | .mailboxEntry _ => true
  | .preempt _ => true
  | .preemptTimeout _ => true
  | .quantumExpiry => true
  | .runQueuePlace => true
  | .bayMove _ _ _ => true
  | .frameReceive _ _ _ _ => true
  | .routeInject _ _ => true
  | .staleDrop _ _ => true
  | .captureWrite _ => true
  | .captureCreditReturn p => bodyPsig p && isBlock p.dest && blockCode p == 4
  | .lkInsert _ => true
  | .lkDelete _ => true
  | .lkRead _ => true
  | .puntPop _ => true
  | .mtxGo _ => true
  | .mgmtTxStart _ => true
  | .linkChange _ _ _ => true
  | .rxIdle _ _ => true
  | .egressResult _ _ => true
  | .twinWaitExpiry _ _ _ => true
  | .unavailPeriod _ _ => true
  | .grpModeWrite _ _ _ => true
  | .timSet _ => true
  | .timAdj _ => true
  | .ppsPulse _ _ => true
  | .ppsHoldover => true
  | .jhlFrameReceive _ _ _ _ _ => true
  | .replayTimeout _ _ => true
  | .jhlLinkDown _ _ => true
  | .jhlTrained _ _ _ _ _ => true
  | .jhlFail _ _ => true
  | .jhlRetrain _ _ => true
  | .heartbeatSend _ _ => true
  | .jhlPeerLost _ _ => true
  | .tunnelRwrite p => bodyRwrite p && isBlock p.dest && blockCode p == 5
  | .tunnelPsig p => bodyPsigHi p && isBlock p.dest && blockCode p == 5
  | .tunnelConnect p => bodyConnect p && isBlock p.dest && blockCode p == 5
  | .tunnelChannelFlit p => bodyChan p && isBlock p.dest && blockCode p == 5
  | .tunnelCret _ _ => true
  | .jhlRemoteNak p => bodyNak p && isBlock p.dest && blockCode p == 5
  | .reduceTrigger p => bodyPsigLo p && isBlock p.dest && blockCode p == 5
  | .reduceStart _ _ => true
  | .reduceSegment _ => true
  | .bcastSegment _ => true
  | .barReadTimeout _ => true
  | .apertureRead _ addr len => inAperture addr len
  | .apertureWrite _ addr data => inAperture addr data.length
  | .dmaNop _ _ _ => true
  | .dmaHostToTier _ _ _ _ _ => true
  | .dmaTierToHost _ _ _ _ => true
  | .dqEnable _ _ _ => true
  | .apEntryWrite _ _ => true
  | .makeHome _ => true
  | .pcieLinkDown _ _ => true
  | .flr _ => true
  | .powerOn => true
  | .configStart => true
  | .sectionTimeout _ => true
  | .fabricStart => true
  | .doneWait => true
  | .rcvGo _ _ => true
  | .releaseDone => true
  | .flashWrite _ _ _ _ => true
  | .autostartLoad => true
  | .regWrite p => bodyRegWrite p
  | .regRead p => bodyRegRead p
  | .readReply p => bodyReadReply p
  | .bcast p => bodyBcast p && isBlock p.dest && blockCode p == 8
  | .bcastDone p => bodyBcastDone p
  | .loadOrder p => bodyLoadOrder p && !isBlock p.dest
  | .loadDone p => bodyLoadDone p && isBlock p.dest && blockCode p == 8
  | .saveOrder p => bodySaveOrder p && !isBlock p.dest
  | .saveDone p => bodySaveDone p && isBlock p.dest && blockCode p == 8
  | .report _ => true
  | .masonMessage p => bodyMason p
  | .bayLoadStart _ => true
  | .memberRecovery _ _ _ => true
  | .survivorHeld _ _ _ => true
  | .bayRebuild _ _ => true
  | .courseShift _ _ => true
  | .courseCmdRetire _ _ => true
  | .freezeSet _ => true
  | .freezeClear _ => true
  | .softReset _ => true
  | .pageSoftReset _ => true
  | .resume _ _ => true
  | .flush _ _ => true
  | .perfClear _ => true
  | .dbgRead _ => true
  | .dbgWrite _ => true
  | .jctrlRun _ => true
  | .jctrlHalt _ => true
  | .jctrlStep _ => true
  | .jbankArm _ => true
  | .jbankDisarm _ => true
  | .jregDataWrite _ _ => true
  | .pegSigWrite _ _ => true
  | .pegValueWrite _ _ _ => true
  | .pegWatchdog _ _ => true
  | .winCfgWrite _ _ _ => true
  | .winRingWrite _ _ _ => true
  | .doOpen _ _ => true
  | .doClose _ _ => true
  | .epCfgWrite _ _ _ => true
  | .intForce _ _ => true
  | .registerWrite _ _ _ _ _ => true
  | .smbSetOffset _ => true
  | .smbRead => true
  | .smbWrite _ => true
  | .bypass => true
  | .idcode => true
  | .samplePreload _ => true
  | .extest _ => true
  | .trst => true
  | .pinGlitch _ => true
  | .pinChatter _ => true
  | .chatterClear _ _ => true
  | .pinStuck _ => true
  | .cageInsert _ => true
  | .cageRemove _ => true
  | .resetNAssert => true
  | .resetNRelease => true
  | .moduleReset => true
  | .fabricReset => true
  | .perstRelease _ => true
  | .feedLoss _ _ => true
  | .supplyCollapse => true
  | .converterRestart => true
  | .capTick _ => true
  | .trimChange _ => true
  | .thermalSample _ temp _ => decide (temp < 1024)
  | .thermalTrimTick _ => true
  | .thermTrip _ => true
  | .cureRequest => true
  | .wakeNEdge => true
  | .wakeFrame _ _ _ => true
  | .hostWake => true
  | .timerWake => true
  | .fclkPllUnlock _ => true
  | .memclkPllUnlock _ _ => true
  | .mclkPllUnlock => true
  | .tclkPllUnlock => true
  | .tclkRelock => true
  | .pclkPllUnlock _ => true
  | .fuseAdvance _ target => decide (target < 128)
  | .fuseStep => true
  | .fuseRevoke _ slot => decide (slot < 4)
  | .registerRead _ _ _ _ => true
  | .frameTransmit _ _ => true
  | .tierTrainingDone => true
  | .pcieLinkUp _ _ _ _ => true
  | .pcieConfigRequest _ _ => true
  | .mclkRelock => true
  | .feedReturn _ _ => true
  | .wakeNRelease => true
  | .slewComplete => true
  | .tripHoldExpiry => true
  | .smbClockLowTimeout => true

/-- A well-formed command of a part. -/
def Instr.wellFormed (part : Part) (c : Instr) : Bool := c.onPart part && c.shaped

end Sys2Proof
end

