-- ==== Sys2Proof/Safety.lean ====
section
/-! DEFINITION. The terms in which claims are made: what a safe answer is, when a Joiner's or an engine's turn has come, what
the queue and the memories look like in every state. -/

namespace Sys2Proof.Machine

/-- An outcome that is a next state. -/
def Answers (o : Host.Outcome State Fault Refusal) : Prop := ∃ t, o = .next t

/-! ### Memories in canonical form -/

def Ashlar.memsWf (v : Ashlar) : Bool := memWf v.joiner.dmem && memWf v.joiner.bank0 && memWf v.joiner.bank1 && memWf v.spad

def Die.memsWf (d : Die) : Bool := d.tiers.toList.all memWf && memWf d.egr.store

/-- Every byte memory of the module is in canonical form. -/
def State.memsWf (s : State) : Bool := s.ashlars.all (fun e => e.2.memsWf) && s.dies.toList.all fun d => d.memsWf

/-! ### Turns -/

/-- An ashlar of the part on a die whose fabric runs and is clocked. -/
structure AshRuns (s : State) (a : Ash) : Prop where
  onPart : ashExists s a = true
  awake : dieAsleep s a.die = false

/-- A die of the part whose fabric runs and is clocked. -/
structure DieRuns (s : State) (d : Nat) : Prop where
  onPart : d < s.part.dies
  awake : dieAsleep s d = false

/-- The state in which a fetched instruction has its effect: a corrected fetch has been counted (R51). -/
def fetched (s : State) (a : Ash) (corrected : Bool) : State := if corrected then s.countErr (.ash a) else s

/-- The turn of the instruction with word w at an ashlar's Joiner: it has been fetched, no trap is held, and no register
that it reads or writes is pending (R108, R109, R134). -/
structure Turn (s : State) (a : Ash) (w : Word) (uses : List Reg) (corrected : Bool) : Prop where
  runs : AshRuns s a
  fetch : fetch (s.ash a) = .word w corrected
  legal : jLegal w = true
  held : (s.ash a).joiner.held = []
  free : (uses.any fun r => (s.ash a).joiner.isPending r) = false

/-- The instruction with word w at an ashlar's Joiner has been fetched and waits for a pending register (R108, R109). -/
structure Blocked (s : State) (a : Ash) (w : Word) (uses : List Reg) (corrected : Bool) : Prop where
  runs : AshRuns s a
  fetch : fetch (s.ash a) = .word w corrected
  legal : jLegal w = true
  held : (s.ash a).joiner.held = []
  waits : (uses.any fun r => (s.ash a).joiner.isPending r) = true

/-- An ashlar's Joiner stalled under a code of JSTATUS.STALL (R142). -/
def stalledAt (s : State) (a : Ash) (code : BitVec 4) : State :=
  s.onJ a fun j => { j with state := .stalled, stall := code }

/-- The head of an engine starts now (R60, R63, R65): it is `i`, it can have its slots, and its waits hold in its turn. -/
structure Starts (s : State) (a : Ash) (e : Engine) (i : EngInstr) : Prop where
  runs : AshRuns s a
  engine : i.engine = e
  head : headOf (s.ash a) e = some i
  slots : ringOverflow (s.ash a) i = false
  now : startable (s.ash a) e = some i

/-- The state in which a started instruction does its work (R60, R374). -/
def startedState (s : State) (a : Ash) (i : EngInstr) : State := s.setAsh a (startIn (s.ash a) i)

/-- The vector commands but for OPTUPD, each with the opcode and the FUNC of its instructions (R233). -/
def vecCommands (a : Ash) : List (Instr × Nat × Nat) :=
  [(.vecAdd a, 0x01, 0), (.vecSub a, 0x02, 0), (.vecMul a, 0x03, 0), (.vecFma a, 0x04, 0), (.vecMin a, 0x05, 0),
   (.vecMax a, 0x06, 0), (.vecAbs a, 0x07, 0), (.vecNeg a, 0x08, 0), (.cpsgn a, 0x09, 0), (.cvt a, 0x0A, 0),
   (.sel a, 0x0B, 0)] ++
  [(.cmpLt a, 0x0C, 0), (.cmpLe a, 0x0C, 1), (.cmpEq a, 0x0C, 2), (.cmpNe a, 0x0C, 3), (.cmpGt a, 0x0C, 4),
   (.cmpGe a, 0x0C, 5)] ++
  [(.fnExp a, 0x0D, 0), (.fnExp2 a, 0x0D, 1), (.fnLn a, 0x0D, 2), (.fnLog2 a, 0x0D, 3), (.fnRecip a, 0x0D, 4),
   (.fnSqrt a, 0x0D, 5), (.fnRsqrt a, 0x0D, 6), (.fnTanh a, 0x0D, 7), (.fnSigmoid a, 0x0D, 8), (.fnSilu a, 0x0D, 9),
   (.fnGelu a, 0x0D, 10), (.fnSoftplus a, 0x0D, 11)] ++
  [(.vecAnd a, 0x0E, 0), (.vecOr a, 0x0F, 0), (.vecXor a, 0x10, 0), (.shl a, 0x11, 0), (.shr a, 0x12, 0),
   (.vecSra a, 0x13, 0)] ++
  [(.rsum a, 0x18, 0), (.rssq a, 0x19, 0), (.rmax a, 0x1A, 0), (.rmin a, 0x1B, 0), (.ramax a, 0x1C, 0),
   (.compress a, 0x20, 0), (.expand a, 0x21, 0), (.mload a, 0x24, 0), (.mstore a, 0x25, 0)] ++
  [(.mlogicAnd a, 0x26, 0), (.mlogicOr a, 0x26, 1), (.mlogicXor a, 0x26, 2), (.mlogicAndn a, 0x26, 3),
   (.mlogicNot a, 0x26, 4), (.mlogicSet a, 0x26, 5), (.mlogicClear a, 0x26, 6)]

/-- The OPTUPD commands, each with its RULE (R251). -/
def optCommands (a : Ash) : List (Instr × Nat) :=
  [(.optupdSgd a, 0), (.optupdMomentum a, 1), (.optupdNesterov a, 2), (.optupdAdamw a, 3), (.optupdLion a, 4),
   (.optupdAdagrad a, 5)]

/-! ### Packets -/

/-- A clean packet reaches its ashlar: the ashlar is there, every lintel on its way is up, no fence keeps it out. -/
structure Arrives (s : State) (p : Packet) (a : Ash) : Prop where
  dest : ashOf s p.dest = some a
  route : routeUp s p = true
  open_ : fencedOff s p = false
  clean : p.poisoned = false

/-- A clean packet reaches a block of the part. -/
structure ArrivesBlock (s : State) (p : Packet) (code die inst : Nat) : Prop where
  block : isBlock p.dest = true
  code : blockOf p.dest = (code, die, inst)
  onPart : blockExists s.part p.dest = true
  route : routeUp s p = true
  clean : p.poisoned = false

/-- A clean packet reaches a memory controller, or its Plane. -/
structure ArrivesTier (s : State) (p : Packet) (die : Nat) (c : Ctl) : Prop where
  target : tierTarget s p = some (die, c)
  route : routeUp s p = true
  clean : p.poisoned = false

/-- The always-on blocks watch the socket of a die of the part. -/
structure Watched (s : State) (d : Nat) : Prop where
  onPart : d < s.part.dies
  power : powered s = true
  notHeld : dieHeld s d = false

/-- A Jeham or Ethernet port of a die whose fabric runs; Curing does not stop it (R565, R648). -/
structure PortRuns (s : State) (d k : Nat) : Prop where
  onPart : d < s.part.dies
  port : k < 2
  runs : (s.die d).run = .running

/-- A queue of an endpoint of the part executes the descriptor at its head (R571, R572). -/
structure DmaRuns (s : State) (k q : Nat) (d : DmaDesc) (opcode : Nat) : Prop where
  endpoint : k < 2
  queue : q < 16
  ready : (s.dq k q).ready = true
  host : hostUp s k = true
  power : powered s = true
  awake : s.pstate ≠ .curing
  opcode : d.opcode.toNat = opcode
  clean : d.spare = false

/-! ### Host commands -/

/-- The Mason takes a command of its queue that names an opcode and has every unused byte 0 (R495, R496). -/
structure Taken (s : State) (c : HostCmd) (opcode : Nat) : Prop where
  fetches : fetches s = true
  opcode : c.opcode.toNat = opcode
  clean : c.spare = false
  awake : awake s = true

end Sys2Proof.Machine
end

