-- ==== Sys2Proof/Certificates/Slice0/Obligations.lean ====
section
/-! DEFINITION. The statements for the provers. -/

open Sys2Proof Sys2Proof.Machine

/-! ### The Joiner -/

/-- R102: an ALU-group instruction whose turn has come writes the result of its FUNC to rd and retires to the next
instruction, which is `JoinerSequence`; nothing else changes. While a register it reads or writes is pending it stalls
(R108).

R101, R102, R104: an instruction of one register and an immediate, LUI, FCVTI or FCVTF, whose turn has come, writes
its result to rd and retires; it stalls in the same way. -/
def Obligations.JoinerAlu : Prop :=
  (∀ (s : State) (a : Ash) (rd rs1 rs2 : Reg) (c : Bool),
     let t := fetched s a c
     let x := t.jr a rs1
     let y := t.jr a rs2
     let gives := fun (i : Instr) (func : Nat) (v : Word) =>
       (Turn s a (encAlu func rd rs1 rs2) [rd, rs1, rs2] c →
           exec i s = .next (retire (t.onJ a fun j => j.wr rd v) a .seq)) ∧
         (Blocked s a (encAlu func rd rs1 rs2) [rd, rs1, rs2] c → exec i s = .next (stalledAt t a 1))
     gives (.add a rd rs1 rs2) 0x00 (x + y) ∧
     gives (.sub a rd rs1 rs2) 0x01 (x - y) ∧
     gives (.and a rd rs1 rs2) 0x02 (x &&& y) ∧
     gives (.or a rd rs1 rs2) 0x03 (x ||| y) ∧
     gives (.xor a rd rs1 rs2) 0x04 (x ^^^ y) ∧
     gives (.sll a rd rs1 rs2) 0x05 (x <<< (y.toNat % 32)) ∧
     gives (.srl a rd rs1 rs2) 0x06 (x >>> (y.toNat % 32)) ∧
     gives (.sra a rd rs1 rs2) 0x07 (x.sshiftRight (y.toNat % 32)) ∧
     gives (.slt a rd rs1 rs2) 0x08 (if x.toInt < y.toInt then 1 else 0) ∧
     gives (.sltu a rd rs1 rs2) 0x09 (if x.toNat < y.toNat then 1 else 0) ∧
     gives (.min a rd rs1 rs2) 0x0A (if x.toInt < y.toInt then x else y) ∧
     gives (.max a rd rs1 rs2) 0x0B (if x.toInt < y.toInt then y else x) ∧
     gives (.minu a rd rs1 rs2) 0x0C (if x.toNat < y.toNat then x else y) ∧
     gives (.maxu a rd rs1 rs2) 0x0D (if x.toNat < y.toNat then y else x) ∧
     gives (.mul a rd rs1 rs2) 0x10 (BitVec.ofNat 32 (x.toNat * y.toNat)) ∧
     gives (.mulhu a rd rs1 rs2) 0x11 (BitVec.ofNat 32 (x.toNat * y.toNat / 2 ^ 32)) ∧
     gives (.mulh a rd rs1 rs2) 0x12 (BitVec.ofInt 32 (x.toInt * y.toInt / 2 ^ 32)) ∧
     gives (.flt a rd rs1 rs2) 0x20 (if Val.lt (fp32 x) (fp32 y) then 1 else 0) ∧
     gives (.fle a rd rs1 rs2) 0x21 (if Val.le (fp32 x) (fp32 y) then 1 else 0) ∧
     gives (.feq a rd rs1 rs2) 0x22 (if Val.eq (fp32 x) (fp32 y) then 1 else 0)) ∧
  (∀ (s : State) (a : Ash) (rd rs1 : Reg) (imm : Half) (sh : BitVec 5) (c : Bool),
     let t := fetched s a c
     let x := t.jr a rs1
     let gives := fun (i : Instr) (w : Word) (uses : List Reg) (v : Word) =>
       (Turn s a w uses c → exec i s = .next (retire (t.onJ a fun j => j.wr rd v) a .seq)) ∧
         (Blocked s a w uses c → exec i s = .next (stalledAt t a 1))
     gives (.addi a rd rs1 imm) (encI 0x01 rd rs1 imm) [rd, rs1] (x + imm.signExtend 32) ∧
     gives (.andi a rd rs1 imm) (encI 0x02 rd rs1 imm) [rd, rs1] (x &&& imm.zeroExtend 32) ∧
     gives (.ori a rd rs1 imm) (encI 0x03 rd rs1 imm) [rd, rs1] (x ||| imm.zeroExtend 32) ∧
     gives (.xori a rd rs1 imm) (encI 0x04 rd rs1 imm) [rd, rs1] (x ^^^ imm.zeroExtend 32) ∧
     gives (.slli a rd rs1 sh) (encShift 0x05 rd rs1 sh) [rd, rs1] (x <<< sh.toNat) ∧
     gives (.srli a rd rs1 sh) (encShift 0x06 rd rs1 sh) [rd, rs1] (x >>> sh.toNat) ∧
     gives (.srai a rd rs1 sh) (encShift 0x07 rd rs1 sh) [rd, rs1] (x.sshiftRight sh.toNat) ∧
     gives (.slti a rd rs1 imm) (encI 0x08 rd rs1 imm) [rd, rs1] (if x.toInt < imm.toInt then 1 else 0) ∧
     gives (.sltiu a rd rs1 imm) (encI 0x09 rd rs1 imm) [rd, rs1]
       (if x.toNat < (imm.signExtend 32).toNat then 1 else 0) ∧
     gives (.lui a rd imm) (encI 0x0A rd 0 imm) [rd] (BitVec.ofNat 32 (imm.toNat * 2 ^ 16)) ∧
     gives (.fcvti a rd rs1) (encAlu 0x23 rd rs1 0) [rd, rs1] (fcvtiWord x) ∧
     gives (.fcvtf a rd rs1) (encAlu 0x24 rd rs1 0) [rd, rs1] (rne32Code (Val.ofInt x.toInt)))

/-- R105: a load from an aligned address of data memory whose half can be read writes the bytes there to rd, extended as
its instruction says; a corrected half is counted.

R105: a store to an aligned address of data memory writes its half with fresh check bits: SW all of it, SH and SB the
bytes named, the rest as it was read.

R105, R133: a load or store beyond data memory traps with DMEM_RANGE, one inside it that is not aligned with
DMEM_ALIGN, and a load, or a store of part, of an uncorrectable half with DMEM_ECC; the value is the 32-bit sum. -/
def Obligations.JoinerMemory : Prop :=
  (∀ (s : State) (a : Ash) (rd rs1 : Reg) (imm : Half) (c : Bool) (h : Word) (e : Ecc),
     let t := fetched s a c
     let x := (t.jr a rs1 + imm.signExtend 32).toNat
     let u := if e = .clean then t else t.countErr (.ash a)
     readHalf (t.ash a).joiner.dmem (x / 4) = (h, e) → e ≠ .ue → x ≤ 0xFFF →
     let gives := fun (i : Instr) (opc n : Nat) (v : Word) =>
       Turn s a (encI opc rd rs1 imm) [rd, rs1] c → x % n = 0 → exec i s = .next (retire (u.onJ a fun j => j.wr rd v) a .seq)
     let byte := BitVec.ofNat 8 (h.toNat / 2 ^ (8 * (x % 4)))
     let half := BitVec.ofNat 16 (h.toNat / 2 ^ (8 * (x % 4)))
     gives (.lw a rd rs1 imm) 0x10 4 h ∧
     gives (.lh a rd rs1 imm) 0x11 2 (half.signExtend 32) ∧
     gives (.lhu a rd rs1 imm) 0x12 2 (half.zeroExtend 32) ∧
     gives (.lb a rd rs1 imm) 0x13 1 (byte.signExtend 32) ∧
     gives (.lbu a rd rs1 imm) 0x14 1 (byte.zeroExtend 32)) ∧
  (∀ (s : State) (a : Ash) (rs2 rs1 : Reg) (imm : Half) (c : Bool) (h : Word) (e : Ecc),
     let t := fetched s a c
     let x := (t.jr a rs1 + imm.signExtend 32).toNat
     let y := (t.jr a rs2).toNat
     let u := if e = .clean then t else t.countErr (.ash a)
     readHalf (t.ash a).joiner.dmem (x / 4) = (h, e) → x ≤ 0xFFF →
     (Turn s a (encI 0x15 rs2 rs1 imm) [rs1, rs2] c → x % 4 = 0 →
       exec (.sw a rs2 rs1 imm) s = .next (retire (dmemStore t a (x / 4) y) a .seq)) ∧
     (Turn s a (encI 0x16 rs2 rs1 imm) [rs1, rs2] c → x % 2 = 0 → e ≠ .ue →
       exec (.sh a rs2 rs1 imm) s = .next (retire (dmemStore u a (x / 4) (mergeHalf h x 2 y)) a .seq)) ∧
     (Turn s a (encI 0x17 rs2 rs1 imm) [rs1, rs2] c → e ≠ .ue →
       exec (.sb a rs2 rs1 imm) s = .next (retire (dmemStore u a (x / 4) (mergeHalf h x 1 y)) a .seq))) ∧
  (∀ (s : State) (a : Ash) (r rs1 : Reg) (imm : Half) (c : Bool),
     let t := fetched s a c
     let sum := t.jr a rs1 + imm.signExtend 32
     let x := sum.toNat
     let traps := fun (i : Instr) (opc : Nat) (uses : List Reg) (cause : Byte) =>
       Turn s a (encI opc r rs1 imm) uses c → exec i s = .next (jTrap t a cause sum)
     (0xFFF < x → traps (.lw a r rs1 imm) 0x10 [r, rs1] 4 ∧ traps (.lh a r rs1 imm) 0x11 [r, rs1] 4 ∧
       traps (.lhu a r rs1 imm) 0x12 [r, rs1] 4 ∧ traps (.lb a r rs1 imm) 0x13 [r, rs1] 4 ∧
       traps (.lbu a r rs1 imm) 0x14 [r, rs1] 4 ∧ traps (.sw a r rs1 imm) 0x15 [rs1, r] 4 ∧
       traps (.sh a r rs1 imm) 0x16 [rs1, r] 4 ∧ traps (.sb a r rs1 imm) 0x17 [rs1, r] 4) ∧
     (x ≤ 0xFFF → x % 4 ≠ 0 → traps (.lw a r rs1 imm) 0x10 [r, rs1] 3 ∧ traps (.sw a r rs1 imm) 0x15 [rs1, r] 3) ∧
     (x ≤ 0xFFF → x % 2 ≠ 0 → traps (.lh a r rs1 imm) 0x11 [r, rs1] 3 ∧ traps (.lhu a r rs1 imm) 0x12 [r, rs1] 3 ∧
       traps (.sh a r rs1 imm) 0x16 [rs1, r] 3) ∧
     (x ≤ 0xFFF → (readHalf (t.ash a).joiner.dmem (x / 4)).2 = .ue →
       (x % 4 = 0 → traps (.lw a r rs1 imm) 0x10 [r, rs1] 5) ∧
       (x % 2 = 0 → traps (.lh a r rs1 imm) 0x11 [r, rs1] 5 ∧ traps (.lhu a r rs1 imm) 0x12 [r, rs1] 5 ∧
         traps (.sh a r rs1 imm) 0x16 [rs1, r] 5) ∧
       traps (.lb a r rs1 imm) 0x13 [r, rs1] 5 ∧ traps (.lbu a r rs1 imm) 0x14 [r, rs1] 5 ∧
       traps (.sb a r rs1 imm) 0x17 [rs1, r] 5))

/-- R106, R123: a branch goes to PC + off16 where its condition holds, leaving the loop bodies that the target leaves, and
on to the next instruction where it does not; a taken branch outside 0 to 2,047 traps with BAD_TARGET.

R106: JAL and JALR write PC + 1 to rd and go to their target, read before rd is written; a target outside 0 to 2,047
traps and writes nothing. -/
def Obligations.JoinerFlow : Prop :=
  (∀ (s : State) (a : Ash) (rs1 rs2 : Reg) (ep : BitVec 3) (off : Half) (c : Bool),
     let t := fetched s a c
     let x := t.jr a rs1
     let y := t.jr a rs2
     let goal := (t.ash a).joiner.pc.zeroExtend 32 + off.signExtend 32
     let held := epCount (t.ash a) ep.toNat
     let goes := fun (i : Instr) (w : Word) (uses : List Reg) (taken : Prop) =>
       Turn s a w uses c →
         (¬ taken → exec i s = .next (retire t a .seq)) ∧
         (taken → goal.toNat ≤ 2047 → exec i s = .next (retire t a (.jump (BitVec.ofNat 11 goal.toNat)))) ∧
         (taken → 2047 < goal.toNat → exec i s = .next (jTrap t a 0x02 goal))
     goes (.beq a rs1 rs2 off) (encI 0x18 rs1 rs2 off) [rs1, rs2] (x = y) ∧
     goes (.bne a rs1 rs2 off) (encI 0x19 rs1 rs2 off) [rs1, rs2] (x ≠ y) ∧
     goes (.blt a rs1 rs2 off) (encI 0x1A rs1 rs2 off) [rs1, rs2] (x.toInt < y.toInt) ∧
     goes (.bge a rs1 rs2 off) (encI 0x1B rs1 rs2 off) [rs1, rs2] (y.toInt ≤ x.toInt) ∧
     goes (.bltu a rs1 rs2 off) (encI 0x1C rs1 rs2 off) [rs1, rs2] (x.toNat < y.toNat) ∧
     goes (.bgeu a rs1 rs2 off) (encI 0x1D rs1 rs2 off) [rs1, rs2] (y.toNat ≤ x.toNat) ∧
     goes (.bepe a ep off) (encBep 0x32 ep off) [] (held = 0) ∧
     goes (.bepne a ep off) (encBep 0x33 ep off) [] (held ≠ 0)) ∧
  (∀ (s : State) (a : Ash) (rd rs1 : Reg) (imm : Half) (c : Bool),
     let t := fetched s a c
     let link := BitVec.ofNat 32 ((t.ash a).joiner.pc.toNat + 1)
     let goes := fun (i : Instr) (w : Word) (uses : List Reg) (goal : Word) =>
       Turn s a w uses c →
         (goal.toNat ≤ 2047 →
           exec i s = .next (retire (t.onJ a fun j => j.wr rd link) a (.jump (BitVec.ofNat 11 goal.toNat)))) ∧
         (2047 < goal.toNat → exec i s = .next (jTrap t a 0x02 goal))
     goes (.jal a rd imm) (encI 0x1E rd 0 imm) [rd] ((t.ash a).joiner.pc.zeroExtend 32 + imm.signExtend 32) ∧
     goes (.jalr a rd rs1 imm) (encI 0x1F rd rs1 imm) [rd, rs1] (t.jr a rs1 + imm.signExtend 32))

/-- R97: a register reads what was last written to it, register 0 reads 0 and takes no write, and a write leaves the other
registers alone.

R106, R115: an instruction that retires in sequence, with no loop level ending at it, leaves its ashlar's Joiner at
the next instruction, running, or halted where it was stepped (R141); at 2,047 it traps with BAD_TARGET instead.

R115: an instruction that retires at the end of the innermost loop body with passes left goes back to the first
instruction of the body, its index one higher; with none left the level is gone. -/
def Obligations.JoinerSequence : Prop :=
  (∀ (j : Joiner) (r q : Reg) (x : Word),
     j.rd 0 = 0 ∧ j.wr 0 x = j ∧ (r ≠ 0 → (j.wr r x).rd r = x) ∧ (q ≠ r → (j.wr r x).rd q = j.rd q)) ∧
  (∀ (s : State) (a : Ash),
     let j := (s.ash a).joiner
     (j.handler = true ∨ (loopEnd j.loops j.pc.toNat j.depth).2.2 = none ∧ (loopEnd j.loops j.pc.toNat j.depth).1 = j.loops ∧
         (loopEnd j.loops j.pc.toNat j.depth).2.1 = j.depth) →
       (j.pc.toNat < 2047 → retire s a .seq = s.onJ a fun j => { j with
         pc := j.pc + 1, state := if j.step then .halted else .running, step := false, stall := 0, bkptPass := false }) ∧
       (j.pc.toNat = 2047 → ((retire s a .seq).ash a).joiner = j.trap 0x02 2048 2047)) ∧
  (∀ (s : State) (a : Ash) (d : Nat) (l : LoopLevel),
     let j := (s.ash a).joiner
     j.handler = false → j.depth = d + 1 → d < 4 → l = j.loops[ix 4 d (by decide)] → j.pc = l.lend →
       (l.lidx.toNat + 1 < l.lcnt.toNat → retire s a .seq = s.onJ a fun j => Joiner.goOn { j with
         loops := j.loops.set (ix 4 d (by decide)) { l with lidx := l.lidx + 1 }, pc := l.lstart }) ∧
       (l.lcnt.toNat ≤ l.lidx.toNat + 1 → d = 0 → j.pc.toNat < 2047 → retire s a .seq = s.onJ a fun j => Joiner.goOn { j with
         depth := 0, pc := j.pc + 1 }))

/-- R115, R117: a loop instruction outside the handler, with a level free and its body inside instruction memory and the
enclosing body, enters its body with a new level, or passes over it where its count is 0; LOOPT takes the smaller of
rs1 and the tiles of 2^TLOG2 that are left from rs2. -/
def Obligations.JoinerLoops : Prop :=
  ∀ (s : State) (a : Ash) (rs2 rs1 : Reg) (n : BitVec 12) (alsel : BitVec 2) (tlog2 : BitVec 5) (body : Byte) (c : Bool),
    let t := fetched s a c
    let j := (t.ash a).joiner
    let first := j.pc.toNat + 1
    let last := j.pc.toNat + if body = 0 then 256 else body.toNat
    let top := j.loops[ix 4 (j.depth - 1) (by decide)]
    j.depth < 4 → last ≤ 2047 → j.handler = false →
    (0 < j.depth → top.lstart.toNat ≤ first ∧ last ≤ top.lend.toNat) →
    let goes := fun (i : Instr) (w : Word) (uses : List Reg) (count : Word) (tile : Bool) (lg : BitVec 5) (rem : Word) =>
      Turn s a w uses c →
        (count = 0 → exec i s = .next (retire t a (.skip last))) ∧
        (count ≠ 0 → exec i s = .next (retire
          (t.onJ a fun j => { j.onLevel j.depth (fun _ => ⟨BitVec.ofNat 11 first, BitVec.ofNat 11 last, count, 0, tile, lg, rem⟩)
            with depth := j.depth + 1 }) a (.loop (BitVec.ofNat 11 first))))
    let left := j.al[alsel.toFin].toNat - (t.jr a rs2).toNat
    let tiles := (left + 2 ^ tlog2.toNat - 1) / 2 ^ tlog2.toNat
    goes (.loop a rs1 body) (encLoop rs1 body) [rs1] (t.jr a rs1) false 0 0 ∧
    goes (.loopi a n body) (encLoopi n body) [] (n.zeroExtend 32) false 0 0 ∧
    goes (.loopt a rs2 rs1 alsel tlog2 body) (encLoopt rs2 rs1 alsel tlog2 body) [rs1, rs2]
      (BitVec.ofNat 32 (min (t.jr a rs1).toNat tiles)) true tlog2 (BitVec.ofNat 32 left)

/-- R119 to R122: PSIG adds INC to its peg; PWAIT retires where its wait holds in its turn and takes what it takes; PTEST
and PRD only read; PFADD to an existing destination sends the request, and rd is pending until the answer. -/
def Obligations.JoinerPegs : Prop :=
  ∀ (s : State) (a : Ash) (rd rs1 rs2 : Reg) (inc : Byte) (mode : BitVec 2) (peg : BitVec 6) (c : Bool),
    let t := fetched s a c
    let v := t.ash a
    let x := t.jr a rs1
    let th := bits x 0 16
    let w : Wait := ⟨mode == 1, peg.toNat, th, false⟩
    peg.toNat < 48 →
    (Turn s a (encPsig inc peg) [] c → inc ≠ 0 →
      exec (.psig a inc peg) s = .next (retire (t.signal a peg.toNat (inc.zeroExtend 16) 2 0) a .seq)) ∧
    (Turn s a (encPwait rs1 mode peg) [rs1] c → mode = 2 ∨ mode = 1 ∧ 0 < th ∧ th ≤ 0x7FFF →
      (passes v [w] 4 = true →
        exec (.pwait a rs1 mode peg) s = .next (retire (t.onAsh a fun v => clearDog (passWaiter v [w] 4) 4) a .seq) ∧
        ∃ u, exec (.pwait a rs1 mode peg) s = .next u ∧
          (engCandidates v = [] → v.won = [] →
            ((u.ash a).peg peg.toNat).value = (v.peg peg.toNat).value - (if mode = 1 then BitVec.ofNat 16 th else 0))) ∧
      (passes v [w] 4 = false → exec (.pwait a rs1 mode peg) s = .next (stalledAt t a 3))) ∧
    (Turn s a (encPtest rd rs1 peg) [rd, rs1] c →
      exec (.ptest a rd rs1 peg) s = .next (retire (t.onJ a fun j =>
        j.wr rd (if holds (v.peg peg.toNat).value.toNat th then 1 else 0)) a .seq)) ∧
    (Turn s a (encPrd rd peg) [rd] c →
      exec (.prd a rd peg) s = .next (retire (t.onJ a fun j => j.wr rd ((v.peg peg.toNat).value.zeroExtend 32)) a .seq)) ∧
    (∀ d, Turn s a (encR 0x2C rd rs1 rs2 0) [rd, rs1, rs2] c → targetBroken x = false → targetDest v x = some d →
      destMissing t d = false →
      exec (.pfadd a rd rs1 rs2) s = .next (retire ((t.onJ a fun j => { j.setPending rd with
          fadds := j.fadds ++ [(rd, BitVec.ofNat 6 (bits x 0 6), d, x)] }).send
        (ashPacket t a d (.fadd (BitVec.ofNat 6 (bits x 0 6)) (BitVec.ofNat 16 (bits (t.jr a rs2) 0 16)) v.job))) a .seq))

/-- R124: EPRD reads a word of the head of an endpoint that holds something, EPPOP releases the head and returns its
credit; at an empty endpoint both trap with EP_EMPTY.

R127: CSRR reads a listed register; CSRW writes ALn, EPC and HSCRATCH; an index that is not listed, or not writable,
traps with ILLEGAL. -/
def Obligations.JoinerReads : Prop :=
  (∀ (s : State) (a : Ash) (rd : Reg) (word : BitVec 2) (ep : BitVec 3) (c : Bool),
     let t := fetched s a c
     let v := t.ash a
     (Turn s a (encEprd rd word ep) [rd] c →
       (0 < epCount v ep.toNat → exec (.eprd a rd word ep) s =
         .next (retire (t.onJ a fun j => j.wr rd (epWord v ep.toNat word.toNat)) a .seq)) ∧
       (epCount v ep.toNat = 0 → exec (.eprd a rd word ep) s = .next (jTrap t a 0x06 (ep.zeroExtend 32)))) ∧
     (Turn s a (encEppop ep) [] c →
       (0 < epCount v ep.toNat → ringInUse v ep.toNat = false →
         exec (.eppop a ep) s = .next (retire (popEndpoint t a ep.toNat) a .seq)) ∧
       (epCount v ep.toNat = 0 → exec (.eppop a ep) s = .next (jTrap t a 0x06 (ep.zeroExtend 32)))) ∧
     (∀ f r, (v.ep ep.toNat).ring = false → (v.ep ep.toNat).flits = f :: r →
       (∀ k, epWord v ep.toNat k = if (v.ep ep.toNat).tlen.toNat < k then 0 else BitVec.ofNat 32 (f.toNat / 2 ^ (32 * k))) ∧
       (((popEndpoint t a ep.toNat).ash a).ep ep.toNat).flits = r ∧
       ((v.ep ep.toNat).peerValid = true → (v.ep ep.toNat).closing = false → destMissing t (v.ep ep.toNat).peer = false →
         let vc := oldestVc v (v.ep ep.toNat).vcs
         ⟨if vc = 0 then 1 else vc, (v.ep ep.toNat).peer, ashDest t a, false, .cret (v.ep ep.toNat).pchan 1⟩ ∈
           (popEndpoint t a ep.toNat).sent) ∧
       (destMissing t (v.ep ep.toNat).peer = true → (popEndpoint t a ep.toNat).sent = t.sent))) ∧
  (∀ (s : State) (a : Ash) (r : Reg) (csr : Byte) (c : Bool),
     let t := fetched s a c
     let j := (t.ash a).joiner
     let x := t.jr a r
     (Turn s a (encCsrr r csr) [r] c →
       (∀ v, csrRead t a csr.toNat = some v → exec (.csrr a r csr) s = .next (retire (t.onJ a fun j => j.wr r v) a .seq)) ∧
       (csrRead t a csr.toNat = none → exec (.csrr a r csr) s = .next (jTrap t a 0x01 (encCsrr r csr)))) ∧
     (Turn s a (encCsrw r csr) [r] c →
       (csr = 0x30 → exec (.csrw a r csr) s = .next (retire (t.onJ a fun _ => { j with epc := BitVec.ofNat 11 x.toNat }) a .seq)) ∧
       (csr = 0x33 → exec (.csrw a r csr) s = .next (retire (t.onJ a fun _ => { j with hscratch := x }) a .seq)) ∧
       (0x10 ≤ csr.toNat → csr.toNat ≤ 0x13 → exec (.csrw a r csr) s =
         .next (retire (t.onJ a fun _ => { j with al := j.al.set (ix 4 (csr.toNat - 0x10) (by decide)) x }) a .seq)) ∧
       (csr ≠ 0x30 → csr ≠ 0x33 → csr.toNat < 0x10 ∨ 0x13 < csr.toNat →
         exec (.csrw a r csr) s = .next (jTrap t a 0x01 (encCsrw r csr)))))

/-- R125, R126, R128, R133, R137, R138: MSG posts its word for the Mason, or stalls while one is still posted; TEND and
FENCE retire once nothing is pending and the queues named are empty, and stall until then; HALT halts after retiring;
RETH goes back to EPC, and outside the handler traps; TRAP traps with its code.

R129, R138, R242, R247: a fetch at an armed breakpoint halts the Joiner before the instruction; the task boundary
after TEND takes an armed swap, puts PC at ENTRY and clears the mask buffers; a reduction's result reaches its
register. -/
def Obligations.JoinerEnds : Prop :=
  (∀ (s : State) (a : Ash) (rs1 : Reg) (mask : BitVec 4) (code : Half) (c : Bool),
     let t := fetched s a c
     let v := t.ash a
     let j := v.joiner
     let emptied := (mask.getLsbD 0 = true → engDepth v .matrix = 0) ∧ (mask.getLsbD 1 = true → engDepth v .vector = 0) ∧
       (mask.getLsbD 2 = true → engDepth v .stream = 0) ∧ (mask.getLsbD 3 = true → engDepth v .send = 0)
     (Turn s a (encI 0x38 0 rs1 0) [rs1] c →
       (j.msg = none → ∃ u, exec (.msg a rs1) s = .next u ∧ (u.ash a).joiner.msg = some (t.jr a rs1) ∧
         ⟨.ash a, ashDest t a, t.jr a rs1, v.job, false, t.time, 0⟩ ∈ u.reports) ∧
       (j.msg ≠ none → exec (.msg a rs1) s = .next (stalledAt t a 5))) ∧
     (Turn s a (encFence mask) [] c →
       (j.pending = 0 → emptied → exec (.fence a mask) s = .next (retire t a .seq)) ∧
       (j.pending ≠ 0 ∨ ¬ emptied → exec (.fence a mask) s = .next (stalledAt t a 4))) ∧
     (Turn s a (encI 0x39 0 0 0) [] c →
       (j.pending = 0 → exec (.tend a) s = .next (t.onJ a fun j => { j with
         depth := 0, state := .ended, taskEnd := true, step := false, stall := 0, bkptPass := false, pc := j.pc + 1 })) ∧
       (j.pending ≠ 0 → exec (.tend a) s = .next (stalledAt t a 6))) ∧
     (Turn s a (encI 0x3D 0 0 0) [] c → exec (.halt a) s = .next (retire t a .halt)) ∧
     (Turn s a (encI 0x3B 0 0 0) [] c →
       (j.handler = true →
         exec (.reth a) s = .next (t.onJ a fun j => Joiner.goOn { j with handler := false, pc := j.epc })) ∧
       (j.handler = false → exec (.reth a) s = .next (jTrap t a 0x01 (encI 0x3B 0 0 0)))) ∧
     (Turn s a (encI 0x3A 0 0 code) [] c → exec (.trap a code) s = .next (jTrap t a 0x0C (code.zeroExtend 32)))) ∧
  (∀ (s : State) (a : Ash) (rd : Reg) (x : Word), AshRuns s a →
     let v := s.ash a
     (fetch v = .breakpoint → ∃ u, exec (.breakpoint a) s = .next u ∧
       (u.ash a).joiner = { v.joiner with state := .halted, step := false, stall := 0, bkptPass := true }) ∧
     (v.joiner.taskEnd = true → v.joiner.state = .ended → atBoundary v = true → v.frozen = false →
       ∃ u, exec (.taskBoundary a) s = .next u ∧ u = s.onAsh a fun v => { v with
         masks := Vector.replicate 4 0
         joiner := { v.joiner with
           active := v.joiner.active != v.joiner.armed, armed := false, taskEnd := false, pc := v.joiner.entry,
           state := if v.joiner.autorun then .running else .ended } }) ∧
     (v.joiner.results = [(rd, x)] → exec (.reductionWrite a rd) s =
       .next (s.onJ a fun j => { (j.wr rd x).clearPending rd with results := [] })))

/-- The forms in which a Joiner instruction does not retire. R119 to R122: PSIG by 0, a peg of 48 or above, PWAIT in mode
0 or 3 or taking 0 or more than 0x7FFF, and PFADD to a broken target trap with ILLEGAL; PFADD to a missing destination
gets its refusal at once. R117: a loop instruction with no level free, past instruction memory, in the handler or
across the enclosing body traps with LOOP. R111, R113, R142: ISSUE stalls while a transfer waits and traps without a
context or at a bad address. R344: EPPOP of a ring in use stalls. -/
def Obligations.JoinerForms : Prop :=
  ∀ (s : State) (a : Ash) (rd rs1 rs2 : Reg) (n : BitVec 12) (alsel : BitVec 2) (tlog2 : BitVec 5) (body inc : Byte)
    (mode : BitVec 2) (peg : BitVec 6) (ep : BitVec 3) (widxA widxB : BitVec 4) (c : Bool),
    let t := fetched s a c
    let v := t.ash a
    let j := v.joiner
    let x := t.jr a rs1
    let th := bits x 0 16
    let pc := BitVec.ofNat 32 j.pc.toNat
    let traps := fun (i : Instr) (w : Word) (uses : List Reg) (cause : Byte) (val : Word) =>
      Turn s a w uses c → exec i s = .next (jTrap t a cause val)
    let stalls := fun (i : Instr) (w : Word) (uses : List Reg) (code : BitVec 4) =>
      Turn s a w uses c → exec i s = .next (stalledAt t a code)
    let last := j.pc.toNat + if body = 0 then 256 else body.toNat
    let top := j.loops[ix 4 (j.depth - 1) (by decide)]
    let issue := encIssue rd rs1 widxA rs2 widxB
    let used := [rs1] ++ (if widxA = 0 then [] else [rd]) ++ (if widxB = 0 then [] else [rs2])
    (inc = 0 ∨ 48 ≤ peg.toNat → traps (.psig a inc peg) (encPsig inc peg) [] 0x01 (encPsig inc peg)) ∧
    (mode = 0 ∨ mode = 3 ∨ 48 ≤ peg.toNat ∨ mode = 1 ∧ (th = 0 ∨ 0x7FFF < th) →
      traps (.pwait a rs1 mode peg) (encPwait rs1 mode peg) [rs1] 0x01 (encPwait rs1 mode peg)) ∧
    (48 ≤ peg.toNat → traps (.ptest a rd rs1 peg) (encPtest rd rs1 peg) [rd, rs1] 0x01 (encPtest rd rs1 peg) ∧
      traps (.prd a rd peg) (encPrd rd peg) [rd] 0x01 (encPrd rd peg)) ∧
    (targetBroken x = true →
      traps (.pfadd a rd rs1 rs2) (encR 0x2C rd rs1 rs2 0) [rd, rs1, rs2] 0x01 (encR 0x2C rd rs1 rs2 0)) ∧
    (targetBroken x = false → (targetDest v x = none ∨ ∃ d, targetDest v x = some d ∧ destMissing t d = true) →
      Turn s a (encR 0x2C rd rs1 rs2 0) [rd, rs1, rs2] c →
      exec (.pfadd a rd rs1 rs2) s = .next (takeHeld (retire (faddNak t a rd x) a .seq) a)) ∧
    (4 ≤ j.depth ∨ 2047 < last ∨ j.handler = true ∨
        0 < j.depth ∧ (j.pc.toNat + 1 < top.lstart.toNat ∨ top.lend.toNat < last) →
      traps (.loop a rs1 body) (encLoop rs1 body) [rs1] 0x07 pc ∧
      traps (.loopi a n body) (encLoopi n body) [] 0x07 pc ∧
      traps (.loopt a rs2 rs1 alsel tlog2 body) (encLoopt rs2 rs1 alsel tlog2 body) [rs1, rs2] 0x07 pc) ∧
    (v.transfer ≠ none → stalls (.issue a rd rs1 widxA rs2 widxB) issue used 8) ∧
    (v.transfer = none → v.ctxValid = false → traps (.issue a rd rs1 widxA rs2 widxB) issue used 0x09 pc) ∧
    (v.transfer = none → v.ctxValid = true → x.toNat % 16 ≠ 0 ∨ 0xFFF < x.toNat →
      traps (.issue a rd rs1 widxA rs2 widxB) issue used 0x0A x) ∧
    (0 < epCount v ep.toNat → ringInUse v ep.toNat = true → stalls (.eppop a ep) (encEppop ep) [] 0)

/-- R135, R136: a trap outside the handler saves PC, the cause and its value and enters the handler where one is enabled;
without one the Joiner halts faulted at the trapping instruction; inside the handler it halts faulted with JNR_DOUBLE
raised, the first trap kept in EPC, TCAUSE and TVAL and the second in JTRAP_CAUSE and JTRAP_VAL. -/
def Obligations.JoinerTrapEntry : Prop :=
  ∀ (s : State) (a : Ash) (cause : Byte) (val : Word),
    let j := (s.ash a).joiner
    let k := ((jTrap s a cause val).ash a).joiner
    k.lastCause = cause ∧ k.lastVal = val ∧
    (j.handler = false → k.epc = j.pc ∧ k.tcause = cause ∧ k.tval = val ∧
      (j.handlerEn = true → k.handler = true ∧ k.pc = j.hentry ∧ (j.step = false → k.state = .running)) ∧
      (j.handlerEn = false → k.handler = false ∧ k.pc = j.pc ∧ k.state = .faulted)) ∧
    (j.handler = true → k.double = true ∧ k.state = .faulted ∧ k.epc = j.epc ∧ k.tcause = j.tcause ∧ k.tval = j.tval ∧
      ∃ t : State, jTrap s a cause val = t.raise (.ash a) evJnrDouble 0) ∧
    k.regs = j.regs ∧ k.dmem = j.dmem ∧ k.loops = j.loops ∧ k.al = j.al ∧ k.pending = j.pending

/-- R100 to R103: the word of a Joiner instruction names it with every operand, two instructions never share a word, and
exactly the legal words are words of instructions. -/
def Obligations.JoinerEncoding : Prop :=
  (∀ (i : Instr) (a : Ash) (w : Word), joinerWord i = some (a, w) → joinerInstr a w = some i) ∧
  (∀ (i : Instr) (a : Ash) (w : Word), joinerInstr a w = some i → joinerWord i = some (a, w)) ∧
  (∀ (a : Ash) (w : Word), (joinerInstr a w).isSome = jLegal w)

/-- R103: a word that is no instruction's traps with cause ILLEGAL and has no other effect; an instruction whose word is
not the one at PC has no turn. -/
def Obligations.JoinerIllegal : Prop :=
  ∀ (s : State) (i : Instr) (a : Ash) (w x : Word) (c : Bool), joinerWord i = some (a, w) → AshRuns s a →
    fetch (s.ash a) = .word x c → (s.ash a).joiner.held = [] →
    (joinerInstr a x = none → exec i s = .next (jTrap (fetched s a c) a 0x01 x)) ∧
    (∀ y, joinerInstr a x = some y → x ≠ w → exec i s = .next s)

/-! ### The engines -/

/-- R54, R56, R111, R112: with the transfer port free, a context valid and room in the queue, an ISSUE of a clean
descriptor hands its words over, replaced ones included, to be decoded; a legal instruction then joins its engine's
queue, and one that fails its check is dropped.

R62, R66: the reads of an instruction that has made its last read retire, and an instruction that has committed its
last write completes, in an ashlar that is not frozen. -/
def Obligations.EngineIssue : Prop :=
  ((∀ (s : State) (a : Ash) (rsA rs1 : Reg) (widxA : BitVec 4) (rsB : Reg) (widxB : BitVec 4) (c : Bool),
     let t := fetched s a c
     let v := t.ash a
     let addr := (t.jr a rs1).toNat
     let read := fun k => readHalf v.joiner.dmem (addr / 4 + k)
     let len := 6 + bits (read 0).1 20 4
     let sub := replaced t a rsA widxA rsB widxB
     let words := (List.range len).map fun k => (sub k).getD (read k).1
     let e := engineOf (bits (read 0).1 30 2)
     Turn s a (encIssue rsA rs1 widxA rsB widxB)
       ([rs1] ++ (if widxA = 0 then [] else [rsA]) ++ (if widxB = 0 then [] else [rsB])) c →
     v.transfer = none → v.ctxValid = true → addr % 16 = 0 → addr + 4 * len ≤ 0x1000 → widxA.toNat < len →
     widxB.toNat < len → (∀ k, k < len → sub k = none → (read k).2 = .clean) →
     (v.joiner.isPending (rdstOf e words) = true → exec (.issue a rsA rs1 widxA rsB widxB) s = .next (stalledAt t a 1)) ∧
     (v.joiner.isPending (rdstOf e words) = false → 4 ≤ engDepth v e →
       exec (.issue a rsA rs1 widxA rsB widxB) s = .next (stalledAt t a 2)) ∧
     (v.joiner.isPending (rdstOf e words) = false → engDepth v e < 4 →
       exec (.issue a rsA rs1 widxA rsB widxB) s = .next (retire (endTransfer t a words) a .seq))) ∧
   (∀ (s : State) (a : Ash) (words : List Word),
     ((endTransfer s a words).ash a).transfer = some (transferred (s.ash a) words) ∧
     ((endTransfer s a words).ash a).joiner.issued = (s.ash a).joiner.issued + 1 ∧
     ((endTransfer s a words).ash a).engines = (s.ash a).engines) ∧
   (∀ (s : State) (a : Ash) (i : EngInstr), AshRuns s a → (s.ash a).transfer = some i →
     (decodeFault (s.ash a) i = none → exec (.engineDecode a) s = .next (s.onAsh a fun v => placeInstr v i)) ∧
     (∀ ev, decodeFault (s.ash a) i = some ev → exec (.engineDecode a) s = .next (failDecode s a i ev)))) ∧
  (∀ (s : State) (a : Ash) (seq : BitVec 5) (i : EngInstr), AshRuns s a → (s.ash a).frozen = false →
     (findSeq (s.ash a) seq (readsDone (s.ash a)) = some i → exec (.readsRetired a seq) s = .next (retireReads s a i)) ∧
     (findSeq (s.ash a) seq (workDone (s.ash a)) = some i → exec (.instrComplete a seq) s = .next (finishInstr s a i)))

/-- R58 to R66, R229, R251: the head of the vector queue that starts does its whole work at once, its scalar result on its
way to the Joiner; every opcode and FUNC has its own command, OPTUPD one for each rule.

R240: MLOGIC writes the whole of mask buffer MDST with its operation on MREG and S1, and changes neither the other
masks nor the scratchpad. -/
def Obligations.VectorEngine : Prop :=
  (∀ (s : State) (a : Ash) (i : EngInstr), Starts s a .vector i →
     let t := startedState s a i
     let j := started (s.ash a) i
     (∀ c ∈ vecCommands a, opcodeOf i = c.2.1 → bits (iw i 6) 4 4 = c.2.2 →
       exec c.1 s = .next (t.commitVec a j (runVec (t.ash a) j))) ∧
     (∀ c ∈ optCommands a, opcodeOf i = 0x30 → bits (iw i 6) 0 4 = c.2 →
       exec c.1 s = .next (t.commitRun a j (runOptupd (t.ash a) j)))) ∧
  (∀ (s : State) (a : Ash) (i : EngInstr), Starts s a .vector i → opcodeOf i = 0x26 →
     let m := vecOf i
     let p := (s.ash a).masks.toList.getD m.mreg 0
     let q := (s.ash a).masks.toList.getD (m.s1.toNat % 4) 0
     let gives := fun (c : Instr) (func : Nat) (x : BitVec 4096) =>
       m.func = func → ∃ u, exec c s = .next u ∧ (u.ash a).masks = (s.ash a).masks.set (ix 4 m.mdst (by decide)) x ∧
         (u.ash a).spad = (s.ash a).spad
     gives (.mlogicAnd a) 0 (p &&& q) ∧ gives (.mlogicOr a) 1 (p ||| q) ∧ gives (.mlogicXor a) 2 (p ^^^ q) ∧
     gives (.mlogicAndn a) 3 (p &&& ~~~q) ∧ gives (.mlogicNot a) 4 (~~~p) ∧
     gives (.mlogicSet a) 5 (BitVec.allOnes 4096) ∧ gives (.mlogicClear a) 6 0)

/-- R158 to R162: an MMA, MWLOAD or MWDROP runs whole at its turn, with its first tile already there where it was
preloaded, and loaded anew where it was preloaded and has been lost since; one whose preload has faulted runs on and
leaves no tile (R78, R160); MWDROP leaves no tile; WEIGHT_PRELOAD puts the next instruction's first tile into the shadow
buffer and leaves the active one. -/
def Obligations.MatrixTurns : Prop :=
  ∀ (s : State) (a : Ash) (i : EngInstr),
    let t := startedState s a i
    let j := started (s.ash a) i
    (Starts s a .matrix i → preloaded (s.ash a) = none →
      (opcodeOf i = 1 → exec (.mma a) s = .next (t.commitRun a j (settleTiles (runMma (t.ash a) j false)))) ∧
      (opcodeOf i = 2 → exec (.mwload a) s = .next (t.commitRun a j (settleTiles (runMwload (t.ash a) j false)))) ∧
      (opcodeOf i = 3 → ∃ u, exec (.mwdrop a) s = .next u ∧ (u.ash a).active = Tile.reset ∧ (u.ash a).shadow = Tile.reset)) ∧
    (AshRuns s a → preloaded (s.ash a) = some i → i.faulted = false →
      let r := fun (run : Ashlar → EngInstr → Bool → Run) =>
        if (s.ash a).shadowFor = some (BitVec.ofNat 5 i.order) then run (swapTiles (s.ash a)) i true else run (s.ash a) i false
      (opcodeOf i = 1 → exec (.mma a) s = .next (s.commitRun a i (settleTiles (r runMma)))) ∧
      (opcodeOf i = 2 → exec (.mwload a) s = .next (s.commitRun a i (settleTiles (r runMwload))))) ∧
    (AshRuns s a → preloaded (s.ash a) = some i → i.faulted = true → ∃ u,
      (opcodeOf i = 1 → exec (.mma a) s = .next u) ∧ (opcodeOf i = 2 → exec (.mwload a) s = .next u) ∧
      (opcodeOf i = 1 ∨ opcodeOf i = 2 → (u.ash a).active = Tile.reset ∧ (u.ash a).shadow = Tile.reset)) ∧
    (AshRuns s a → (s.ash a).active.pair = false → preloadable (s.ash a) = some i →
      let m := mmaOf i
      let l := loadTile (Run.start (preloadStart (s.ash a) i)) j m (offLo i 11)
        (if opcodeOf i = 1 ∧ m.wMode = 0 then m.ext (m.kcnt == 1) else m.kc)
        (if opcodeOf i = 1 ∧ m.wMode = 0 then 0 else m.wtag)
      l.2.fault = none → ∃ u, exec (.weightPreload a) s = .next u ∧ (u.ash a).shadow = l.1 ∧
        (u.ash a).shadowFor = some i.order ∧ (u.ash a).active = l.2.v.active)

/-- R277, R279, R286, R287, R291 to R293: a stream instruction takes a program slot at its turn; FILL writes its constant,
COPY word after word where no word is shared, RPOP pops, WCTL closes and opens its window, SLOAD and SSTORE run on as
programs that hold their ring.

R262, R264, R286, R287, R290: a load or store program of an ashlar that is not frozen sends its waiting requests, or
else launches its next chunk, or drains its next slot; a corrected word waiting is written back, the scrubber visits
its next word. -/
def Obligations.StreamEngine : Prop :=
  (∀ (s : State) (a : Ash) (i : EngInstr), Starts s a .stream i →
     let j := started (s.ash a) i
     let t := (startedState s a i).onAsh a fun v => takeProg v j
     let v := t.ash a
     let n := bits (iw j 6) 0 4
     let opens := fun (c : Instr) (action : Nat) (f : Window → Window) =>
       opcodeOf i = 6 → bits (iw i 6) 4 2 = action →
         exec c s = .next (t.commitStream a j (Run.start (v.setWin n (f (v.win n)))))
     (opcodeOf i = 1 → exec (.sload a) s = .next t) ∧
     (opcodeOf i = 2 → exec (.sstore a) s = .next t) ∧
     (opcodeOf i = 3 → exec (.fill a) s = .next (t.commitStream a j ((List.range (rangeLen (irange j 2))).foldl
       (fun r k => writeWord r j k ((iw j 6).toNat + (iw j 7).toNat * 2 ^ 32) fullMask) (Run.start v)))) ∧
     (opcodeOf i = 4 → ((physWords v j 0).any fun p => (physWords v j 2).contains p) = false →
       exec (.copy a) s = .next (t.commitStream a j ((List.range (rangeLen (irange j 0))).foldl
         (fun r k => writeWord (readWord r j 0 k).2 j k (readWord r j 0 k).1 fullMask) (Run.start v)))) ∧
     (opcodeOf i = 5 → exec (.rpop a) s = .next (t.commitStream a j (Run.start (popRing v n (bits (iw j 6) 4 5))))) ∧
     opens (.wctlOpen a) 0 openWin ∧ opens (.wctlClose a) 1 closeWin ∧
     opens (.wctlCloseOpen a) 2 (fun w => openWin (closeWin w))) ∧
  (∀ (s : State) (a : Ash) (prog : Nat) (i : EngInstr), AshRuns s a →
     let v := s.ash a
     let waits := (unsentPiece (v.prog prog)).isSome
     (prog < 4 → progInstr v prog = some i → v.frozen = false →
       (opcodeOf i = 1 → exec (.sloadRequest a prog) s =
         .next (if waits then pumpAll s a prog (loadOf i) false else launch s a prog i)) ∧
       (opcodeOf i = 2 → exec (.sstoreDrain a prog) s =
         .next (if waits then pumpAll s a prog (loadOf i) true else drain s a prog i))) ∧
     (∀ b r, v.writeBacks = b :: r → exec (.spadWriteback a) s = .next (s.onAsh a fun v =>
       spadPut { v with writeBacks := r } b.word (b.data.toNat % 2 ^ 64) (b.data.toNat / 2 ^ 64))) ∧
     (s.fld (.ash a) 0x3A8 0 1 = 1 → exec (.scrubVisit a) s = .next (scrubVisit s a)))

/-- R329, R331, R338 to R340, R346, R349: a send instruction at its turn whose destination is there goes on its way: a
tuple, message or window instruction on a connected channel as far as credit and fences reach, PSIGR and a disconnect
at once, a connect until its reply, KSEND until its grant.

R330, R340, R349: the running send instruction resumes; a CONNECT answered FENCED or BUSY, and a KREQ answered RETRY,
go again; a KSEND at the head of its queue asks for a grant, and a grant lets the KSEND that waits for it send its
data.

R338: a tuple on a channel is one flit to the channel's endpoint with as many words as the entry says, and takes one
credit; where a fence in force shuts the port the flit waits there (R355).

R62: a send instruction that reads no scratchpad word applies its 0b10 signals in its first execution cycle.

R306, R313, R355, R356: with its port taking no flit a send engine sends nothing and records the cause link credit. -/
def Obligations.SendEngine : Prop :=
  (∀ (s : State) (a : Ash) (i : EngInstr), Starts s a .send i →
     let t := startedState s a i
     let j := started (s.ash a) i
     let n := bits (iw j 6) 0 4
     let e := (t.ash a).chan n
     let early := signalEarly t a j
     let open1 := portBusy early a (ashVc (early.ash a)) = false
     let goes := fun (c : Instr) (op : Nat) => opcodeOf i = op → chanRefusal t e = none → exec c s = .next (sendGo early a j)
     goes (.sendt a) 1 ∧ goes (.sendi a) 2 ∧
     (1 + rangeLen (irange j 0) ≤ e.size.toNat → goes (.msend a) 3) ∧ goes (.wsend a) 4 ∧
     (∀ d, targetDest (t.ash a) (setBits (iw j 6) 24 8 0) = some d → destMissing t d = false → open1 →
       opcodeOf i = 5 → exec (.psigr a) s = .next (sendDone (emitSend early a j (ashPacket early a d
         (.psig (BitVec.ofNat 6 (bits (iw j 6) 0 6)) (BitVec.ofNat 8 (bits (iw j 6) 24 8)) (early.ash a).job))) a j)) ∧
     (∀ d, targetDest (t.ash a) (iw j 7) = some d → destMissing t d = false → opcodeOf i = 6 → j.wait = .none →
       (bit (iw i 6) 4 = false → exec (.connConnect a) s = .next (connGo early a j false d)) ∧
       (bit (iw i 6) 4 = true → exec (.connDisconnect a) s = .next (connGo early a j true d))) ∧
     (opcodeOf i = 7 → i.wait ≠ .none → exec (.ksend a) s = .next (ksendGo early a j)) ∧
     (rangeLen (irange j 0) ≠ 0 → early = t) ∧
     (rangeLen (irange j 0) = 0 → ∀ p, ((early.ash a).peg p).value =
       ((signalAll 1 3 (ashDest t a) (signalsOf j.words 2) [] (t.ash a)).peg p).value)) ∧
  (∀ (s : State) (a : Ash) (i : EngInstr),
     (AshRuns s a → (s.ash a).frozen = false →
       (sendRunning (s.ash a) = some i →
         exec (.sendResume a) s = .next (sendGo s a i) ∧
         (∀ d, i.wait = .connRetry → targetDest (s.ash a) (iw i 7) = some d → exec (.connectRetry a) s =
           .next (connGo (onInstr s a i fun j => { j with wait := .none }) a { i with wait := .none } false d))) ∧
       ((inFlight (s.ash a)).find? (fun i => decide (i.engine = .send ∧ i.wait = .grantRetry)) = some i →
         portBusy s a (ashVc (s.ash a)) = false →
         exec (.kreqRetry a) s = .next ((onInstr s a i fun j => { j with wait := .grant }).send
           (ashPacket s a (keyDest a 0) (.kreq (keyRequest s a i))))) ∧
       (((s.ash a).eng .send).queue.head? = some i → opcodeOf i = 7 → i.phase = .ready → i.wait = .none →
         portBusy s a (ashVc (s.ash a)) = false → ∃ u, exec (.ksend a) s = .next u ∧
           ashPacket s a (keyDest a 0) (.kreq (keyRequest s a i)) ∈ u.sent)) ∧
     (∀ p ctx, p.body = .kgrant grantOk ctx → Arrives s p a →
       (inFlight ((s.take p).ash a)).find? (fun i => decide (i.engine = .send ∧ i.wait = .grant)) = some i →
       i.phase = .running → ((s.take p).ash a).frozen = false →
       exec (.kgrant p) s = .next (sendGo (onInstr (s.take p) a i fun j => { j with wait := .granted ctx }) a
         { i with wait := .granted ctx }))) ∧
  (∀ (s : State) (a : Ash) (i : EngInstr) (n : Nat) (x : BitVec 128),
     let e := (s.ash a).chan n
     let u := emitTuple s a i n x
     let p : Packet := ⟨e.vc, e.dest, ashDest s a, false, .chan e.ep x (e.yx && e.vc == 0)⟩
     (portShut s p = false → u.net = s.net ++ [p] ∧ u.portWait = s.portWait) ∧
     (portShut s p = true → u.net = s.net ∧ u.portWait = s.portWait ++ [p]) ∧
     ((u.ash a).chan n).credit = e.credit - 1 ∧
     (∀ k, k % 16 ≠ n % 16 → (u.ash a).chan k = (s.ash a).chan k) ∧ u.regs = s.regs) ∧
  (∀ (s : State) (a : Ash) (i : EngInstr) (d : Dest) (disc : Bool),
     let n := bits (iw i 6) 0 4
     let e := (s.ash a).chan n
     (portBusy s a e.vc = true → opcodeOf i = 2 → sendGo s a i = blockSend s a 2 n e.dest) ∧
     (portBusy s a (ashVc (s.ash a)) = true → connGo s a i disc d = blockSend s a 2 n d ∧
       (i.wait = .none → opcodeOf i = 7 → sendGo s a i = blockSend s a 2 0 (keyDest a 0))))

/-! ### The controls of an ashlar -/

/-- R75, R383: a freeze holds an ashlar and leaves its Joiner, engines, windows, memories and peg values alone; its end
adds every deferred sum to its peg's value, with no fetch-and-add, trap or halt waiting.

R76, R139: a soft reset halts the Joiner at its entry, outside its handler, empties the engines and the transfer port,
resets pegs, windows, endpoints and program slots and invalidates the context and the tiles; the Joiner's registers
and memories and the scratchpad keep their contents.

R77, R79: RESUME drops the faulted instructions of the faulted engines named and lets them go on, and FLUSH of a
frozen ashlar empties the engines named; neither touches an engine that is not named. -/
def Obligations.AshlarStops : Prop :=
  (∀ (s : State) (a : Ash), AshRuns s a →
     let v := s.ash a
     (∃ u, exec (.freezeSet a) s = .next u ∧ (u.ash a).frozen = true ∧ (u.ash a).joiner = v.joiner ∧
       (u.ash a).engines = v.engines ∧ (u.ash a).windows = v.windows ∧ (u.ash a).spad = v.spad ∧
       ∀ p, ((u.ash a).peg p).value = (v.peg p).value ∧ ((u.ash a).peg p).deferred = (v.peg p).deferred) ∧
     (v.frozen = true → v.faddQueue = [] → v.joiner.held = [] → v.joiner.haltReq = false →
       ∃ u, exec (.freezeClear a) s = .next u ∧ (u.ash a).frozen = false ∧ (u.ash a).joiner = v.joiner ∧
         (u.ash a).engines = v.engines ∧
         ∀ p, ((u.ash a).peg p).value = (v.peg p).value + (v.peg p).deferred ∧ ((u.ash a).peg p).deferred = 0)) ∧
  (∀ (s : State) (a : Ash), AshRuns s a →
     let v := s.ash a
     ∃ u, exec (.softReset a) s = .next u ∧
       (u.ash a).joiner.state = .halted ∧ (u.ash a).joiner.pc = v.joiner.entry ∧ (u.ash a).joiner.handler = false ∧
       (u.ash a).joiner.depth = 0 ∧ (u.ash a).joiner.pending = 0 ∧ inFlight (u.ash a) = [] ∧ (u.ash a).transfer = none ∧
       (∀ p, ((u.ash a).peg p).value = 0) ∧ (u.ash a).windows = Vector.replicate 16 Window.reset ∧
       (u.ash a).endpoints = Vector.replicate 8 Endpoint.reset ∧ (u.ash a).progs = Vector.replicate 4 Prog.reset ∧
       (u.ash a).ctxValid = false ∧ (u.ash a).active = Tile.reset ∧ (u.ash a).masks = Vector.replicate 4 0 ∧
       (u.ash a).joiner.regs = v.joiner.regs ∧ (u.ash a).joiner.dmem = v.joiner.dmem ∧ (u.ash a).joiner.bank0 = v.joiner.bank0 ∧
       (u.ash a).joiner.bank1 = v.joiner.bank1 ∧ (u.ash a).spad = v.spad) ∧
  (∀ (s : State) (a : Ash) (mask : BitVec 4), AshRuns s a →
     let v := s.ash a
     (∃ u, exec (.resume a mask) s = .next u ∧
       (∀ e, e ∈ enginesOf mask → ((u.ash a).eng e).faulted = false ∧
         ((u.ash a).eng e).queue = if (v.eng e).faulted then (v.eng e).queue.filter (fun i => !i.faulted) else (v.eng e).queue) ∧
       (∀ e, e ∉ enginesOf mask → (u.ash a).eng e = v.eng e) ∧ (u.ash a).joiner = v.joiner ∧ (u.ash a).spad = v.spad) ∧
     (v.frozen = true → ∃ u, exec (.flush a mask) s = .next u ∧
       (∀ e, e ∈ enginesOf mask → ((u.ash a).eng e).queue = [] ∧ ((u.ash a).eng e).faulted = (v.eng e).faulted) ∧
       (∀ e, e ∉ enginesOf mask → (u.ash a).eng e = v.eng e) ∧ (u.ash a).pegs = v.pegs ∧ (u.ash a).spad = v.spad))

/-- R131, R141, R242: RUN starts a halted Joiner where it stands and an ended one at its entry, the mask buffers clear where
it stood at a task boundary, HALT halts a running or stalled
one that is not frozen, STEP runs a halted one for one instruction; ARM swaps the instruction banks at once where the
Joiner does not run and otherwise arms the swap, which DISARM takes back.

R144, R368, R386, R392, R395: a JREG_DATA write reaches the register selected, a PEG_SIG write signals its peg, a
PEG_VALUE write sets its peg while the context may be written, and a waiter beyond its limit is recorded and raises
PEG_WATCHDOG. -/
def Obligations.AshlarControls : Prop :=
  (∀ (s : State) (a : Ash), AshRuns s a →
     let j := (s.ash a).joiner
     let left := if atBoundary (s.ash a) then Vector.replicate 4 0 else (s.ash a).masks
     (j.state = .halted → exec (.jctrlRun a) s =
       .next (s.onAsh a fun v => { v with masks := left, joiner := { v.joiner with state := .running } })) ∧
     (j.state = .ended → exec (.jctrlRun a) s = .next (s.onAsh a fun v => { v with
       masks := left
       joiner := { v.joiner with state := .running, pc := v.joiner.entry, taskEnd := false, bkptPass := false } })) ∧
     (j.state = .running ∨ j.state = .stalled → (s.ash a).frozen = false → (s.ash a).won.contains 4 = false →
       exec (.jctrlHalt a) s = .next (s.onJ a fun j => { j with state := .halted, stall := 0, step := false })) ∧
     (j.state = .running ∨ j.state = .stalled → (s.ash a).frozen = false → (s.ash a).won.contains 4 = true →
       exec (.jctrlHalt a) s = .next ((settlePwait s a).onJ a haltedJoiner)) ∧
     (j.state = .halted → exec (.jctrlStep a) s =
       .next (s.onAsh a fun v => { v with masks := left, joiner := { v.joiner with state := .running, step := true } })) ∧
     (j.state = .running ∨ j.state = .stalled →
       exec (.jbankArm a) s = .next (s.onJ a fun j => { j with armed := true })) ∧
     (j.state ≠ .running → j.state ≠ .stalled → exec (.jbankArm a) s =
       .next (s.onJ a fun j => { j with active := !j.active, armed := false, pc := j.entry, bkptPass := false })) ∧
     exec (.jbankDisarm a) s = .next (s.onJ a fun j => { j with armed := false })) ∧
  (∀ (s : State) (a : Ash) (x : Word) (peg n : Nat) (w : Wait), AshRuns s a →
     let v := s.ash a
     (jRuns v = false → s.fld (.ash a) 0x134 0 9 < 32 → exec (.jregDataWrite a x) s =
       .next (s.onJ a fun j => j.wr (BitVec.ofNat 5 (s.fld (.ash a) 0x134 0 9)) x)) ∧
     (bits x 16 16 ≠ 0 → bits x 0 6 < 48 → exec (.pegSigWrite a x) s =
       .next (s.signal a (bits x 0 6) (BitVec.ofNat 16 (bits x 16 16)) 7 0)) ∧
     (peg < 48 → contextWritable v = true → ∃ u, exec (.pegValueWrite a peg x) s = .next u ∧
       ((u.ash a).peg peg).value = BitVec.ofNat 16 (bits x 0 16) ∧ ((u.ash a).peg peg).deferred = (v.peg peg).deferred ∧
       ∀ p, p < 48 → p ≠ peg → (u.ash a).peg p = v.peg p) ∧
     (n < 5 → s.fld (.ash a) 0x700 31 1 = 1 → v.frozen = false → v.watchdogs[ix 5 n (by decide)].raised = false →
       dogWait s a n = some w → ∃ u, exec (.pegWatchdog a n) s = .next u ∧
         (u.ash a).watchdogs[ix 5 n (by decide)].raised = true ∧ ((u.ash a).peg w.peg).wdog = true ∧
         ((u.ash a).peg w.peg).value = (v.peg w.peg).value ∧ u.fld (.ash a) 0x10 1 1 = 1))

/-- R93 to R95: a debugger read of a legal address gives the word, corrected where it can be, with its stored check bits,
and the stored word as it is with ECC_ERR set where it cannot; a read of another address records ERR_ACCESS. A debugger
write to data memory stores both halves with fresh check bits, so that a debugger read of the address then gives them back
with ECC_ERR clear; a write to a scratchpad word stores it under the class asked.

R267, R268, R277, R298, R358: with the context writable and its rules kept, a window, ring or endpoint register takes
what is written; opening and closing a remote window moves its epoch as WCTL does. -/
def Obligations.AshlarContext : Prop :=
  (∀ (s : State) (a : Ash), AshRuns s a →
     let p := Page.ash a
     let lo := s.reg p 0xB4
     let hi := s.reg p 0xB8
     let word := s.fld p 0xB0 0 13
     let cls := s.fld p 0xB0 14 2
     (s.fld p 0xB0 30 2 = 1 → word < 512 →
       ∃ u, exec (.dbgWrite a) s = .next u ∧ readHalf (u.ash a).joiner.dmem (2 * word) = (lo, .clean) ∧
         readHalf (u.ash a).joiner.dmem (2 * word + 1) = (hi, .clean) ∧
         (∀ k, k ≠ 2 * word → k ≠ 2 * word + 1 → halfRaw (u.ash a).joiner.dmem k = halfRaw (s.ash a).joiner.dmem k) ∧
         u.regs = s.regs ∧
         ∃ t, exec (.dbgRead a) u = .next t ∧ t.reg p 0xB4 = lo ∧ t.reg p 0xB8 = hi ∧ t.fld p 0xC0 3 1 = 0 ∧
           t.ashlars = u.ashlars) ∧
     (s.fld p 0xB0 30 2 = 0 → cls ≠ 3 → word < 6144 →
       ∃ u, exec (.dbgWrite a) s = .next u ∧
         spadRaw (u.ash a) word = (lo.toNat + hi.toNat * 2 ^ 32, classCheck cls (lo.toNat + hi.toNat * 2 ^ 32)) ∧
         ∀ k, k ≠ word → spadRaw (u.ash a) k = spadRaw (s.ash a) k)) ∧
  (∀ (s : State) (a : Ash), AshRuns s a →
     let p := Page.ash a
     let word := s.fld p 0xB0 0 13
     let space := s.fld p 0xB0 30 2
     let d := spadRaw (s.ash a) word
     let m := (dbgMem (s.ash a).joiner space).1
     let l := readHalf m (2 * word)
     let h := readHalf m (2 * word + 1)
     let checks := BitVec.ofNat 32 ((halfRaw m (2 * word)).2 + (halfRaw m (2 * word + 1)).2 * 256)
     let gives := fun (lo hi check : Word) (bad : Nat) => ∃ u, exec (.dbgRead a) s = .next u ∧ u.reg p 0xB4 = lo ∧
       u.reg p 0xB8 = hi ∧ u.reg p 0xBC = check ∧ u.fld p 0xC0 3 1 = bad ∧ u.ashlars = s.ashlars ∧ u.dies = s.dies
     (dbgLegal space (s.fld p 0xB0 14 2) word = true →
       (space = 0 → ∀ x, classDecode (s.fld p 0xB0 14 2) d.1 d.2 = .corrected x ∨
           classDecode (s.fld p 0xB0 14 2) d.1 d.2 = .clean ∧ x = d.1 →
         gives (BitVec.ofNat 32 x) (BitVec.ofNat 32 (x / 2 ^ 32)) (BitVec.ofNat 32 d.2) 0) ∧
       (space = 0 → classDecode (s.fld p 0xB0 14 2) d.1 d.2 = .ue →
         gives (BitVec.ofNat 32 d.1) (BitVec.ofNat 32 (d.1 / 2 ^ 32)) (BitVec.ofNat 32 d.2) 1) ∧
       (space ≠ 0 → l.2 ≠ .ue → h.2 ≠ .ue → gives l.1 h.1 checks 0) ∧
       (space ≠ 0 → l.2 = .ue ∨ h.2 = .ue → gives (BitVec.ofNat 32 (halfRaw m (2 * word)).1)
         (BitVec.ofNat 32 (halfRaw m (2 * word + 1)).1) checks 1)) ∧
     (dbgLegal space (s.fld p 0xB0 14 2) word = false → exec (.dbgRead a) s = .next (s.record p evErrAccess 0))) ∧
  (∀ (s : State) (a : Ash) (n : Nat) (x : Word), AshRuns s a → contextWritable (s.ash a) = true → n < 16 →
     let v := s.ash a
     let o := v.win n
     let w : Window := { o with
       base := BitVec.ofNat 13 (bits x 0 13), size := BitVec.ofNat 13 (bits x 13 13), cls := BitVec.ofNat 2 (bits x 26 2)
       kind := BitVec.ofNat 2 (bits x 28 2), remote := bit x 30, valid := bit x 31 }
     (bit x 31 = true → windowBroken v n w = false → ∃ u, exec (.winCfgWrite a n x) s = .next u ∧
       ((u.ash a).win n).base = w.base ∧ ((u.ash a).win n).size = w.size ∧ ((u.ash a).win n).cls = w.cls ∧
       ((u.ash a).win n).kind = w.kind ∧ ((u.ash a).win n).remote = w.remote ∧ ((u.ash a).win n).valid = true ∧
       (∀ k, k < 16 → k ≠ n → (u.ash a).win k = v.win k) ∧ (u.ash a).spad = v.spad) ∧
     (o.valid = true → o.isRing = true → windowBroken v n { o with
         ring := x, rd := 0, wr := 0, recs := 0, used := BitVec.ofNat 13 (bits x 16 13) } = false →
       ∃ u, exec (.winRingWrite a n x) s = .next u ∧ ((u.ash a).win n).ring = x &&& 0x3FFFF ∧
         ((u.ash a).win n).tail = 0 ∧ ((u.ash a).win n).occ = 0 ∧ ∀ k, k < 16 → k ≠ n → (u.ash a).win k = v.win k) ∧
     exec (.doOpen a n) s = .next (s.setAsh a (v.setWin n (if o.valid && o.remote then { o with isOpen := true } else o))) ∧
     exec (.doClose a n) s = .next (s.setAsh a (v.setWin n
       (if o.isOpen then { o with isOpen := false, epoch := o.epoch + 1 } else o))) ∧
     (n < 8 → bit x 1 = false → bit x 15 = false → ∃ u, exec (.epCfgWrite a n x) s = .next u ∧
       ((u.ash a).ep n).valid = bit x 0 ∧ ((u.ash a).ep n).ring = false ∧ ((u.ash a).ep n).dyn = bit x 2 ∧
       ((u.ash a).ep n).tlen = BitVec.ofNat 2 (bits x 3 2) ∧ ((u.ash a).ep n).flits = (v.ep n).flits ∧
       ∀ k, k < 8 → k ≠ n → (u.ash a).ep k = v.ep k))

/-! ### Packets, fences and routers -/

/-- R332 to R334: a channel flit at a valid tuple endpoint with room, in an ashlar that is not frozen, joins its buffer
and counts as an arrival; a CRET raises the credit of its entry, which stays at most 0xFFFF.

R406: an answer of a tier reaches the stream program that asked, by its tag. -/
def Obligations.PacketArrivals : Prop :=
  (∀ (s : State) (p : Packet) (a : Ash), Arrives s p a →
     let v := s.ash a
     (∀ ep x yx, p.body = .chan ep x yx → v.frozen = false → (v.ep ep.toNat).valid = true → (v.ep ep.toNat).ring = false →
       (v.ep ep.toNat).flits.length < 4 → ∃ u, exec (.channelFlit p) s = .next u ∧
         ((u.ash a).ep ep.toNat).flits = (v.ep ep.toNat).flits ++ [x] ∧
         ((u.ash a).ep ep.toNat).arrivals = (v.ep ep.toNat).arrivals + 1 ∧
         (∀ k, k < 8 → k ≠ ep.toNat → (u.ash a).ep k = v.ep k) ∧ (u.ash a).joiner = v.joiner ∧
         u.net = s.net.erase p) ∧
     (∀ entry n, p.body = .cret entry n → ∃ u, exec (.cret p) s = .next u ∧
       ((u.ash a).chan entry.toNat).credit = BitVec.ofNat 16 (min 0xFFFF ((v.chan entry.toNat).credit.toNat + n.toNat)) ∧
       (∀ k, k < 16 → k ≠ entry.toNat → (u.ash a).chan k = v.chan k) ∧ u.net = s.net.erase p)) ∧
  (∀ (s : State) (p : Packet) (a : Ash), Arrives s p a →
     (∀ tag status nw off fd data, p.body = .mresp tag status nw off fd data → p.vc ≠ 3 →
       exec (.mresp p) s = .next (streamAnswer (s.take p) a p.src tag status fd data)) ∧
     (∀ tag status, p.body = .mack tag status → exec (.mack p) s = .next (streamAnswer (s.take p) a p.src tag status 0 [])))

/-- R368, R376 to R378, R381 to R383, R389: a PSIG of the context's job adds INC to its peg; a fetch-and-add of an ashlar that
is not frozen adds its delta, after the waiters that start in its cycle have taken what they take, and answers with the
value the cycle began with; a delta of 0 leaves the peg as it is; its reply reaches the waiting register; a signal of another
job changes nothing and is refused with code 5.

R276, R346: a remote write from an ashlar to an open remote window of its epoch, of plain kind, that fits and does not
accumulate, puts each of its words with fresh check bits at its place and changes no other word of the scratchpad; to
an ashlar whose window is not open or of another epoch it changes no word and is refused with code 2. -/
def Obligations.PacketEffects : Prop :=
  (∀ (s : State) (p : Packet) (a : Ash), Arrives s p a →
     let v := s.ash a
     (∀ peg inc job, p.body = .psig peg inc job → peg.toNat < 48 → v.ctxValid = true → v.job = job → v.frozen = false →
       ∃ u, exec (.psigPacket p) s = .next u ∧
         ((u.ash a).peg peg.toNat).value = (v.peg peg.toNat).value + inc.zeroExtend 16 ∧
         ((u.ash a).peg peg.toNat).src = p.src ∧ (∀ q, q < 48 → q ≠ peg.toNat → (u.ash a).peg q = v.peg q)) ∧
     (∀ peg inc job, p.body = .psig peg inc job → v.ctxValid = false ∨ v.job ≠ job →
       ∃ u, exec (.psigPacket p) s = .next u ∧ (u.ash a).pegs = v.pegs ∧ answer p (.nak 5 .psig) ∈ u.sent) ∧
     (∀ peg delta job, p.body = .fadd peg delta job → peg.toNat < 48 → v.ctxValid = true → v.job = job → v.frozen = false →
       let w := decideNow v (joinerWait v)
       ∃ u, exec (.fadd p) s = .next u ∧
         ((u.ash a).peg peg.toNat).value = (w.peg peg.toNat).value + delta ∧
         (∀ q, q < 48 → q ≠ peg.toNat → (u.ash a).peg q = w.peg q) ∧
         (delta = 0 → (u.ash a).peg peg.toNat = w.peg peg.toNat) ∧
         (candidates v (engCandidates v) (joinerWait v) = [] → w.pegs = v.pegs) ∧
         answer p (.faddReply peg (v.peg peg.toNat).value) ∈ u.sent) ∧
     (∀ peg old f, p.body = .faddReply peg old → findFadd v.joiner peg p.src = some f → f.1 ≠ 0 →
       ∃ u, exec (.faddReply p) s = .next u ∧ (u.ash a).joiner.rd f.1 = old.zeroExtend 32 ∧
         (u.ash a).joiner.isPending f.1 = false ∧ (u.ash a).joiner.fadds = v.joiner.fadds.erase f)) ∧
  (∀ (s : State) (p : Packet) (a : Ash) (r : RemoteWrite), Arrives s p a → p.body = .rwrite r → isBlock p.src = false →
     let v := s.ash a
     let w := v.win r.win.toNat
     let at' := w.base.toNat + r.off.toNat
     w.valid = true → w.remote = true →
     (w.isOpen = true → w.epoch = r.epoch → w.kind = 0 → r.acc = false → r.off.toNat + r.words.length ≤ w.size.toNat →
       ∃ u, exec (.rwrite p) s = .next u ∧
         (∀ k x, r.words[k]? = some x →
           spadRaw (u.ash a) (at' + k) = (x.toNat, classCheck w.cls.toNat x.toNat)) ∧
         (∀ q, q < at' ∨ at' + r.words.length ≤ q → spadRaw (u.ash a) q = spadRaw v q) ∧
         (u.ash a).joiner = v.joiner ∧ (u.ash a).windows = v.windows) ∧
     (w.isOpen = false ∨ w.epoch ≠ r.epoch → ∃ u, exec (.rwrite p) s = .next u ∧ (u.ash a).spad = v.spad ∧
       answer p (.nak 2 (.chan r.chan)) ∈ u.sent))

/-- R329, R330, R347: an accepted CONNECT of a tuple channel sets its endpoint's peer and is answered with the endpoint's
free room; the reply that a CONN waits for connects its entry and writes the fields its kind has; a refusal for an old epoch marks its entry STALE and
raises EPOCH_STALE. -/
def Obligations.PacketConnections : Prop :=
  ∀ (s : State) (p : Packet) (a : Ash), Arrives s p a →
    let v := s.ash a
    (∀ ep win tlen entry job, p.body = .connect false 0 ep win tlen entry job →
      connectStatus v 0 ep win tlen job = 0 → ∃ u, exec (.connect p) s = .next u ∧
        ((u.ash a).ep ep.toNat).peer = p.src ∧ ((u.ash a).ep ep.toNat).pchan = entry ∧
        ((u.ash a).ep ep.toNat).peerValid = true ∧ ((u.ash a).ep ep.toNat).flits = (v.ep ep.toNat).flits ∧
        answer p (.connReply 0 entry 0 0 0 0 (BitVec.ofNat 16 (4 - (v.ep ep.toNat).flits.length))) ∈ u.sent) ∧
    (∀ i entry win epoch size wr credit, p.body = .connReply 0 entry win epoch size wr credit →
      sendRunning v = some i → i.wait = .connReply → bits (iw i 6) 0 4 = entry.toNat → ∃ u, exec (.connReply p) s = .next u ∧
        ((u.ash a).chan entry.toNat).conn = true ∧ ((u.ash a).chan entry.toNat).stale = false ∧
        ((u.ash a).chan entry.toNat).dest = p.src ∧
        (let e := v.chan entry.toNat
         let f := (u.ash a).chan entry.toNat
         (e.kind = 0 → f.credit = credit ∧ f.win = e.win ∧ f.epoch = e.epoch ∧ f.size = e.size ∧ f.wr = e.wr) ∧
         (e.kind = 2 → f.win = win ∧ f.epoch = epoch ∧ f.size = size ∧ f.credit = e.credit ∧ f.wr = e.wr) ∧
         (e.kind ≠ 0 → e.kind ≠ 2 → f.win = win ∧ f.epoch = epoch ∧ f.size = size ∧ f.wr = wr ∧ f.credit = credit))) ∧
    (∀ n, p.body = .nak 2 (.chan n) → ∃ u, exec (.nak p) s = .next u ∧ ((u.ash a).chan n.toNat).stale = true ∧
      ((u.ash a).chan n.toNat).conn = (v.chan n.toNat).conn ∧ u.fld (.ash a) 0x10 1 1 = 1)

/-- R354, R355: a fence register takes the fields written and is in force, with APPLIED set, from its application on; a
signal from outside into a rectangle in force does not arrive and is refused with code 4.

R360, R361, R363: where RACC_CMD.BUSY does not stand for the other access, a router read puts the register RACC_ADDR names into RACC_DATA, a router write puts RACC_DATA into an
outbound word, both with ERR and BUSY clear; an address that names none sets ERR, and a row of the grid whose router answers with ERR is
retired (R633). -/
def Obligations.FencesAndRouters : Prop :=
  (∀ (s : State) (die n : Nat) (x : Word), DieRuns s die → n < 16 →
     (∃ u, exec (.fenceWrite die n x) s = .next u ∧ u.reg (.mor die) (0x80 + 4 * n) = x &&& 0x8F1F0F0F ∧
       u.fld (.mor die) 0x70 n 1 = 0 ∧ u.dies = s.dies) ∧
     (∃ u, exec (.fenceApply die n) s = .next u ∧
       (u.die die).fences[ix 16 n (by decide)] = s.reg (.mor die) (0x80 + 4 * n) ∧
       u.fld (.mor die) 0x70 n 1 = bits (s.reg (.mor die) (0x80 + 4 * n)) 31 1 ∧
       (∀ m, m < 16 → m ≠ n → (u.die die).fences[ix 16 m (by decide)] = (s.die die).fences[ix 16 m (by decide)])) ∧
     (∀ p a peg inc job, p.body = .psig peg inc job → ashOf s p.dest = some a → routeUp s p = true →
       fencedOff s p = true → exec (.psigPacket p) s = .next ((s.take p).routerNak p 4) ∧
         ((s.take p).routerNak p 4).ash a = s.ash a ∧
         answer p (.nak 4 .psig) ∈ ((s.take p).routerNak p 4).net)) ∧
  (∀ (s : State) (die : Nat), DieRuns s die →
     let p := Page.mor die
     let reads := s.fld p 0x68 1 2 ≠ 3
     let writes := s.fld p 0x68 0 1 = 0 ∨ s.fld p 0x68 2 1 = 0
     (∀ a k, raccTarget s die = some (a, k) → k < 0x40 → raccLate s die = false →
       (reads → ∃ u, exec (.raccRead die) s = .next u ∧ u.reg p 0x64 = entryWord ((s.ash a).chan (k / 4)) (k % 4) ∧
         u.fld p 0x68 3 1 = 0 ∧ u.fld p 0x68 2 1 = 0 ∧ u.ashlars = s.ashlars) ∧
       (writes → ∃ u, exec (.raccWrite die) s = .next u ∧
         (u.ash a).chan (k / 4) = setEntryWord ((s.ash a).chan (k / 4)) (k % 4) (s.reg p 0x64) ∧ u.fld p 0x68 3 1 = 0 ∧
         u.fld p 0x68 2 1 = 0 ∧ ∀ m, m < 16 → m ≠ k / 4 → (u.ash a).chan m = (s.ash a).chan m)) ∧
     (raccTarget s die = none → (s.mas.ready = false ∨ 98 ≤ s.fld p 0x60 7 7) →
       (reads → ∃ u, exec (.raccRead die) s = .next u ∧ u.fld p 0x68 3 1 = 1 ∧ u.reg p 0x64 = s.reg p 0x64 ∧
         u.ashlars = s.ashlars) ∧
       (writes → ∃ u, exec (.raccWrite die) s = .next u ∧ u.fld p 0x68 3 1 = 1 ∧ u.ashlars = s.ashlars)) ∧
     (let a : Ash := ⟨die, s.fld p 0x60 0 7, s.fld p 0x60 7 7⟩
      let u := raccEnd s die true
      raccTarget s die = none → s.mas.ready = true → a.row < 98 → (retiredRows s die).contains a.row = false →
       let t := retireRow (u.setDie die { u.die die with raccAt := none }) die a.row (some (a, failCode s a))
       (reads → exec (.raccRead die) s = .next t) ∧ (writes → exec (.raccWrite die) s = .next t)))

/-! ### The Keystone and Plumb -/

/-- R174 to R176, R178, R187: a request of rank 0 takes a free context, at once or out of the FIFO, and is granted; one that
finds its reduction open is dropped; a flit of
the granted rank combines its values, each rounded once; a release frees its context only when it has drained, and the loads that waited for it go
on.

R174: rank 0's values are taken as they are; a later rank's are added to the sums, one rounding each, in rank order,
and the other elements stay. -/
def Obligations.Keystone : Prop :=
  (∀ (s : State) (die c : Nat) (p : Packet), DieRuns s die →
     let k := s.key die
     (∀ r inst, ArrivesBlock s p 7 die inst → p.body = .kreq r → r.rank = 0 → ctxOf k r = none → k.fifo = [] →
       freeCtx k = some c → exec (.kreq p) s = .next (keyAdmit (s.take p) die c p r)) ∧
     (∀ r rest, k.fifo = p :: rest → p.body = .kreq r →
       (ctxOf k r = none → freeCtx k = some c →
         exec (.keystoneAdmit die) s = .next (keyAdmit (s.setKey die { k with fifo := rest }) die c p r)) ∧
       (ctxOf k r = some c →
         exec (.keystoneAdmit die) s = .next (keyDrop0 (s.setKey die { k with fifo := rest }) die c p r))) ∧
     (∀ ep x yx, ArrivesBlock s p 7 die c → p.body = .chan ep x yx → (s.kctx die c).used = true → (s.kctx die c).granted = true →
       let y := keyCombine (s.kctx die c) ([0, 1, 2, 3].map fun j => BitVec.ofNat 32 (x.toNat / 2 ^ (32 * j)))
       y.got < (s.kctx die c).req.nelem.toNat → exec (.keystonePartial p) s = .next ((s.take p).setKctx die c y)) ∧
     (c < 64 → s.fld (.key die) 0x64 12 1 = 0 → (s.kctx die c).used = true → ∃ u, exec (.ctxRelease die c) s = .next u ∧
       (u.kctx die c).used = false ∧ (u.kctx die c).releasing = true ∧ u.fld (.key die) 0x64 12 1 = 1) ∧
     (c < 16 → s.fld (.key die) 0x64 12 1 = 0 → exec (.ctxReleaseRect die c) s =
       .next (keyReleaseRect (s.setFld (.key die) 0x64 8 4 c) die c)) ∧
     (s.fld (.key die) 0x64 12 1 = 1 →
       let u := keyDrained s die
       exec (.releaseDrainEnd die) s = .next (loadsGoOn u.writeDue die) ∧
       (s.mas.loads.all (fun q => !(q.active && q.draining && q.die == die)) = true →
         exec (.releaseDrainEnd die) s = .next u.writeDue) ∧
       (s.mas.keyHeld.all (fun x => !x.due) = true → u.writeDue = u) ∧
       u.fld (.key die) 0x64 12 1 = 0 ∧
       ∀ m, (u.kctx die m).releasing = false ∧ (u.kctx die m).used = (s.kctx die m).used)) ∧
  (∀ (x : KeyCtx) (vals : List Word),
     let n := min 4 (x.req.nelem.toNat - x.got)
     let y := keyCombine x vals
     y.got = x.got + n ∧ y.req = x.req ∧
     (x.next = 0 → y.sums = x.sums ++ (List.range n).map fun j => vals.getD j 0) ∧
     (x.next ≠ 0 → x.got + n ≤ x.sums.length → y.sums.length = x.sums.length ∧
       (∀ j, j < n → y.sums.getD (x.got + j) 0 = rne32Code (Val.add (fp32 (x.sums.getD (x.got + j) 0)) (fp32 (vals.getD j 0)))) ∧
       ∀ k, k < x.got ∨ x.got + n ≤ k → y.sums.getD k 0 = x.sums.getD k 0))

/-- R217, R219, R356: a Plumb sample and a saturation count reach their slot; a send engine blocked beyond its limit is
recorded once and raises STALL.

R222, R225: a snapshot moves a slot's live counts to its snapshot and clears them, a clear clears them and the alarm's
count; a legal bay or configuration write makes the slot busy, and its distribution ends that. -/
def Obligations.Plumb : Prop :=
  (∀ (s : State) (a : Ash), AshRuns s a →
     let v := s.ash a
     let k := v.slot.slot
     (∀ bins rest, v.plumbDone = bins :: rest →
       let x := slotSample (s.slot a.die k) bins v.plumbSkipped
       x.alarmCount = 0 ∨ x.alarm = true →
       exec (.plumbSampleArrive a) s =
         .next ((s.setAsh a { v with plumbDone := rest, plumbSkipped := 0 }).setSlot a.die k x)) ∧
     (∀ c rest, v.satOut = c :: rest → 20 ≤ satPlace c ∨ (s.slot a.die k).satEn = false →
       let x := s.slot a.die k
       exec (.satCountArrive a) s = .next ((s.setAsh a { v with satOut := rest }).setSlot a.die k { x with
         live := bumpLive x.live (satPlace c) 1, satSum := if satPlace c < 20 then x.satSum + 1 else x.satSum })) ∧
     (bit v.sdBlock 0 = true → v.sdRaised = false →
       ∃ u, exec (.stall a) s = .next u ∧ (u.ash a).sdRaised = true ∧ u.fld (.mor a.die) 0x4C 31 1 = 1 ∧
         u.fld (.mor a.die) 0x10 1 1 = 1)) ∧
  (∀ (s : State) (die k : Nat) (w : Writer) (x : Word), DieRuns s die → k < 33 →
     let y := s.slot die k
     exec (.slotSnap die k) s = .next (s.setSlot die k { y with snap := y.live, live := Vector.replicate 24 0 }) ∧
     exec (.slotClear die k) s = .next (s.setSlot die k { y with
       live := Vector.replicate 24 0, alarmLive := 0, satSum := 0 }) ∧
     (s.fld (.plb die) 0x40 0 6 = k → y.busy = false → exec (.slotConfigWrite w die 0x48 x) s =
       .next (s.setSlot die k { y with
         oldBay := y.bay, busy := true, plumbEn := bit x 0 && decide (k < 32)
         rateLog2 := BitVec.ofNat 5 (min 20 (max 8 (bits x 1 5))) })) ∧
     (y.busy = true → ∃ u, exec (.slotConfigDone die k) s = .next u ∧ (u.slot die k).busy = false ∧
       (u.slot die k).bay = y.bay ∧ (u.slot die k).live = y.live ∧
       ∀ col lrow row, col < 128 → lrow < 96 → physicalRow s die lrow = some row → inRect y.bay col lrow = true →
         (u.ash ⟨die, col, row⟩).slot = ⟨k, y.plumbEn, y.rateLog2.toNat⟩))

/-! ### The tiers and their Planes -/

/-- R404 to R407, R409: a request that its controller serves is answered on its own virtual channel; a write stores whole
words with fresh check bits, acknowledges them, and leaves every other word of the tier alone; a lookup that finds its
segment answers the frame descriptor.

R407, R413: a request that finds its controller's queues empty is served at once and takes its slots, each counted in the
window; one that finds the queue
of its class full waits. A slot goes to the oldest ready class S request while class S is within its share of the window,
and else to the next ready source in turn, its class S request before its class T one; of a source at most REQ_MAX
requests are admitted, and no request is ready while an earlier one to its line stands in the queues. -/
def Obligations.TierRequests : Prop :=
  ∀ (s : State) (p : Packet) (die : Nat) (c : Ctl),
    let q := s.tierQueue die c
    let idle := q.reqs = []
    let used := if q.slot = 0 then 0 else q.sUsed
    let share := s.fld (ctlPage die c) 0x40 0 4
    let ss := readyOf s die c true
    let ts := readyOf s die c false
    (ArrivesTier s p die c → idle → ∀ r, p.body = .mread r →
      requestStatus (s.take p) die c r.fd r.off.toNat (r.nw.toNat + 1) = .ok →
      exec (.mreqRead p) s = .next (serveRead ((s.take p).onTierQueue die c fun q =>
        { (q.steps (s.asS p) (slotCount (r.off.toNat / 8) (r.nw.toNat + 1))) with turn := p.src }) die c p r)) ∧
    (ArrivesTier s p die c → idle → ∀ r, p.body = .mread r →
      requestStatus (s.take p) die c r.fd r.off.toNat (r.nw.toNat + 1) ≠ .ok →
      exec (.mreqRead p) s = .next (serveRead (s.take p) die c p r)) ∧
    (ArrivesTier s p die c → idle → ∀ r, p.body = .plane r → (s.plane die c).items.length < 64 →
      ∃ u, exec (.mreqRead p) s = .next u ∧ (u.plane die c).items = (s.plane die c).items ++ [p]) ∧
    (ArrivesTier s p die c → queueDepth (s.asS p) ≤ (s.queued die c (s.asS p)).length →
      (∀ r, p.body = .mread r ∨ p.body = .plane r → exec (.mreqRead p) s = .next s) ∧
      (∀ r unit data keep, p.body = .mwrite r unit data keep → exec (.mwrite p) s = .next s)) ∧
    (∀ x r, ss = x :: r → used < share → assignSlot s die c = some (true, x)) ∧
    (assignSlot s die c = none ↔ ss = [] ∧ ts = []) ∧
    (∀ b x, assignSlot s die c = some (b, x) → ss = [] ∨ share ≤ used →
      (x ∈ if b then ss else ts) ∧ (b = false → ∀ y, y ∈ ss → y.src ≠ x.src) ∧
      (q.turn.toNat < x.src.toNat → ∀ y, y ∈ ss ++ ts → y.src.toNat ≤ q.turn.toNat ∨ x.src.toNat ≤ y.src.toNat) ∧
      (x.src.toNat ≤ q.turn.toNat → ∀ y, y ∈ ss ++ ts → y.src.toNat ≤ q.turn.toNat ∧ x.src.toNat ≤ y.src.toNat)) ∧
    (∀ (n : Nat) (room : Bool) (l : List Packet),
      (∀ src : Dest, ((readyIn n room [] l).filter fun y => decide (y.src = src)).length ≤ n) ∧
      (∀ x y, [x, y].Sublist (readyIn n room [] l) → memLine x ≠ none → memLine x ≠ memLine y)) ∧
    (ArrivesTier s p die c → idle → ∀ r data, p.body = .mwrite r false data [] → data.length = r.nw.toNat + 1 →
      requestStatus (s.take p) die c r.fd r.off.toNat (r.nw.toNat + 1) = .ok →
      ∃ u, exec (.mwrite p) s = .next u ∧ replyTo p (.mack r.tag 0) ∈ u.sent ∧
        (∀ k x, data[k]? = some x → u.tierRaw die (fdTier r.fd) (fdFrame r.fd) (r.off.toNat / 8 + k) =
          (x.toNat, checkBits cols72 x.toNat)) ∧
        (∀ f w, w < 2 ^ 18 → f ≠ fdFrame r.fd ∨ w < r.off.toNat / 8 ∨ r.off.toNat / 8 + data.length ≤ w →
          u.tierRaw die (fdTier r.fd) f w = s.tierRaw die (fdTier r.fd) f w)) ∧
    (ArrivesBlock s p 3 die 0 → ∀ tag handle seg job fd, p.body = .mlookup tag handle seg job →
      ((s.take p).lookup die job handle seg.toNat).1 = .found fd → exec (.mreqLookup p) s =
        .next (((s.take p).lookup die job handle seg.toNat).2.send (replyTo p (.mresp tag 0 0 0 fd []))))

/-- R411, R412, R416, R424: while TC_SCRUB.EN is set a patrol reads its controller's next word, where its devices can be
read; a decay sweep halves every
access counter; a released frame is free again after its reuse delay.

R47, R418 to R423, R434: below MAX_MIG the next migration that can start does, an ordered move that has lost its segment
having ended before; a running one switches, once no accepted request to its source is left, or is given up by its place in
the list; while the Mason restarts none starts and none switches;
HOD.CMD with GO orders a move that its tensor's range and a free frame of the target allow, as its fields stand then. -/
def Obligations.TierMoves : Prop :=
  (∀ (s : State) (die tier f : Nat) (c : Ctl), DieRuns s die →
     let total := patrolWords s die c
     let n := (s.die die).patrol[ctlIx c] % total
     (s.fld (ctlPage die c) 0x44 0 1 = 1 → 0 < total → scrubbable s die c = true → exec (.patrolScrub die c) s =
       .next ((((s.setDie die { s.die die with patrol := (s.die die).patrol.set (ctlIx c) ((n + 1) % total) }).slotsT die c
         (ctlDest die c) 1).tcSlots die c 0x60 1).tierRead die (ctlTier c) (patrolPlace c n).1 (patrolPlace c n).2 1 .scrub).2) ∧
     (scrubbable s die c = false → exec (.patrolScrub die c) s = .next s) ∧
     (∃ u, exec (.decaySweep die) s = .next u ∧ (u.frame die tier f).heat0 = (s.frame die tier f).heat0 >>> 1 ∧
       (u.frame die tier f).heat1 = (s.frame die tier f).heat1 >>> 1 ∧
       (u.frame die tier f).gen = (s.frame die tier f).gen ∧ (u.frame die tier f).use = (s.frame die tier f).use) ∧
     (1 ≤ tier → tier ≤ 3 → (s.frame die tier f).use = .cooling → ∃ u, exec (.frameReuse die tier f) s = .next u ∧
       (u.frame die tier f).use = .free ∧ (u.frame die tier f).gen = (s.frame die tier f).gen ∧
       ∀ g, g ≠ f → u.frame die tier g = s.frame die tier g)) ∧
  (∀ (s : State) (die : Nat), DieRuns s die →
     (let t := settleCmd s die
      (s.mas.ready = true → (t.die die).hod.moves.length < maxMig t die →
        (∀ m, nextMove t die = some m →
          exec (.migrationStart die) s = .next (beginMove t die m) ∧
          roomFor t m.1 die m.2.2.1 m.2.2.2.1 = true ∧ (firstFree t m.2.2.2.1 m.2.2.1).isSome = true) ∧
        (nextMove t die = none → exec (.migrationStart die) s = .next t)) ∧
      (s.mas.ready = false → exec (.migrationStart die) s = .next t) ∧
      ((s.die die).hod.order = none → t = s)) ∧
     (∀ i m, (s.die die).hod.moves[i]? = some m →
       (s.mas.ready = true → frameAsked s m.src = false → exec (.migrationSwitch die i) s = .next (switchMove s die m)) ∧
       (s.mas.ready = false ∨ frameAsked s m.src = true → exec (.migrationSwitch die i) s = .next s) ∧
       exec (.migrationAbort die i) s = .next (abortMove s die m)) ∧
     (∀ x job handle seg t, bit x 6 = true → bit x 5 = false → s.fld (.hod die) 0x54 7 1 = 0 →
       let src := s.reg (.hod die) 0x50
       let tier := bits x 0 2
       fdDie src = die → fdTier src ≠ 0 → (s.frame die (fdTier src) (fdFrame src)).migrating = false →
       (s.frame die (fdTier src) (fdFrame src)).use = .seg job handle seg → s.tensor die job handle = .found t →
       tier ≠ 0 → t.tmin ≤ tier → tier ≤ t.tmax → t.pin = false ∨ t.pinDie = bits x 2 3 → bits x 2 3 < s.part.dies →
       freeFrames s (bits x 2 3) tier ≠ 0 → ∃ u, exec (.hodCmdGo die x) s = .next u ∧ u.fld (.hod die) 0x54 7 1 = 1 ∧
         u.fld (.hod die) 0x54 8 3 = 0 ∧ u.fld (.hod die) 0x54 0 6 = bits x 0 6 ∧
         (u.die die).hod.order = some ⟨src, .seg job handle seg, tier, some (bits x 2 3)⟩))

/-- R426 to R429, R432: the service of a T3 socket: a DIMM is put in, readmitted, trained and cleared before it serves;
one in service is evacuated before its rails go off and it is taken out; one lost is never safe. -/
def Obligations.SocketService : Prop :=
  ∀ (s : State) (die : Nat) (d : Dimm), Watched s die →
    let k := (s.die die).socket
    let goes := fun (c : Instr) (v : Svc) => ∃ u, exec c s = .next u ∧ (u.die die).socket.svc = v
    (k.svc = .absent → ∃ u, exec (.dimmPresent die d) s = .next u ∧ (u.die die).socket.svc = .present ∧
      (u.die die).socket.dimm = some d) ∧
    (DieRuns s die → k.svc = .present → ∃ u, exec (.dimmReadmit die) s = .next u ∧ (u.die die).socket.svc = .training ∧
      (u.die die).socket.power = true ∧ (u.die die).socket.spdRead = true) ∧
    (k.svc = .training → k.dimm = some d → d.ecc = true → d.cap ≠ 0 → 5600 ≤ d.rate.toNat →
      goes (.dimmTrainingDone die true) .init ∧ goes (.dimmTrainingDone die false) .rejected) ∧
    (k.svc = .init → ∃ u, exec (.dimmInitDone die true) s = .next u ∧ (u.die die).socket.svc = .online ∧
      ∀ f w, u.tierRaw die 3 f w = (0, 0)) ∧
    (DieRuns s die → k.svc = .online → ∃ u, exec (.dimmEvacuate die) s = .next u ∧
      ((u.die die).socket.svc = .evacuating ∨ (u.die die).socket.svc = .empty)) ∧
    (DieRuns s die → k.svc = .evacuating → goes (.dimmCancel die) .online) ∧
    (k.svc = .empty → ∃ u, exec (.dimmSafe die) s = .next u ∧ (u.die die).socket.svc = .safe ∧
      (u.die die).socket.power = false ∧ (u.die die).socket.indicator = true) ∧
    (k.svc = .safe → ∃ u, exec (.dimmRemoved die) s = .next u ∧ (u.die die).socket.svc = .absent ∧
      (u.die die).socket.dimm = none) ∧
    (k.svc = .online → ∃ u, exec (.dimmLost die) s = .next u ∧ (u.die die).socket.svc = .lost ∧
      (u.die die).socket.power = false ∧ u.fld (.dmc die) 0x10 1 1 = 1)

/-- R445 to R452, R463: a trigger of a valid descriptor's job adds to its count; a Plane dispatches its queue and works
through its items, refusing one whose offset is no line; a legal descriptor write to an idle descriptor takes its
fields. -/
def Obligations.Planes : Prop :=
  ∀ (s : State) (die : Nat) (c : Ctl) (p : Packet),
    let pl := s.plane die c
    (ArrivesTier s p die c → ∀ peg inc job, p.body = .psig peg inc job →
      let x := pl.desc peg.toNat
      (x.valid = true → x.job = job → ∃ u, exec (.planeTrigger p) s = .next u ∧
        ((u.plane die c).desc peg.toNat).tcount = x.tcount + inc.zeroExtend 16 ∧
        ((u.plane die c).desc peg.toNat).regs = x.regs) ∧
      (x.valid = false ∨ x.job ≠ job → exec (.planeTrigger p) s = .next ((s.take p).nak p 5))) ∧
    (ArrivesTier s p die c → ∀ tag status nw off fd data, p.body = .mresp tag status nw off fd data →
      exec (.planeItemAnswer p) s = .next (itemAnswer (s.take p) die c tag status off.toNat)) ∧
    (DieRuns s die →
      (pl.disp ≠ none ∨ pl.queue ≠ [] → exec (.planeDispatch die c) s = .next (planeDispatch s die c)) ∧
      (∀ q rest r, pl.items = q :: rest → q.body = .plane r →
        exec (.planeWorkItem die c) s = .next (planeWorkItem s die c) ∧
        (r.off.toNat % 512 ≠ 0 → (s.tierQueue die c).reqs = [] →
          ∃ u, exec (.planeWorkItem die c) s = .next u ∧ (u.plane die c).items = rest ∧
            replyTo q (.mresp r.tag 3 r.nw r.off 0 []) ∈ u.sent ∧ u.fld (ctlPage die c) 0x10 1 1 = 1)) ∧
      (∀ off x, 0x44 ≤ off → off ≤ 0x68 → off % 4 = 0 →
        let n := s.fld (.pln die c) 0x40 0 6
        let k := (off - 0x44) / 4
        let y := { pl.desc n with regs := (pl.desc n).regs.set (ix 10 k (by decide)) (x &&& BitVec.ofNat 32 (descMask k)) }
        pl.busy n = false → descBad y = false → ∃ u, exec (.plnDescWrite die c off x) s = .next u ∧
          ((u.plane die c).desc n).word k = x &&& BitVec.ofNat 32 (descMask k) ∧
          ((u.plane die c).desc n).tcount = (pl.desc n).tcount ∧
          ∀ m, m < 64 → m ≠ n → (u.plane die c).desc m = pl.desc m))

/-- R259: a stored word's check bits are its bits 64 to 71; the columns of the (72, 64) code, and what a syndrome says: 0
no error, a column its data bit in error, a single bit its check bit in error with the data right, any other
uncorrectable. So a single flipped bit of a stored word is corrected, and two are found; R51's code over a half does
the same. -/
def Obligations.ErrorCorrection : Prop :=
  (∀ (v : Ashlar) (w data check : Nat), data < 2 ^ 64 → check < 256 →
    spadRaw v w = (mreadN v.spad (9 * w) 9 % 2 ^ 64, mreadN v.spad (9 * w) 9 / 2 ^ 64) ∧
    spadRaw (spadPut v w data check) w = (data, check)) ∧
  (∀ (r : Run) (rng cls w x : Nat), classDecode cls (spadRaw r.v w).1 (spadRaw r.v w).2 = .corrected x →
    (readPhys r rng cls w).1 = x ∧ (readPhys r rng cls w).2.v.writeBacks =
      r.v.writeBacks ++ [⟨w, BitVec.ofNat 72 (x + checkBits cols72 x * 2 ^ 64)⟩]) ∧
  (cols72.take 56 = (List.range 256).filter (fun v => popcount 8 v == 3) ∧
    cols72.drop 56 = [0x1F, 0x2F, 0x37, 0x3B, 0x3D, 0x3E, 0x4F, 0x57]) ∧
  (∀ data check : Nat, data < 2 ^ 64 → check < 256 →
    let syn := checkBits cols72 data ^^^ check
    (syn = 0 → secded cols72 8 data check = .clean) ∧
    (∀ i, i < 64 → syn = cols72.getD i 0 → secded cols72 8 data check = .corrected (data ^^^ 2 ^ i)) ∧
    (popcount 8 syn = 1 → secded cols72 8 data check = .corrected data) ∧
    (syn ≠ 0 → popcount 8 syn ≠ 1 → syn ∉ cols72 → secded cols72 8 data check = .ue)) ∧
  (∀ data j : Nat, data < 2 ^ 64 → j < 64 → (checkBits cols72 data).testBit (j % 8) =
    ((List.range 64).foldl (fun b i => b ^^ (data.testBit i && (cols72.getD i 0).testBit (j % 8))) false)) ∧
  (∀ data i k : Nat, data < 2 ^ 64 → i < 64 → k < 64 → i ≠ k →
    let c := checkBits cols72 data
    secded cols72 8 data c = .clean ∧
    secded cols72 8 (data ^^^ 2 ^ i) c = .corrected data ∧
    secded cols72 8 data (c ^^^ 2 ^ (i % 8)) = .corrected data ∧
    secded cols72 8 (data ^^^ 2 ^ i ^^^ 2 ^ k) c = .ue ∧
    secded cols72 8 (data ^^^ 2 ^ i) (c ^^^ 2 ^ (k % 8)) = .ue ∧
    (i % 8 ≠ k % 8 → secded cols72 8 data (c ^^^ 2 ^ (i % 8) ^^^ 2 ^ (k % 8)) = .ue)) ∧
  (∀ data i k : Nat, data < 2 ^ 32 → i < 32 → k < 32 → i ≠ k →
    let c := checkBits cols39 data
    secded cols39 7 data c = .clean ∧
    secded cols39 7 (data ^^^ 2 ^ i) c = .corrected data ∧
    secded cols39 7 data (c ^^^ 2 ^ (i % 7)) = .corrected data ∧
    secded cols39 7 (data ^^^ 2 ^ i ^^^ 2 ^ k) c = .ue ∧
    secded cols39 7 (data ^^^ 2 ^ i) (c ^^^ 2 ^ (k % 7)) = .ue)

/-! ### The Ethernet ports -/

/-- R36, R505, R507 to R520: a good frame on a port that is up, whose program ends, whose fields lie in their ranges and whose
key is found, becomes the event of its group's queue with the next sequence number, stamped with the time base as it stood when the frame
began; on an 800GbE feed of frames shorter than 70 bytes it may be dropped as BUSY instead, as a free value says (log 216, the
model's choice). A frame the MAC drops is counted and goes no further.

R517, R519, R520: a live route with credit for a whole event of its group sends its flits to its destination and gives
up as many credits; the oldest event that no route has taken is dropped after its time.

R521, R522: the oldest capture record is written into the capture tensor; a returned credit is added up to the number
of records, and one of another job is refused with code 5. -/
def Obligations.IngressEvents : Prop :=
  (∀ (s : State) (die lport : Nat) (frame : List Byte) (age : DWord), DieRuns s die → lport < 4 →
     lportUp s die lport = true →
     let g := (s.die die).ing
     (∀ k, macDrop frame = some k → ∃ u, exec (.frameReceive die lport frame age) s = .next u ∧ (u.die die).ing = g ∧
       (u.die die).eth.tx = (s.die die).eth.tx ∧ u.net = s.net) ∧
     (∀ q e, macDrop frame = none → enabled s (.ing die) = true →
       parseFrame s die lport (frame.take (frame.length - 4)) = .ok q → rangeFail s die q = none →
       g.find (lookupKey s die q.key) = some e → (g.group e.group.toNat).en = true →
       (g.group e.group.toNat).queue.length < 32 → ∃ u, exec (.frameReceive die lport frame age) s = .next u ∧
         (u.die die).ing.table = g.table ∧
         (((u.die die).ing.group e.group.toNat).queue = (g.group e.group.toNat).queue ++
             [⟨e.slot, g.seq, s.time - age, (List.range 16).map fun i => tget q.fields i 0, []⟩] ∧
           (u.die die).ing.seq = g.seq + 1 ∨
          mayCrowd s die frame = true ∧ (u.die die).ing.groups = g.groups ∧ (u.die die).ing.seq = g.seq))) ∧
  (∀ (s : State) (die n : Nat) (e : Event), DieRuns s die →
     let g := (s.die die).ing
     let r := g.route n
     let x := g.group r.group.toNat
     (n < 16 → x.queue.find? (fun q => !q.taken.contains n) = some e → r.entry.valid = true → r.live = true →
       1 + x.nflit.toNat ≤ r.entry.credit.toNat → destMissing s r.entry.dest = false →
       ∃ u, exec (.routeInject die n) s = .next u ∧
         u.net = s.net ++ ((eventFlits e x.nflit.toNat).map fun f =>
           ⟨r.entry.vc, r.entry.dest, blockDest 4 die 0, false, .chan r.entry.ep f r.entry.yx⟩) ∧
         ((u.die die).ing.route n).entry.credit = r.entry.credit - BitVec.ofNat 16 (1 + x.nflit.toNat) ∧
         ((u.die die).ing.group r.group.toNat).delivered = some e.seq) ∧
     (n < 8 → (g.group n).queue.find? (fun q => q.taken.isEmpty) = some e → s.reg (.ing die) 0x2C ≠ 0 →
       ∃ u, exec (.staleDrop die n) s = .next u ∧ ((u.die die).ing.group n).queue = (g.group n).queue.erase e ∧
         u.net = s.net)) ∧
  (∀ (s : State) (die inst : Nat) (p : Packet) (inc : Byte) (job : Half),
     let g := (s.die die).ing
     (DieRuns s die → ∀ w rest, g.capWait = w :: rest → exec (.captureWrite die) s =
       .next (captureSend (s.onIng die fun g => { g with capWait := rest, capNext := g.capNext + 1 }) die
         ⟨g.capNext, BitVec.ofNat 15 g.capNext, w⟩)) ∧
     (ArrivesBlock s p 4 die inst → p.body = .psig 0 inc job →
       (job.toNat = s.fld (.ing die) 0xA4 0 16 → ∃ u, exec (.captureCreditReturn p) s = .next u ∧
         (u.die die).ing.capFree = min (g.capFree + inc.toNat) (s.fld (.ing die) 0xA8 0 24)) ∧
       (job.toNat ≠ s.fld (.ing die) 0xA4 0 16 → exec (.captureCreditReturn p) s = .next ((s.take p).nak p 5))))

/-- R513, R514, R543: a key inserted where its bucket has room is found with its slot and group until it is deleted; an
insert of a present key, and a delete of an absent one, change nothing and say so in RESULT.

R506, R523, R542: PUNT_POP releases the head of the punt buffer; a lock change of a port in use moves UP, sets CHG and
raises LINK_CHANGE; a silent port raises RX_IDLE once. -/
def Obligations.IngressTables : Prop :=
  (∀ (s : State) (die : Nat), DieRuns s die →
     let g := (s.die die).ing
     let key := lkKey s die
     let slot := BitVec.ofNat 16 (s.fld (.ing die) 0x70 0 16)
     let group := BitVec.ofNat 3 (s.fld (.ing die) 0x70 16 3)
     (g.find key = none → (g.table.filter fun e => bucketOf e.key == bucketOf key).length < 4 →
       ∃ u, exec (.lkInsert die) s = .next u ∧ (u.die die).ing.find key = some ⟨key, slot, group⟩ ∧
         u.fld (.ing die) 0x74 4 2 = 0 ∧ ∀ k, k ≠ key → (u.die die).ing.find k = g.find k) ∧
     (∀ e, g.find key = some e →
       (∃ u, exec (.lkInsert die) s = .next u ∧ u.dies = s.dies ∧ u.fld (.ing die) 0x74 4 2 = 1) ∧
       (∃ u, exec (.lkDelete die) s = .next u ∧ (u.die die).ing.find key = none ∧ u.fld (.ing die) 0x74 4 2 = 0 ∧
         ∀ k, k ≠ key → (u.die die).ing.find k = g.find k) ∧
       (∃ u, exec (.lkRead die) s = .next u ∧ u.fld (.ing die) 0x70 31 1 = 1 ∧ u.fld (.ing die) 0x70 0 16 = e.slot.toNat ∧
         u.fld (.ing die) 0x70 16 3 = e.group.toNat ∧ u.dies = s.dies)) ∧
     (g.find key = none → (∃ u, exec (.lkDelete die) s = .next u ∧ u.dies = s.dies ∧ u.fld (.ing die) 0x74 4 2 = 3) ∧
       ∃ u, exec (.lkRead die) s = .next u ∧ u.fld (.ing die) 0x70 31 1 = 0)) ∧
  (∀ (s : State) (die lport : Nat), DieRuns s die → lport < 4 →
     let p := Page.eth die
     (∃ u, exec (.puntPop die) s = .next u ∧ (u.die die).eth.punts = (s.die die).eth.punts.drop 1 ∧ u.regs = s.regs) ∧
     (lportOn s die lport = true → s.fld p 0x44 lport 1 = 0 → ∃ u, exec (.linkChange die lport true) s = .next u ∧
       u.fld p 0x44 lport 1 = 1 ∧ u.fld p 0x44 (4 + lport) 1 = 1 ∧ u.fld p 0x10 1 1 = 1) ∧
     (s.fld p 0x44 lport 1 = 1 → ∃ u, exec (.linkChange die lport false) s = .next u ∧
       u.fld p 0x44 lport 1 = 0 ∧ u.fld p 0x44 (4 + lport) 1 = 1 ∧ u.fld p 0x10 1 1 = 1) ∧
     (s.reg p 0x2C ≠ 0 → lportUp s die lport = true → (s.die die).eth.idle[lpIx lport] = false →
       ∃ u, exec (.rxIdle die lport) s = .next u ∧ (u.die die).eth.idle[lpIx lport] = true ∧ u.fld p 0x10 1 1 = 1))

/-- R525, R528, R529, R531, R534: a whole result leaves its input and is judged; a group's mode waits for the next event, but
SILENT where no event is open (DEDUCED, log 85); a queued frame leaves with its FCS; a management frame of legal length waits and then leaves when its port's queue is
empty.

R532: under COMPARE two equal results of an event release member 0's, two that differ are suppressed with
TWIN_MISMATCH raised, and with UNAVAIL_EN 0 nothing is queued for them; a result that waits alone ends in
TWIN_TIMEOUT. -/
def Obligations.Egress : Prop :=
  (∀ (s : State) (die n : Nat) (x : Word), DieRuns s die →
     let g := (s.die die).egr
     let e := (s.die die).eth
     (∀ f rest, n < 8 → (g.input n).flits = f :: rest → 1 + f.1.toNat / 2 ^ 8 % 4 ≤ (g.input n).flits.length →
       exec (.egressResult die n) s = .next (egressResult s die n)) ∧
     (n < 8 → ∃ u, exec (.grpModeWrite die n x) s = .next u ∧ ((u.die die).egr.group n).written = x &&& 0xFFFF0FFF ∧
       ((u.die die).egr.group n).events = (g.group n).events ∧
       (if bits x 0 2 = 0 ∧ (g.group n).events.any EgrEvent.open' = false then
         ((u.die die).egr.group n).pending = false ∧ ((u.die die).egr.group n).mode = modeSilent
        else ((u.die die).egr.group n).pending = true ∧ ((u.die die).egr.group n).mode = (g.group n).mode)) ∧
     (n < 8 → (g.group n).mode = modeSilent → bit (g.group n).written 4 = true → bits (g.group n).written 16 16 ≠ 0 →
       enabled s (.egr die) = true → exec (.unavailPeriod die n) s = .next (sendUnavail s die n (g.group n).last)) ∧
     (∀ f rest, n < 4 → e.tx[lpIx n] = f :: rest → lportOn s die n = true → ∃ u, exec (.frameTransmit die n) s = .next u ∧
       u.out = s.out ++ [.frame die n (f ++ toLe (crc32 f).toNat 4)] ∧ (u.die die).eth.tx[lpIx n] = rest) ∧
     (let w := s.reg (.eth die) 0x6C
      let bs := (List.range (bits w 0 14)).map fun i => BitVec.ofNat 8 (bits (tget e.mtx (i / 4) 0) (8 * (i % 4)) 8)
      e.mgmt = none → 60 ≤ bits w 0 14 → bits w 0 14 ≤ 2032 → exec (.mtxGo die) s =
       .next (s.onEth die fun e => { e with mgmt := some ⟨bits w 14 2, bs, bit w 16⟩ })) ∧
     (∀ m, e.mgmt = some m → lportOn s die m.lport = true → e.tx[lpIx m.lport] = [] →
       ∃ u, exec (.mgmtTxStart die) s = .next u ∧ (u.die die).eth.mgmt = none ∧
         u.out = s.out ++ [.frame die m.lport (m.bytes ++ toLe (crc32 m.bytes).toNat 4)])) ∧
  (∀ (s : State) (die k : Nat) (e : EgrEvent) (x r : EgrResult), DieRuns s die → k < 8 →
     let g := (s.die die).egr.group k
     e.mode = modeCompare → e.phase = .waiting → x.member = 1 →
     (e.got = [x] → r.member = 0 → x.words = r.words → judgeResult s die k e r =
       releaseResult (endEvent s die k { e with got := [x, r] }) die k e.seq r) ∧
     (e.got = [x] → r.member = 0 → x.words ≠ r.words → bit g.written 4 = false →
       let u := judgeResult s die k e r
       u.fld (.egr die) 0x10 1 1 = 1 ∧ (u.die die).eth.tx = (s.die die).eth.tx ∧ ((u.die die).egr.group k).last = e.seq) ∧
     (e.got = [x] → g.events.find? (fun y => y.seq == e.seq) = some e → bit g.written 11 = false → bit g.written 4 = false →
       ∃ u, exec (.twinWaitExpiry die k e.seq) s = .next u ∧ u.fld (.egr die) 0x10 1 1 = 1 ∧
         (u.die die).eth.tx = (s.die die).eth.tx))

/-- R536, R539: a write of TIM.SET steps the time, one of TIM.ADJ within 1,000 ns slews it, and the end of the slew leaves
the time moved by all of it; a pulse outside its width raises PPS_BAD; holdover begins once. -/
def Obligations.TimeBase : Prop :=
  ∀ (s : State) (x : Word) (width since : Nat), powered s = true →
    (∃ u, exec (.timSet x) s = .next u ∧ u.time = x ++ tget s.loHeld (.tim, 0x48) 0 ∧ u.fld .tim 0x60 3 1 = 1) ∧
    (x.toInt.natAbs ≤ 1000 → ∃ u, exec (.timAdj x) s = .next u ∧ u.slew = s.slew + x.toInt ∧ u.time = s.time ∧
      u.fld .tim 0x60 4 1 = 1) ∧
    (1000 < x.toInt.natAbs → ∃ u, exec (.timAdj x) s = .next u ∧ u.slew = s.slew ∧ u.time = s.time ∧
      u.fld .tim 0x60 4 1 = s.fld .tim 0x60 4 1) ∧
    (s.fld .tim 0x60 4 1 = 1 → ∃ u, exec .slewComplete s = .next u ∧ 
      u.time = s.time + BitVec.ofInt 64 ((1024 * s.slew.natAbs - s.slewAcc : Nat) + s.slew) ∧ u.slew = 0 ∧ u.fld .tim 0x60 4 1 = 0) ∧
    (s.fld .pin 0x68 2 1 = 0 →
      (width < 1000 ∨ 500000000 < width → ∃ u, exec (.ppsPulse width since) s = .next u ∧ u.fld .tim 0x60 2 1 = 1 ∧
        u.fld .tim 0x60 0 1 = 0 ∧ u.fld .tim 0x10 1 1 = 1) ∧
      (1000 ≤ width → width ≤ 500000000 → s.ppsFirst = true → 999000000 ≤ since → since ≤ 1001000000 →
        ∃ u, exec (.ppsPulse width since) s = .next u ∧ u.ppsGood = s.ppsGood + 1 ∧ u.time = s.time ∧
          (s.fld .tim 0x60 1 1 = 0 → u.fld .tim 0x60 0 1 = 1))) ∧
    (s.fld .tim 0x60 1 1 = 0 → ∃ u, exec .ppsHoldover s = .next u ∧ u.fld .tim 0x60 1 1 = 1 ∧ u.fld .tim 0x60 0 1 = 0 ∧
      u.ppsFirst = false ∧ u.fld .tim 0x10 1 1 = 1)

/-! ### The Jeham ports -/

/-- R547, R550, R551, R554 to R556, R567: an open port accepts a good frame of the SEQ it expects, with up to 12 byte errors a
block, which it counts, and refuses one with more; it sends its unacknowledged frames again after its time, while replays are
left, but not where a NAK has just had them sent; it goes down, trains, fails, also where a retrain ended in the millisecond of its
time limit, and retrains; a heartbeat goes out, and a missing one raises JHL_PEER_LOST once. -/
def Obligations.JehamLinks : Prop :=
  ∀ (s : State) (d k : Nat) (f : JFrame) (serial : DWord) (peer : BitVec 4) (expected : BitVec 12), PortRuns s d k →
    let x := s.jhl d k
    let p := Page.jhl d k
    (jhlOpen s d k = true →
      (∀ errors : List Nat, f.seq = x.rxSeq → (errors.all fun e => e == 0) = true →
        exec (.jhlFrameReceive d k true errors f) s = .next (jhlSend (jhlAccept s d k f) d k)) ∧
      (∀ errors : List Nat, f.seq = x.rxSeq → (errors.all fun e => decide (e ≤ 12)) = true →
        (errors.any fun e => decide (0 < e)) = true → exec (.jhlFrameReceive d k true errors f) s =
          .next (jhlSend (jhlAccept (s.count16 p 0x54 0 1) d k f) d k)) ∧
      (∀ (good : Bool) (errors : List Nat), (errors.any fun e => decide (12 < e)) = true →
        exec (.jhlFrameReceive d k good errors f) s = .next (jhlSend (jhlRefuse s d k) d k)) ∧
      (exec (.jhlFrameReceive d k false [] f) s = .next (jhlSend (jhlRefuse s d k) d k)) ∧
      (x.replay ≠ [] → x.replayed ≠ some true → x.barren < max 1 (s.fld p 0x50 12 4) → ∃ u, exec (.replayTimeout d k) s = .next u ∧
        u.out = s.out ++ x.replay.map (.jeham d k ·) ∧ (u.jhl d k).barren = x.barren + 1 ∧
        (u.jhl d k).replay = x.replay) ∧
      (x.replay ≠ [] → x.replayed = some true →
        exec (.replayTimeout d k) s = .next (s.onJhl d k fun x => { x with replayed := none })) ∧
      (∃ u, exec (.jhlLinkDown d k) s = .next u ∧ jhlState u d k = 1 ∧ u.fld p 0x10 1 1 = 1 ∧ u.jhl d k = x) ∧
      exec (.heartbeatSend d k) s = .next (jhlSend (s.onJhl d k fun x => { x with lms := x.lms ++ [1] }) d k) ∧
      (x.lost = false → ∃ u, exec (.jhlPeerLost d k) s = .next u ∧ (u.jhl d k).lost = true ∧ u.fld p 0x10 1 1 = 1)) ∧
    (jhlState s d k = 1 ∨ x.retrains = true → ∃ u, exec (.jhlTrained d k serial peer expected) s = .next u ∧ jhlState u d k = 2 ∧
      u.pair p 0x44 = serial.toNat ∧ u.fld p 0x4C 0 4 = peer.toNat ∧ (u.jhl d k).wasUp = true ∧
      (u.jhl d k).lost = x.lost ∧ jhlOpen u d k = true) ∧
    (jhlState s d k = 1 ∧ x.wasUp = true ∨ jhlJustUp s d k = true → ∃ u, exec (.jhlFail d k) s = .next u ∧ jhlState u d k = 4 ∧
      (u.jhl d k).held = [] ∧ (u.jhl d k).replay = [] ∧ u.net = s.net.filter (fun q => q.dest != jhlDest d k) ∧
      u.fld p 0x10 1 1 = 1) ∧
    (jhlState s d k = 4 → ∃ u, exec (.jhlRetrain d k) s = .next u ∧ jhlState u d k = 1 ∧
      .jehamTraining d k s.serial (2 * d + k) x.rxSeq ∈ u.out)

/-- R557 to R560: a packet that its tunnel admits is held for the link with the peer's address in the place of the local
one, a channel flit as far as its tunnel has credit; one that it does not admit is refused; a refusal of a packet the
port injected is counted and raised.

R559, R561 to R563: a credit that came over the link lets its tunnel go on; a trigger of a valid context's job adds to
its count, and a context whose count holds starts its round; a segment in order is summed with the rank's own line and
sent on, or ends at its rank; one that is poisoned or out of order faults its context. -/
def Obligations.JehamTraffic : Prop :=
  (∀ (s : State) (p : Packet) (d k : Nat), ArrivesBlock s p 5 d k →
     let x := s.jhl d k
     (∀ r, p.body = .rwrite r →
       let t := x.tunnel 0 r.win.toNat
       (t.valid = true → r.epoch = t.lepoch → r.off.toNat + r.words.length ≤ t.size.toNat → exec (.tunnelRwrite p) s =
         .next (jhlHold (s.take p) d k (.pkt { p with
           dest := t.rdest, body := .rwrite { r with win := BitVec.ofNat 4 t.ridx.toNat, epoch := t.repoch } }))) ∧
       (t.valid = false ∨ r.epoch ≠ t.lepoch → exec (.tunnelRwrite p) s = .next ((s.take p).nak p 2))) ∧
     (∀ peg inc job, p.body = .psig peg inc job → 16 ≤ peg.toNat →
       let t := x.tunnel 2 (peg.toNat - 16)
       t.valid = true → job = t.job → exec (.tunnelPsig p) s =
         .next (jhlHold (s.take p) d k (.pkt { p with dest := t.rdest, body := .psig t.ridx inc t.rjob }))) ∧
     (∀ ep win tlen entry job, p.body = .connect false 0 ep win tlen entry job →
       let t := x.tunnel 1 ep.toNat
       t.valid = true → t.peerValid = false → job = t.job → ∃ u, exec (.tunnelConnect p) s = .next u ∧
         ((u.jhl d k).tunnel 1 ep.toNat).peer = p.src ∧ ((u.jhl d k).tunnel 1 ep.toNat).peerValid = true ∧
         answer p (.connReply 0 entry 0 0 0 0 4) ∈ u.sent) ∧
     (∀ ep y yx, p.body = .chan ep y yx →
       let t := x.tunnel 1 ep.toNat
       t.valid = true → t.flits.length < 4 → exec (.tunnelChannelFlit p) s =
         .next (tunnelForward d k ep.toNat 4 (setTunnel (s.take p) d k 1 ep.toNat { t with flits := t.flits ++ [(y, p.vc)] }))) ∧
     (∀ code of, p.body = .nak code of → of ≠ .psig → ∃ u, exec (.jhlRemoteNak p) s = .next u ∧
       u.fld (.jhl d k) 0x10 1 1 = 1 ∧ u.jhl d k = x)) ∧
  (∀ (s : State) (d c : Nat),
     let x := s.red d c
     (∀ k p entry n rest, PortRuns s d k → (s.jhl d k).rx = .pkt p :: rest → p.body = .cret entry n →
       let i := entry.toNat % 8
       exec (.tunnelCret d k) s = .next (tunnelForward d k i 4 (setTunnel (takeRx s d k (.pkt p)) d k 1 i
         { (s.jhl d k).tunnel 1 i with rcredit := min 7 (((s.jhl d k).tunnel 1 i).rcredit + n.toNat) }))) ∧
     (∀ p k peg inc job, ArrivesBlock s p 5 d k → p.body = .psig peg inc job → peg.toNat = c → c < 16 →
       (x.valid = true → job = x.job → exec (.reduceTrigger p) s =
         .next ((s.take p).setRed d c { x with tcount := x.tcount + inc.zeroExtend 16 })) ∧
       (x.valid = false ∨ job ≠ x.job → exec (.reduceTrigger p) s = .next ((s.take p).nak p 5))) ∧
     (DieRuns s d → c < 16 → x.running = false → x.valid = true → x.faulted = false → holds x.tcount.toNat x.thresh = true →
       x.rank ≠ 0 → exec (.reduceStart d c) s = .next (s.setRed d c { x with
         tcount := x.tcount - BitVec.ofNat 16 x.thresh, running := decide (0 < x.nseg), done := 0, nextUp := 0
         nextDown := 0 })) ∧
     (∀ g, DieRuns s d → redNext s d 0 false = some g → g.ctx = c →
       (g.poisoned = true ∨ g.k ≠ x.nextUp → exec (.reduceSegment d) s = .next (redFault (takeRx s d 0 g.unit) d c)) ∧
       (∀ ws u, g.poisoned = false → g.k = x.nextUp → redRead (takeRx s d 0 g.unit) d x g.k = (.data ws, u) →
         x.rank + 1 < x.nrank → exec (.reduceSegment d) s =
           .next (jhlHold (u.setRed d c { x with nextUp := x.nextUp + 1 }) d 1 (.seg false (BitVec.ofNat 4 c)
             (BitVec.ofNat 24 g.k) ((List.range 128).map fun e => rne32Code (Val.add (fp32 (g.vals.getD e 0))
               (fp32 ((lineValues ws).getD e 0)))) false)))) ∧
     (∀ g t, DieRuns s d → redNext s d 1 true = some g → g.ctx = c → g.poisoned = false → g.k = x.nextDown →
       redFinish ((takeRx s d 1 g.unit).setRed d c { x with nextDown := x.nextDown + 1 }) d c g.k g.vals = some t →
       exec (.bcastSegment d) s = .next t))

/-! ### The PCIe endpoints -/

/-- R569, R570, R577, R579: a BAR read without an answer reads 0 and records ERR_ACCESS; a read through a valid aperture
entry gives the tensor's bytes, or waits inside the endpoint while its answer is MOVED or its way is down; one through an entry
that is not valid is unsupported; a write to an entry that admits
none is discarded and counted; an entry is written with AP_W2.

R571, R572: a descriptor that asks for nothing completes with status 0; one whose fields are not as they must be
completes with status 1, halts its queue and raises DMA_FAULT; the transfers run by their opcode; an enabled queue
starts at index 0 in phase 1. -/
def Obligations.PcieTransfers : Prop :=
  (∀ (s : State) (k addr len : Nat) (data : List Byte) (x : Word), k < 2 → powered s = true → (s.pci k).waiting = [] →
     let e := apEntry s (addr / 2 ^ 21)
     let off := addr % 2 ^ 21
     let p := Page.pci k
     (linkUp s k = true →
       (∃ u, exec (.barReadTimeout k) s = .next u ∧ u.out.getLast? = some (.readData 0) ∧ u.fld p 0x1C 31 1 = 1) ∧
       (inAperture addr len = true → tiersOpen s k = true → e.valid = true → ∀ ws t,
         accessWords s (pciAgent s k) e.job e.handle (e.seg.toNat * 2 ^ 18 + off / 8)
           ((off + len - 1) / 8 - off / 8 + 1) = (.data ws, t) →
         ∃ u, exec (.apertureRead k addr len) s = .next u ∧ u.out = t.out ++ [.aperture k (wordBytes ws (off % 8) len) false] ∧
           u.dies = t.dies ∧ u.regs = t.regs ∧ (u.pci k).waiting = []) ∧
       (inAperture addr len = true → e.valid = false → ∃ u, exec (.apertureRead k addr len) s = .next u ∧
         u.out = s.out ++ [.unsupported k]) ∧
       (inAperture addr data.length = true → tiersOpen s k = true → off % 8 = 0 → data.length % 8 = 0 → e.valid = true →
         e.writeEn = true → ∀ ws n t, accessPut (pciAgent s k) e.job e.handle ((wholeWords data).length / 64 + 2)
           (e.seg.toNat * 2 ^ 18 + off / 8) (wholeWords data) s = (.data ws, n, t) →
         ∃ u, exec (.apertureWrite k addr data) s = .next u ∧ u.dies = t.dies ∧ u.regs = t.regs ∧ u.out = t.out ∧
           (u.pci k).waiting = []) ∧
       (inAperture addr len = true → tiersOpen s k = true → e.valid = true → ∀ t,
         accessWords s (pciAgent s k) e.job e.handle (e.seg.toNat * 2 ^ 18 + off / 8)
           ((off + len - 1) / 8 - off / 8 + 1) = (.wait, t) →
         exec (.apertureRead k addr len) s = .next (s.setPci k { s.pci k with waiting := [.read addr len] })) ∧
       (inAperture addr data.length = true → tiersOpen s k = true → e.writeEn = false →
         ∃ u, exec (.apertureWrite k addr data) s = .next u ∧ u.dies = s.dies ∧ u.fld p 0x10 1 1 = 1)) ∧
     (∃ u, exec (.apEntryWrite k x) s = .next u ∧
       apEntry u (s.fld p 0x4C 0 15) =
         ⟨BitVec.ofNat 20 (tget s.loHeld (p, 0x50) (apWord (apEntry s (s.fld p 0x4C 0 15)) 0)).toNat,
          bit (tget s.loHeld (p, 0x50) (apWord (apEntry s (s.fld p 0x4C 0 15)) 0)) 20,
          bit (tget s.loHeld (p, 0x50) (apWord (apEntry s (s.fld p 0x4C 0 15)) 0)) 21,
          BitVec.ofNat 16 (tget s.loHeld (p, 0x54) (apWord (apEntry s (s.fld p 0x4C 0 15)) 1)).toNat,
          BitVec.ofNat 19 x.toNat⟩ ∧
       ∀ n, n ≠ s.fld p 0x4C 0 15 → apEntry u n = apEntry s n)) ∧
  (∀ (s : State) (k q : Nat) (d : DmaDesc) (data : List DWord) (err : Bool) (x : Word),
     let y := s.dq k q
     (DmaRuns s k q d 0 → ∃ u, exec (.dmaNop k q d) s = .next u ∧
       (u.dq k q).head = BitVec.ofNat 16 ((y.head.toNat + 1) % y.size) ∧ (u.dq k q).halted = false ∧
       .dmaCompletion k q y.head.toNat 0 y.phase 0 ∈ u.out) ∧
     (DmaRuns s k q d 1 → dmaFieldsOk d = true → data.length = d.length.toNat / 8 → ∀ ws n t,
       accessPut (pciAgent s k) d.job (d.handle.setWidth 20) (d.length.toNat / 8 / 64 + 2) (d.offset.toNat / 8) data s =
         (.data ws, n, t) → exec (.dmaHostToTier k q d data err) s = .next (dmaDone t k q d (if err then 5 else 0) (8 * n))) ∧
     (DmaRuns s k q d 2 → dmaFieldsOk d = true → ∀ ws g t,
       dmaLines (pciAgent s k) d.job (d.handle.setWidth 20) (d.length.toNat / 8 / 64 + 2) (d.offset.toNat / 8)
         (d.length.toNat / 8) s = (.data g, ws, t) → ws ≠ [] → exec (.dmaTierToHost k q d false) s =
           .next (dmaDone (t.emit (.hostWrite k d.hostAddr ws)) k q d 0 (8 * ws.length))) ∧
     (DmaRuns s k q d 2 → dmaFieldsOk d = false → ∃ u, exec (.dmaTierToHost k q d err) s = .next u ∧
       (u.dq k q).halted = true ∧ (u.dq k q).status = 1 ∧ .dmaCompletion k q y.head.toNat 1 y.phase 0 ∈ u.out ∧
       u.fld (.pci k) 0x10 1 1 = 1) ∧
     (k < 2 → q < 16 → powered s = true → 4 ≤ bits x 0 5 → bits x 0 5 ≤ 16 → bit x 31 = true →
       exec (.dqEnable k q x) s = .next (s.setDq k q { y with
         cfg := x &&& 0x8000001F, head := 0, tail := 0, cplIdx := 0, phase := true, halted := false, status := 0 })))

/-- R494, R495, R568, R574 to R576, R669: an endpoint that its rails, die and reset allow comes up with its speed and
width, goes down, is made home by MAKE_HOME and gives up the other, and answers configuration requests with Retry
Status until it is ready; a function-level reset clears its queues and MSI-X state; an enabled ring starts empty. -/
def Obligations.HostLinks : Prop :=
  ∀ (s : State) (k : Nat) (bme : Bool) (speed width : Nat) (x : Word), k < 2 → powered s = true →
    let p := Page.pci k
    (mayTrain s k = true → 1 ≤ speed → speed ≤ 6 → width ∈ [1, 2, 4, 8, 16] →
      ∃ u, exec (.pcieLinkUp k bme speed width) s = .next u ∧ u.fld p 0x40 0 4 = speed ∧ u.fld p 0x40 4 5 = width ∧
        linkUp u k = true ∧ u.fld p 0x40 10 1 = (if bme then 1 else 0)) ∧
    (linkUp s k = true → exec (.pcieLinkDown k true) s = .next (pciDown s k true)) ∧
    (s.mas.ready = true → ∃ u, exec (.makeHome k) s = .next u ∧ homeOf u = some k ∧ u.fld p 0x10 1 1 = 1) ∧
    (∃ u, exec (.flr k) s = .next u ∧ (∀ q, u.dq k q = DmaQueue.reset) ∧ (u.pci k).msix = [] ∧ (u.pci k).pba = 0 ∧
      u.regs = s.regs) ∧
    (∃ u, exec (.perstRelease k) s = .next u ∧ (u.pci k).ready = true ∧ u.regs = s.regs) ∧
    ((s.pci k).ready = false → exec (.pcieConfigRequest k 0) s = .next (s.emit (.configRetry k))) ∧
    ((s.pci k).ready = true → ∃ u v, exec (.pcieConfigRequest k 0) s = .next u ∧ u.out = s.out ++ [.configData k v] ∧
      bits v 16 16 = deviceId s.part) ∧
    (4 ≤ bits x 0 5 → bits x 0 5 ≤ 16 → bit x 31 = true → ∃ u, exec (.hcqEnable 0 x) s = .next u ∧
      u.reg .mas 0x48 = x &&& 0x8000001F ∧ u.reg .mas 0x4C = 0 ∧ u.reg .mas 0x50 = 0)

/-! ### The Mason -/

/-- R495 to R497: the Mason takes the entry at its FETCH index and advances it; an opcode it does not know is answered
with STATUS 1, an unused byte that is not 0 with STATUS 2, and a command of a job that is not loaded with STATUS 3,
nothing else of the jobs changed.

R479, R496, R564, R586, R601: the image set is that of host memory, or of a fabric-flash slot where the length named is 0,
which is the model's choice of layout (log entry 132); a verified image that finds its place becomes a job with the lowest JOB_ID in no use,
its command waiting for its loads; one refused is completed with STATUS 8. -/
def Obligations.HostQueue : Prop :=
  (∀ (s : State) (c : HostCmd),
     let t := fetchOne s
     (t.mas = s.mas ∧ t.ashlars = s.ashlars ∧ t.dies = s.dies ∧
       t.reg .mas 0x50 = BitVec.ofNat 32 ((s.fld .mas 0x50 0 16 + 1) % ringSize s 0x48)) ∧
     (fetches s = true → s.job c.job = none → awake s = true →
       (c.opcode = 0 ∨ 0x0D < c.opcode.toNat → exec (.queryJob c) s = .next (t.complete c.tag 1 0 0 0)) ∧
       (c.opcode = 0x0C → c.spare = true → exec (.queryJob c) s = .next (t.complete c.tag 2 0 0 0)) ∧
       (c.spare = false →
         (c.opcode = 2 → exec (.startJob c) s = .next (t.complete c.tag 3 0 0 0)) ∧
         (c.opcode = 3 → exec (.stopJob c) s = .next (t.complete c.tag 3 0 0 0)) ∧
         (c.opcode = 4 → exec (.resumeJob c) s = .next (t.complete c.tag 3 0 0 0)) ∧
         (c.opcode = 5 → exec (.unloadJob c) s = .next (t.complete c.tag 3 0 0 0)) ∧
         (c.opcode = 6 → exec (.setPriority c) s = .next (t.complete c.tag 3 0 0 0)) ∧
         (c.opcode = 0x0C → exec (.queryJob c) s = .next (t.complete c.tag 3 0 0 0)))) ∧
     (∀ tag status reason event result, 0 < cplRoom s → homeUp s = some 0 →
       let u := s.complete tag status reason event result
       (∃ l, u.out = s.out ++ .completion 0 tag status reason event (result % 2 ^ 56) s.mas.cplPhase :: l) ∧
       u.mas.cplIdx = (if s.mas.cplIdx + 1 = ringSize s 0x5C then 0 else s.mas.cplIdx + 1) ∧
       u.mas.jobs = s.mas.jobs ∧ u.ashlars = s.ashlars)) ∧
  (∀ (s : State) (c : HostCmd) (img : LoadSource), Taken s c 1 →
     let t := fetchOne s
     let id := freeJobId t
     let slot := argNat c.args 0 1
     let stored := argNat c.args 8 8 = 0
     (stored → 5 ≤ slot → exec (.loadJob c img) s = .next (t.complete c.tag 2 0 0 0)) ∧
     (∀ src, (stored → slot < 5 ∧ src = ((t.flash.store.toList[slot]?).join).map fun j => { j with modules := img.modules }) →
       (¬ stored → src = img.bytes.map fun b => jobImage (b.take (argNat c.args 8 8)) img.modules) →
       (src = none → exec (.loadJob c img) s = .next (imageRefused t (some c.tag) evImgFormat)) ∧
       (∀ j, src = some j →
         (∀ e n, verifyJob t j = some (e, n) → exec (.loadJob c img) s = .next (imageRefused t (some c.tag) e)) ∧
         (∀ u, verifyJob t j = none → chainUp t j = true → placeImage t id j = some u →
           (u.job id).map (fun x => x.state) ≠ some .waiting →
           exec (.loadJob c img) s = .next (u.onJob id fun x => { x with wait := some (c.tag, 1) })) ∧
         (verifyJob t j = none → chainUp t j = true → placeImage t id j = none → socketsStarting t = false →
           exec (.loadJob c img) s = .next (t.complete c.tag 4 0 0 0)))))

/-- R395, R467, R485, R487, R496: the commands of one job by the state it is in: a waiting job is started when it is placed, a
loaded one at once; a running class T job is stopped by pre-emption, a class S job at its bays; a kept class T job
goes back to the run queue; an unloaded job is gone with its loads; SIGNAL adds to a peg of an ashlar of the bay, the
same one in every member.

R457 to R461, R489 to R491: SLOT_ADD puts a key of the bay's port in the lowest free slot, whose slice then holds the
template in every member, SLOT_REMOVE takes it out and lets the slot drain, and the slot is free once no event before its
removal is left; PUBLISH derives the new copy
from the training job's tensors, stages it and takes the members for install, the last first, one after the other,
until none is left and the publish ends. -/
def Obligations.Jobs : Prop :=
  (∀ (s : State) (c : HostCmd) (j : Job), s.job c.job = some j → jobBusy s c.job = false →
     let t := fetchOne s
     let done := fun (u : State) => u.complete c.tag 0 0 0 0
     let becomes := fun (i : Instr) (v : JobState) => ∃ u, exec i s = .next u ∧ (u.job c.job).map (fun x => x.state) = some v
     (Taken s c 2 →
       (j.state = .waiting → exec (.startJob c) s = .next (done (t.onJob j.id fun x => { x with started := true }))) ∧
       (j.state = .loaded → becomes (.startJob c) .running)) ∧
     (Taken s c 3 →
       (j.clsT = true → j.state = .running → becomes (.stopJob c) .preempting ∧ ∃ u, exec (.stopJob c) s = .next u ∧
         ∀ a ∈ j.ashlars s, (u.ash a).joiner.autorun = false) ∧
       (j.clsT = false → j.state = .running → becomes (.stopJob c) .stopped)) ∧
     (Taken s c 4 →
       (j.clsT = true → j.kept = true → j.state = .preempted → exec (.resumeJob c) s =
         .next (t.onJob j.id fun x => { x with kept := false, wait := some (c.tag, 4) })) ∧
       (j.clsT = false → j.state = .stopped → becomes (.resumeJob c) .running)) ∧
     (Taken s c 5 → ∃ u, exec (.unloadJob c) s = .next u ∧ u.job c.job = none ∧ ∀ q ∈ u.mas.loads, q.job ≠ c.job) ∧
     (Taken s c 6 → j.clsT = true → argNat c.args 0 1 ≤ 7 → exec (.setPriority c) s =
       .next (done (t.onJob j.id fun x => { x with prio := argNat c.args 0 1 }))) ∧
     (Taken s c 0x0C →
       let places := j.bays.map fun b => b.members.map fun m => if m.placed then some (m.die, m.x, m.y) else none
       exec (.queryJob c) s = .next (t.complete c.tag 0 0 0 (Config.queryResult j.state.code places j.cause).toNat)) ∧
     (Taken s c 0x0B → ∀ b, j.bays[argNat c.args 0 1]? = some b →
       let x := argNat c.args 1 1
       let y := argNat c.args 2 1
       let peg := argNat c.args 3 1
       (x < b.img.w → y < b.img.h → peg < 48 → b.members.any (fun m => m.placed) = true →
         exec (.signal c) s = .next (done (b.members.foldl (fun u m =>
           match physicalRow u m.die (m.y + y) with
           | some row => if m.placed then addToPeg u ⟨m.die, m.x + x, row⟩ peg (argNat c.args 4 2) else u
           | none => u) t))) ∧
       (b.img.w ≤ x ∨ b.img.h ≤ y ∨ 48 ≤ peg → exec (.signal c) s = .next (t.complete c.tag 2 0 0 0)))) ∧
  (∀ (s : State) (c : HostCmd) (j : Job) (b : Bay),
     let t := fetchOne s
     let d := slotPort c
     let key := slotKey c
     let n := b.slots.findIdx fun x => x == .free
     let r := (s.die d).ing.insert key (BitVec.ofNat 16 n) (BitVec.ofNat 3 b.img.group)
     (Taken s c 7 → s.job c.job = some j → jobBusy s c.job = false → j.clsT = false → j.bays[slotBay c]? = some b →
       b.unsettled = false → b.portDie s = some d → (s.die d).ing.find key = none → n < b.slots.length → r.1 = 0 →
       exec (.slotAdd c) s =
         .next ((setSlot ((initSlot t b n).onIng d fun _ => r.2) j.id (slotBay c) n (.live d key)).complete c.tag 0 0 0 n)) ∧
     (∀ id bi m, Taken s c 8 → liveSlot s d key = some (id, bi, b, m) → b.unsettled = false → exec (.slotRemove c) s =
       .next ((setSlot (t.onIng d fun _ => ((s.die d).ing.delete key).2) id bi m (.drain (s.die d).ing.seq)).complete
         c.tag 0 0 0 0)) ∧
     (∀ id bi m d seq, s.bay id bi = some b → b.portDie s = some d → b.slots[m]? = some (.drain seq) →
       (drainedBefore s d (b.img.group % 8) seq = true →
         exec (.slotDrainDone id bi m) s = .next (setSlot s id bi m .free)) ∧
       (drainedBefore s d (b.img.group % 8) seq = false → exec (.slotDrainDone id bi m) s = .next s)) ∧
     (∀ tensors rows u, let train := BitVec.ofNat 16 (argNat c.args 0 2)
       let id := BitVec.ofNat 16 (argNat c.args 2 2)
       let bi := argNat c.args 4 1
       Taken s c 9 → s.mas.publish = none → jobBusy s train = false → jobBusy s id = false → (s.job train).isSome = true → s.job id = some j →
       j.bays[bi]? = some b → j.clsT = false → b.allServe = true →
       (deriveAll train (b.version + 1) tensors t = (some rows, u) → exec (.publish c tensors) s =
         .next (publishGo (takePublish (stageCopy u id bi rows) c.tag train id bi (installOrder b)) id bi)) ∧
       (deriveAll train (b.version + 1) tensors t = (none, u) → exec (.publish c tensors) s = .next (refused u c.tag))) ∧
     (∀ (u : State) id bi x p, u.mas.publish = some p → p.job = id → p.bay = bi → u.bay id bi = some x →
       (∀ m, installNext x p.left = some m → publishGo u id bi = installMember u id bi m (releasing x p.left m)) ∧
       (installNext x p.left = none → publishGo u id bi = endPublish u p x)))

/-- R47, R425, R427, R499, R607, R613, R636: the service of a socket that may be serviced begins, is cancelled and is
readmitted; a restart takes the firmware slot named once it verifies and leaves the Mason not ready, as its watchdog
does; it becomes ready again with firmware that verifies; the enabled entries of the autostart table load once every
socket has left INIT. -/
def Obligations.MasonService : Prop :=
  (∀ (s : State) (c : HostCmd),
    let t := fetchOne s
    let die := argNat c.args 0 1
    Taken s c 0x0A → die < s.part.dies →
      (argNat c.args 1 1 = 0 → serviceReason t die = 0 → (t.die die).socket.svc = .online →
        exec (.dimmServiceBegin c) s = .next ((socketEvacuate t die).complete c.tag 0 0 0 0)) ∧
      (argNat c.args 1 1 = 0 → serviceReason t die ≠ 0 → ∃ u, exec (.dimmServiceBegin c) s = .next u ∧
        (u.die die).socket = { (s.die die).socket with reason := BitVec.ofNat 4 (serviceReason t die) }) ∧
      (argNat c.args 1 1 = 1 → (t.die die).socket.svc = .evacuating →
        exec (.dimmServiceCancel c) s = .next ((socketCancel t die).complete c.tag 0 0 0 0)) ∧
      (argNat c.args 1 1 = 2 → (t.die die).socket.svc = .present →
        (serviceBar t die = 0 → exec (.dimmServiceReadmit c) s = .next ((socketReadmit t die).complete c.tag 0 0 0 0)) ∧
        (serviceBar t die ≠ 0 → exec (.dimmServiceReadmit c) s = .next (serviceRefused t c die (serviceBar t die))))) ∧
  (∀ (s : State) (c : HostCmd) (f : FirmwareImage) (n : Fin 2), Taken s c 0x0D → argNat c.args 0 1 = n →
    (fetchOne s).flash.firmware[n] = some f → verifyFirmware (fetchOne s) f = none → exec (.masonRestart c) s =
      .next (restartMason ((keepStore (fetchOne s) { (fetchOne s).kept with bootSlot := n }).complete c.tag 0 0 0 0) 1)) ∧
  (∀ (s : State) (cause : Nat), (restartMason s cause).mas.ready = false ∧ (restartMason s cause).fld .mas 0x84 0 3 = 2 ∧
    ∀ q ∈ (restartMason s cause).mas.loads, q.active = false) ∧
  (∀ s : State, s.mas.ready = true → exec .masWdog s = .next ((restartMason s 2).raise .mas evMasWdog 0)) ∧
  (∀ (s : State) k, s.mas.ready = false → powered s = true → s.fld .clk 0x40 16 1 = 1 → bootFirmware s = some k →
    ∃ u, exec .masonReady s = .next u ∧ u.mas.ready = true ∧ u.mas.readyAt = s.time) ∧
  (∀ s : State, steady s = true → s.fld .mas 0x84 0 3 = 1 → s.fld .cfg 0x74 0 1 = 1 → socketsStarting s = false →
    (s.mas.autostarted = false → exec .autostartLoad s = .next (((readCopy s.flash.autostart []).filter fun e => e.1).foldl
      (fun t e => loadImage t none (t.flash.store[ix 5 e.2 (by decide)])) (s.onMas fun m => { m with autostarted := true }))) ∧
    (s.mas.autostarted = true → exec .autostartLoad s = .next s))

/-- R357, R390, R493, R498, R623, R624, R633: the Mason takes a row of a die's summary bitmap, or else the head of its inbox; an
event of class BAY faults the member that holds its ashlar, and where it shows that the row has failed the row is retired
first; a faulted class T job stands behind its fences, and a
faulted class S member no longer serves; a cycle that two probes of an ashlar 10 µs apart find unchanged is a deadlock. -/
def Obligations.MasonEvents : Prop :=
  ∀ (s : State) (die : Nat),
    (die < s.part.dies → powered s = true → s.mas.ready = true → raccLate s die = false →
      (∀ r l, summaryRow s die = [] → dieInbox s die = r :: l →
        exec (.mailboxEntry die) s = .next (takeReport (setInbox s die l) r)) ∧
      (∀ a l, summaryRow s die = a :: l → exec (.mailboxEntry die) s = .next ((a :: l).foldl takeSummary s))) ∧
    (∀ a w coord job at' n, w.toNat / 4096 = 3 →
      let r : Report := ⟨.ash a, coord, w, job, true, at', n⟩
      let u := (s.onMas fun m => { m with raisedAt := at' }).post w.toNat job (pageSrc s (.ash a)) false
      let x := noteWord u a r
      let y := noteLink x.2 a w.toNat
      let t := retireRow y.2 a.die a.row (some (a, w.toNat))
      (x.1 = false → y.1 = false → takeReport s r = actHeld (faultAsh y.2 a w.toNat) a) ∧
      (badPlace a r = none → w.toNat ≠ evCode (.ash a) evLinkUe → x.1 = false ∧ y.1 = false ∧ y.2 = u) ∧
      (x.1 = true ∨ y.1 = true → takeReport s r = actHeld t (movedAsh u t a))) ∧
    (∀ a, s.heldEvents = [] → actHeld s a = s) ∧
    (∀ a r, s.heldEvents = [r] → r.page = .ash a → r.word.toNat / 4096 = 3 → badPlace a r = none →
      r.word.toNat ≠ evCode (.ash a) evLinkUe →
      actHeld s a = faultAsh ({ s with heldEvents := [] }.onMas fun m => { m with raisedAt := r.time }) a r.word.toNat) ∧
    (∀ id bi m code j y, s.job id = some j → s.member id bi m = some y →
      (j.clsT = true → y.placed = true → y.state ≠ .loading → j.state ≠ .faulted → j.state ≠ .preempting →
        ((faultMember s id bi m code).job id).map (fun x => (x.state, x.cause)) = some (.faulted, BitVec.ofNat 16 code)) ∧
      (j.clsT = false → y.state = .serving →
        ((faultMember s id bi m code).member id bi m).map (fun x => (x.state, x.cause)) =
          some (.faulted, BitVec.ofNat 16 code))) ∧
    (∀ a, AshRuns s a → s.mas.ready = true →
      let c := probeCycle s a
      let kept := keptProbe s a
      (sameCycle kept.2 c = true → 10000 ≤ (s.time - kept.1).toNat → exec (.deadlockProbe a) s = .next
        (declareDeadlock (s.onMas fun m => { m with probe := otherProbes s a, raisedAt := s.time }) (c.map fun x => x.1))) ∧
      (sameCycle kept.2 c = false → ∃ u, exec (.deadlockProbe a) s = .next u ∧ (c ≠ [] → keptProbe u a = (s.time, c)) ∧
        ∀ b, b ≠ a → keptProbe u b = keptProbe s b))

/-- R26, R478, R482 to R484, R488: bays that stand on a degraded die are moved off it, a class T job by pre-emption; then the
first job of the run queue that fits is placed; while the one that has waited too long
does not fit, the only running job not above it is pre-empted; a pre-emption waits for task boundaries, idle Planes
and balanced channels before it orders saves, and one that takes too long faults its job; a pre-empted job may be
placed again, and a serving member moves.

R606, R624, R627 to R630, R632: the first waiting load of a die begins as soon as it may; faulted members are loaded
again in the order of their faults, beside one that serves or with all the others; a rebuilt member joins the survivor that holds,
which is asked to where another one was, with the
survivor's registers, data memory, pegs and class G words and its own banks. -/
def Obligations.JobMoves : Prop :=
  (∀ (s : State) (id : Half) (bi m : Nat),
     (let t := vacateDies (retryHeld s)
      (∀ j l u, steady s = true → runQueue t = j :: l → placeJob t j.id = some u → exec .runQueuePlace s = .next u) ∧
      (s.mas.heldLoads = [] → (∀ d, degraded s d = false) → t = s)) ∧
     (∀ j b y, s.job id = some j → s.bay id bi = some b → s.member id bi m = some y → y.placed = true →
       degraded s y.die = true →
       (j.clsT = true → j.state = .running → vacate s id bi m = startPreempt s id) ∧
       (j.clsT = false → b.movable = true → y.state = .serving → vacate s id bi m = moveMember s id bi m)) ∧
     (∀ w v, steady s = true → s.fld .mas 0x78 0 24 ≠ 0 → (s.mas.jobs.any fun j => j.state == .preempting) = false →
       (runQueue s).find? (fun j => decide (s.fld .mas 0x78 0 24 * 1000 < (s.time - j.since).toNat)) = some w →
       placeJob s w.id = none →
       (s.mas.jobs.filter fun j => j.clsT && j.state == .running && decide (j.prio ≤ w.prio)) = [v] →
       ((placeBays (withoutJobs s [v.id]) w.id).isSome = true → exec .quantumExpiry s = .next (startPreempt s v.id)) ∧
       (placeBays (withoutJobs s [v.id]) w.id = none → exec .quantumExpiry s = .next s)) ∧
     (∀ j, s.job id = some j → j.state = .preempting → j.step ≠ 6 →
       (∀ u, s.mas.ready = true → atBoundaries s j = true → planesIdle s id = true → drained s j = true →
         orderSaves (revokeJob s j) j = some u → exec (.preempt id) s = .next u) ∧
       (atBoundaries s j = false ∨ planesIdle s id = false ∨ drained s j = false → exec (.preempt id) s = .next s) ∧
       ∃ u, exec (.preemptTimeout id) s = .next u ∧ (u.job id).map (fun x => (x.state, x.cause)) =
         some (.faulted, BitVec.ofNat 16 (evCode .mas evPreemptTimeout))) ∧
     (∀ j y, s.job id = some j → s.member id bi m = some y → steady s = true →
       (∀ u, j.clsT = true → j.state = .preempted → j.kept = false → placeJob s id = some u →
         exec (.bayMove id bi m) s = .next u) ∧
       (j.clsT = false → y.state = .serving → exec (.bayMove id bi m) s = .next (moveMember s id bi m)))) ∧
  ((∀ (s : State) (die : Nat) (q : LoadReq), DieRuns s die → steady s = true →
     (s.mas.jobs.filter fun j => displaced s j) = [] →
     ((s.mas.loads.filter fun q => q.die == die).filter fun q => q.active).length < 2 →
     (s.mas.loads.filter fun q => q.die == die).find? (fun q => !q.active && askedFor s q) = some q →
     (loadReady s q = true → exec (.bayLoadStart die) s = .next (startLoad s q)) ∧
     (loadReady s q = false → exec (.bayLoadStart die) s = .next s)) ∧
   (∀ (s : State) (id : Half) (bi m : Nat) (j : Job) (b : Bay) (y : Member), s.job id = some j → s.bay id bi = some b →
     s.member id bi m = some y → steady s = true → j.clsT = false →
     (b.serving ≠ [] → dueRecoveries s = [(id, bi, m, y.faultAt)] → exec (.memberRecovery id bi m) s =
       .next (if degraded s y.die then moveMember s id bi m else recoverMember s id bi m)) ∧
     (b.serving = [] → j.state = .running → ∀ k l, b.membersIn .rebuilt = k :: l →
       exec (.bayRebuild id bi) s = .next (serveAlone s id bi k)) ∧
     (b.serving = [] → b.membersIn .rebuilt = [] → dueRecoveries s ≠ [] →
       (∀ k ∈ dueRecoveries s, k.1 = id ∧ k.2.1 = bi) → exec (.bayRebuild id bi) s = .next
         ((dueRecoveries s).foldl (fun t k => recoverAt t k.1 k.2.1 k.2.2.1) s)) ∧
     (∀ sv l, j.state = .running → b.serving = sv :: l → y.state = .rebuilt →
       (y.asked = some sv → held s b sv y.hold = true → entryBalanced s b sv = true →
         exec (.survivorHeld id bi m) s = .next (backInService (joinMember s id bi m sv) id bi m y.recovering)) ∧
       (y.asked ≠ some sv → exec (.survivorHeld id bi m) s = .next (askHold s id bi m sv)))) ∧
   (∀ (v w : Ashlar),
     let u := resync v w
     u.joiner.regs = v.joiner.regs ∧ u.joiner.dmem = v.joiner.dmem ∧ u.joiner.loops = v.joiner.loops ∧
     u.joiner.bank0 = w.joiner.bank0 ∧ u.joiner.bank1 = w.joiner.bank1 ∧ u.joiner.bayX = w.joiner.bayX ∧
     u.joiner.bayY = w.joiner.bayY ∧ u.out = v.out ∧
     (∀ p, p < 48 → (u.peg p).value = (v.peg p).value) ∧
     (∀ k, k < 6144 → coverClass v k ≠ some 1 → spadRaw u k = spadRaw w k)))

/-- R23, R26, R634, R635: a spare row that takes the place of a failed one moves every logical row's ashlars, whole, to
the row that carries it now; a row already retired, and a third failure, are refused with their RESULT. -/
def Obligations.CourseRows : Prop :=
  ∀ (s : State) (die row : Nat) (x : Word), DieRuns s die →
    (row < 98 → exec (.courseShift die row) s = .next (retireNamed s die row)) ∧
    (bit x 7 = true → bits x 0 7 < 98 → exec (.courseCmdRetire die x) s =
      .next (retireNamed (s.setFld (.cfgDie die) 0x54 0 7 (bits x 0 7)) die (bits x 0 7))) ∧
    ((retiredRows s die).contains row = true → retireNamed s die row = s.setFld (.cfgDie die) 0x54 9 2 1) ∧
    ((retiredRows s die).contains row = false → (retiredRows s die).length = 2 →
      (retireNamed s die row).fld (.cfgDie die) 0x54 9 2 = 2 ∧ (retireNamed s die row).fld (.cfgDie die) 0x50 16 1 = 1 ∧
      (retireNamed s die row).ashlars = s.ashlars) ∧
    (row < 98 → (retiredRows s die).contains row = false → (retiredRows s die).length < 2 →
      let t := shiftRows s die row
      row ∈ retiredRows t die ∧ (∀ q ∈ retiredRows s die, q ∈ retiredRows t die) ∧
      ∀ p l c, logicalRow s die p = some l → ∃ q, physicalRow t die l = some q ∧ t.ash ⟨die, c, q⟩ = s.ash ⟨die, c, p⟩)

/-! ### Start-up, flash and fuses -/

/-- R586, R591, R593 to R595, R668: configuration starts from slot A, once the Mason is ready; an image whose checks pass
and whose sections reach every die releases them, and the fabrics start; a die without exactly one section times out;
in Recovery the host supplies an image, or releases the done outputs; the training of the tiers ends the start. -/
def Obligations.StartUp : Prop :=
  ∀ (s : State) (img : FabricImage) (b : List Byte), powered s = true →
    (s.mas.ready = true → stage s = 0 → exec .configStart s = .next (configure s 0 s.flash.slotA)) ∧
    (∀ src, (∀ u, checkHeader s img.hdr 1 (src == 1) = none →
        (chain img.hdr.enc img.secs { setStage ((confReset s).setFld .cfg 0x40 3 2 src) 1 with image := some img.hdr }) =
          (u, none) → configure s src (some img) = release u img.secs) ∧
      ∀ l, allReleased (release s l) = true → stage (release s l) = 2) ∧
    (stage s = 2 → pinChatters s 3 = false → ∃ u, exec .fabricStart s = .next u ∧ stage u = 3 ∧
      (∀ d, (s.die d).run = .idle → (u.die d).run = .running) ∧ (∀ d, (s.die d).run = .held → (u.die d).run = .held) ∧
      u.fld .cfg 0x40 16 1 = 1) ∧
    (∀ d, d < s.part.dies → stage s = 1 → (s.die d).doneOut = false →
      exec (.sectionTimeout d) s = .next (afterFail s (source s) ⟨some d, 8, evCfgChain⟩)) ∧
    (stage s = 2 → s.fld .cfg 0x48 0 16 ≠ 0 → s.doneWaited = false → ∃ u, exec .doneWait s = .next u ∧
      u.doneWaited = true ∧ u.fld .cfg 0x10 1 1 = 1 ∧ u.dies = s.dies) ∧
    (stage s = 4 →
      (hostUp s 0 = true → exec (.rcvGo b true) s =
        .next (configure (s.setFld .cfg 0x5C 1 1 1) 2 (some (fabricImage (b.take (s.reg .cfg 0x58).toNat))))) ∧
      (∃ u, exec (.rcvGo b false) s = .next u ∧ u.fld .cfg 0x40 12 4 = 9 ∧ u.fld .cfg 0x5C 2 4 = 10 ∧ u.dies = s.dies) ∧
      ∃ u, exec .releaseDone s = .next u ∧ u.fld .cfg 0x40 17 1 = 1 ∧ ∀ d, (u.die d).doneOut = true) ∧
    (s.mas.ready = true → stage s = 3 → s.fld .mas 0x84 0 3 = 0 → ∃ u, exec .tierTrainingDone s = .next u ∧
      u.fld .mas 0x84 0 3 = 1)

/-- R580, R586, R607, R613: a verified image that begins at its slot's base replaces what the slot held, RESULT 0; a
protected range, a range that is no slot, unreadable data and a refused image leave the flash as it is, with RESULT 1,
2 and 3; a device that fails leaves the slot without an image. R582: the autostart table is written in the copy that is not
read, so an erased copy leaves the table as it was.

R589, R590, R691, R692: the Mason's advance to a target above the counter, at most 64, makes the fuses busy; each step
blows one fuse, the last one ends the advance with FUSE_ADVANCE; a key slot other than the cornerstone's is revoked
once; another writer's advance or revoke has RESULT 1 and blows nothing, and a write while they are busy records
ERR_ACCESS. -/
def Obligations.FlashAndFuses : Prop :=
  (∀ (s : State) (data : FlashData) (slot : FlashSlot) (base size : Nat) (readOk deviceOk same : Bool),
     powered s = true → s.mas.ready = true →
     let sup := s.fld .cfg 0x68 31 1 == 1
     let off := s.fld .cfg 0x68 0 29
     let len := (s.reg .cfg 0x6C).toNat
     let ends := fun (flash : Flash) (result : Nat) => ∃ u, exec (.flashWrite data readOk deviceOk same) s = .next u ∧
       u.flash = flash ∧ u.fld .cfg 0x70 2 4 = result
     (flashProtected sup off = true → ends s.flash 1) ∧
     (flashProtected sup off = false → flashSlot sup off = none → ends s.flash 2) ∧
     (flashProtected sup off = false → flashSlot sup off = some (slot, base, size) →
       (base + size < off + len → ends s.flash 2) ∧
       (off + len ≤ base + size →
         (readOk = false ∨ homeUp s = none → ends s.flash 3) ∧
         (∀ e, readOk = true → (homeUp s).isSome = true → verifyFlash s slot (dataUpTo data len) = some e → ends s.flash 3) ∧
         (readOk = true → (homeUp s).isSome = true → verifyFlash s slot (dataUpTo data len) = none →
           (deviceOk = false → ends (eraseSlot s.flash slot) 5) ∧
           (deviceOk = true → same = false ∨ off ≠ base → ends (eraseSlot s.flash slot) 4) ∧
           (deviceOk = true → same = true → off = base →
             ends (programSlot (eraseSlot s.flash slot) slot (dataUpTo data len)) 0))))) ∧
  (∀ (f : Flash) (l : List (Bool × Nat)), readCopy (eraseSlot f .autostart).autostart [] = readCopy f.autostart [] ∧
    (∀ i, newerCopy f.autostart = some i → f.autostart[i].seq.toNat + 1 < 2 ^ 32 →
      readCopy (programSlot (eraseSlot f .autostart) .autostart (.autostart l)).autostart [] = l)) ∧
  (∀ (s : State) (w : Writer) (n : Nat), powered s = true →
     (fuseBusy s = false → n < 128 →
       (s.fuses.rollback < n → n ≤ 64 → ∃ u, exec (.fuseAdvance .mason n) s = .next u ∧ fuseBusy u = true ∧
         u.fld .fus 0x7C 0 7 = n ∧ u.fuses = s.fuses) ∧
       (n ≤ s.fuses.rollback ∨ 64 < n → ∃ u, exec (.fuseAdvance .mason n) s = .next u ∧ fuseBusy u = false ∧
         u.fld .fus 0x7C 12 3 = 2 ∧ u.fuses = s.fuses) ∧
       (w ≠ .mason → ∃ u, exec (.fuseAdvance w n) s = .next u ∧ fuseBusy u = false ∧ u.fld .fus 0x7C 12 3 = 1 ∧
         u.fuses = s.fuses)) ∧
     (fuseBusy s = false → n < 4 →
       (s.flash.cornerstone.hdr.keyIdx.toNat ≠ n → s.fuses.revoked.getLsbD n = false → ∃ u,
         exec (.fuseRevoke .mason n) s = .next u ∧ u.fuses.revoked.getLsbD n = true ∧ u.fuses.rollback = s.fuses.rollback ∧
         (∀ k, k ≠ n → u.fuses.revoked.getLsbD k = s.fuses.revoked.getLsbD k) ∧ u.fld .fus 0x7C 12 3 = 0) ∧
       (s.flash.cornerstone.hdr.keyIdx.toNat = n ∨ s.fuses.revoked.getLsbD n = true → ∃ u,
         exec (.fuseRevoke .mason n) s = .next u ∧ u.fuses = s.fuses ∧ u.fld .fus 0x7C 12 3 = 3) ∧
       (w ≠ .mason → ∃ u, exec (.fuseRevoke w n) s = .next u ∧ u.fuses = s.fuses ∧ u.fld .fus 0x7C 12 3 = 1)) ∧
     (fuseBusy s = true →
       exec (.fuseAdvance w n) s = .next (s.record .fus evErrAccess 0) ∧
       exec (.fuseRevoke w n) s = .next (s.record .fus evErrAccess 0) ∧
       (s.fuses.rollback + 1 < s.fld .fus 0x7C 0 7 → exec .fuseStep s =
         .next { s with fuses := { s.fuses with rollback := s.fuses.rollback + 1 } }) ∧
       (s.fld .fus 0x7C 0 7 ≤ s.fuses.rollback + 1 → s.mas.advances = [] → ∃ u, exec .fuseStep s = .next u ∧
         u.fuses.rollback = s.fuses.rollback + 1 ∧ fuseBusy u = false ∧ u.fld .fus 0x7C 12 3 = 0 ∧ u.fld .fus 0x10 1 1 = 1)))

/-! ### Scaffold and registers -/

/-- R486, R492, R493, R603, R605: a scaffold write or read at an ashlar or a block that the part has acts on its register
at a multiple of 4 and is answered; a BCAST writes one register in every ashlar of its rectangle and answers their
number; an order at an ashlar is answered with its status, 3 for a load into one that is not frozen; a report takes an
entry of its die's inbox. -/
def Obligations.ScaffoldAccess : Prop :=
  ∀ (s : State) (p : Packet) (a : Ash) (tag : BitVec 7),
    let t := s.take p
    (Arrives s p a → isBlock p.dest = false →
      (∀ off v, p.body = .scaf tag (.regWrite off v) → off.toNat % 4 = 0 →
        exec (.regWrite p) s = .next (writeReg t (.ash a) off.toNat v)) ∧
      (∀ off, p.body = .scaf tag (.regRead off) → off.toNat % 4 = 0 → exec (.regRead p) s =
        .next ((readReg t (.ash a) off.toNat).2.send
          (answer p (.scaf tag (.readReply false (readReg t (.ash a) off.toNat).1))))) ∧
      (∀ off, p.body = .scaf tag (.regRead off) → off.toNat % 4 ≠ 0 → exec (.regRead p) s =
        .next ((t.record (.ash a) evErrAccess 0).send (answer p (.scaf tag (.readReply true 0))))) ∧
      (∀ e v, p.body = .scaf tag (.readReply e v) → exec (.readReply p) s = .next t) ∧
      (∀ n, p.body = .scaf tag (.bcastDone n) → exec (.bcastDone p) s = .next t) ∧
      (∀ x, p.body = .scaf tag (.mason x) → exec (.masonMessage p) s = .next t) ∧
      (∀ fd off len crc ctx, p.body = .scaf tag (.loadOrder fd off len crc ctx) →
        ((t.ash a).frozen = false ∨ (t.ash a).port.isSome = true →
          exec (.loadOrder p) s = .next (t.send (answer p (.scaf tag (.loadDone 3))))) ∧
        (let o : PortLoad := ⟨p, tag, fd, off.toNat, len.toNat / 8, crc, ctx, 0, [], [], 0⟩
         (t.ash a).frozen = true → (t.ash a).port = none → 0 < o.lines →
           exec (.loadOrder p) s = .next (portFill a 8 (t.onAsh a fun v => { v with port := some o })))) ∧
      (∀ x status nw off fd data o e, p.body = .mresp x status nw off fd data → p.vc = 3 → (t.ash a).port = some o →
        o.out.find? (fun e => e.1 == x) = some e →
        let o' := { o with out := o.out.erase e }
        let o'' := { o' with got := (e.2, data) :: o.got }
        (1 < status.toNat → exec (.mresp p) s =
          .next ((t.onAsh a fun v => { v with port := none }).send (answer o.order (.scaf o.tag (.loadDone 2))))) ∧
        (status = 1 → exec (.mresp p) s = .next (portAsk t a { o' with fd := portFrame t a o' } e.2)) ∧
        (status = 0 → o.got.length + 1 = o.lines → o.context = true → ∃ u, exec (.mresp p) s = .next u ∧ (u.ash a).port = none ∧
          answer o.order (.scaf o.tag (.loadDone (if crc32 (runBytes o''.come) = o.crc then 0 else 1))) ∈ u.sent) ∧
        (status = 0 → o.got.length + 1 < o.lines → o.context = true → exec (.mresp p) s =
          .next (portFill a 1 (t.onAsh a fun v => { v with port := some o'' })))) ∧
      (∀ fd off len crc ctx st u, p.body = .scaf tag (.saveOrder fd off len crc ctx) → saveAtPort t a fd off.toNat = some (st, u) →
        exec (.saveOrder p) s = .next (u.send (answer p (.scaf tag (.saveDone st)))))) ∧
    (∀ die inst, ArrivesBlock s p 8 die inst →
      (∀ rect off v, p.body = .scaf tag (.bcast rect off v) → exec (.bcast p) s =
        .next (((rectOf t die rect).foldl (fun u a => scafWrite u (.ash a) off v) t).send
          (answer p (.scaf tag (.bcastDone (rectOf t die rect).length))))) ∧
      (∀ st b, p.body = .scaf tag (.loadDone st) → ashOf t p.src = some b →
        exec (.loadDone p) s = .next (loadDone t die b tag st)) ∧
      (∀ st b, p.body = .scaf tag (.saveDone st) → ashOf t p.src = some b →
        exec (.saveDone p) s = .next (saveDone t die b st))) ∧
    (∀ die r l, die < s.part.dies → s.reports = r :: l → pageDie r.page = die → (dieInbox s die).length < 256 →
      (r.event = false ∨ (dieInbox s die).length < coalesceAt s) → ∃ u, exec (.report die) s = .next u ∧
        u.reports = l ∧ dieInbox u die = dieInbox s die ++ [r] ∧
        (r.event = false → ∀ b, r.page = .ash b → (u.ash b).joiner.msg = none))

/-- R14: a 32-bit access of any writer to a register of a page that answers is that register's own where it is aligned; of
another size, or at an address that is no multiple of 4, it reads 0, changes no register and records ERR_ACCESS in the
page. -/
def Obligations.RegisterAccess : Prop :=
  ∀ (s : State) (w : Writer) (bar2 : Bool) (addr size : Nat) (v : Word) (p : Page) (off : Nat), writerUp s w = true →
    busTarget s w bar2 addr = .reg p off →
    (size = 4 → off % 4 = 0 →
      exec (.registerWrite w bar2 addr size v) s = .next (busRegWrite s w p off v) ∧
      exec (.registerRead w bar2 addr size) s = .next (busAnswer w (readReg s p off))) ∧
    (size ≠ 4 ∨ off % 4 ≠ 0 →
      exec (.registerWrite w bar2 addr size v) s = .next (s.record p evErrAccess 0) ∧
      exec (.registerRead w bar2 addr size) s = .next (busAnswer w (0, s.record p evErrAccess 0)))

/-- R569, R680, R690, R696: over PCIe a page that the part lacks reads 0 and takes no write, and a reserved address reads
0 and records ERR_ACCESS at the endpoint; SMBus reads and writes at its offset, which then advances by 4, and an
offset that is no multiple of 4 records ERR_ACCESS instead.

R20, R92, R673, R674: on a page that answers, CLEAR puts its counters at 0 and touches no other register; INT_FORCE
sets the bits of INT_STATUS it names; a soft reset of a disabled page puts its registers from 0x040 on at reset, and
of an enabled one records ERR_ACCESS instead. -/
def Obligations.RegisterPages : Prop :=
  (∀ (s : State) (addr size : Nat) (v : Word) (bar2 : Bool), powered s = true →
     (linkUp s 0 = true → busTarget s .pci0 bar2 addr = .absent →
       exec (.registerWrite .pci0 bar2 addr size v) s = .next s ∧
       exec (.registerRead .pci0 bar2 addr size) s = .next (s.emit (.readData 0))) ∧
     (linkUp s 0 = true → busTarget s .pci0 bar2 addr = .reserved →
       exec (.registerWrite .pci0 bar2 addr size v) s = .next (s.record (.pci 0) evErrAccess 0) ∧
       exec (.registerRead .pci0 bar2 addr size) s = .next ((s.record (.pci 0) evErrAccess 0).emit (.readData 0))) ∧
     exec (.smbSetOffset v) s = .next { s with smbOffset := v } ∧
     (∀ p off, s.smbOffset.toNat % 4 = 0 → busTarget s .smbus true s.smbOffset.toNat = .reg p off →
       (∃ u, exec .smbRead s = .next u ∧ u.smbOffset = s.smbOffset + 4 ∧
         u.out = (readReg s p off).2.out ++ [.smbus (readReg s p off).1]) ∧
       (∃ u, exec (.smbWrite v) s = .next u ∧ u.smbOffset = s.smbOffset + 4 ∧ u.regs = (busRegWrite s .smbus p off v).regs)) ∧
     (s.smbOffset.toNat % 4 ≠ 0 → exec .smbRead s = .next (s.record .pin evErrAccess 0) ∧
       exec (.smbWrite v) s = .next (s.record .pin evErrAccess 0)) ∧
     exec .smbClockLowTimeout s = .next s) ∧
  (∀ (s : State) (p : Page) (v : Word), pageLive s p = true →
     (∀ ctl l, perfBank p = some (ctl, l) → exec (.perfClear p) s = .next (l.foldl (fun t o => t.setPair p o 0) s)) ∧
     (∀ l : List Nat, let u := l.foldl (fun t o => t.setPair p o 0) s
       (∀ o ∈ l, u.reg p o = 0 ∧ u.reg p (o + 4) = 0) ∧ (∀ o, o ∉ l → (∀ q ∈ l, o ≠ q + 4) → u.reg p o = s.reg p o) ∧
       ∀ q o, q ≠ p → u.reg q o = s.reg q o) ∧
     (∃ u, exec (.intForce p v) s = .next u ∧ u.reg p 0x10 = s.reg p 0x10 ||| (v &&& 7)) ∧
     (hasEnable p = true → (∀ a, p ≠ .ash a) →
       (s.fld p 0x08 0 1 = 0 → ∃ u, exec (.pageSoftReset p) s = .next u ∧
         (∀ off, 0x40 ≤ off → (∀ d k, p ≠ .jhl d k) → u.reg p off = resetWord p off) ∧
         (∀ d, p = .eth d → (u.die d).eth = Eth.reset) ∧ (∀ d, p = .ing d → (u.die d).ing = Ing.reset) ∧
         (∀ d, p = .egr d → (u.die d).egr = Egr.reset) ∧ (∀ d k, p = .jhl d k → u.jhl d k = Jhl.reset)) ∧
       (s.fld p 0x08 0 1 = 1 → exec (.pageSoftReset p) s = .next (s.record p evErrAccess 0))))

/-! ### Pins, resets, power and clocks -/

/-- R689, R697, R699, R702, R703: a pulse shorter than GLITCH is counted, chatter is shown and raised once and then
cleared, a pin stuck beyond its time is shown; a cage gets its power when a pluggable is in it and loses it when it is
gone; the test port answers its instructions. -/
def Obligations.PinsAndTest : Prop :=
  ∀ (s : State) (pin : Nat) (level : Bool), powered s = true →
    (pin < 4 →
      (s.fld .pin (0x40 + 16 * pin) 0 12 ≠ 0 → exec (.pinGlitch pin) s = .next (s.count16 .pin (0x48 + 16 * pin) 16 1)) ∧
      (s.fld .pin (0x40 + 16 * pin) 12 4 ≠ 0 → pinChatters s pin = false → ∃ u, exec (.pinChatter pin) s = .next u ∧
        pinChatters u pin = true ∧ u.fld .pin (0x48 + 16 * pin) 0 1 = s.fld .pin (0x48 + 16 * pin) 0 1 ∧
        u.fld .pin 0x10 1 1 = 1) ∧
      (pinChatters s pin = true → exec (.pinChatter pin) s = .next s) ∧
      (pinChatters s pin = true → pin ≠ 0 → ∃ u, exec (.chatterClear pin level) s = .next u ∧
        pinChatters u pin = false ∧ u.fld .pin (0x48 + 16 * pin) 0 1 = if level then 1 else 0) ∧
      (pin ≠ 0 → s.fld .pin (0x44 + 16 * pin) 0 24 ≠ 0 → ∃ u, exec (.pinStuck pin) s = .next u ∧
        u.fld .pin (0x48 + 16 * pin) 3 1 = 1 ∧ u.fld .pin 0x10 1 1 = 1)) ∧
    (∀ c, cageExists s.part c = true →
      (c ∉ s.cages → c ∉ s.supply.cured.cages → s.pstate ≠ .curing → ∃ u, exec (.cageInsert c) s = .next u ∧
        u.cages = s.cages ++ [c] ∧ u.out = s.out ++ [.cagePower c true] ∧ u.regs = s.regs ∧ u.dies = s.dies) ∧
      (c ∈ s.cages → ∃ u, exec (.cageRemove c) s = .next u ∧ c ∉ u.cages ∧ .cagePower c false ∈ u.out)) ∧
    exec .bypass s = .next ({ s with jtag := { s.jtag with instr := .bypass } }.emit (.jtag 0)) ∧
    exec .idcode s = .next ({ s with jtag := { s.jtag with instr := .idcode } }.emit (.jtag
      (1 + Config.manufacturer.toNat * 2 + deviceId s.part * 2 ^ 12 + Config.jtagVersion.toNat * 2 ^ 28))) ∧
    exec .trst s = .next { s with jtag := { s.jtag with instr := .idcode } } ∧
    (exec (.samplePreload pin) s = exec .bypass s ∧ exec (.extest pin) s = exec .bypass s) ∧
    ∀ t : State, t.supply.off = false → t.supply.resetLow = true →
      (∃ u, exec (.samplePreload pin) t = .next u ∧ u.jtag = ⟨.sample, pin⟩ ∧ u.ashlars = t.ashlars ∧ u.dies = t.dies) ∧
      ∃ u, exec (.extest pin) t = .next u ∧ u.jtag = ⟨.extest, pin⟩ ∧ u.ashlars = t.ashlars ∧ u.dies = t.dies

/-- R644, R666 to R668: power-on, a module reset and the release of RESET_N leave the machine as at reset but for its
part, flash, fuses, serial number, cages, sensors and test port, every die in configuration reset and its PLLs locked;
RESET_N low holds it there; a fabric reset empties the dies, unloads every job and leaves the module's own blocks; a
supply that collapses loses everything but flash and fuses. -/
def Obligations.Resets : Prop :=
  ∀ s : State,
    let fresh := fun (u : State) => u.ashlars = [] ∧ u.net = [] ∧ u.portWait = [] ∧ u.mas = State.reset.mas ∧ u.flash = s.flash ∧
      u.fuses = s.fuses ∧ u.part = s.part ∧ u.cages = s.cages ∧ u.serial = s.serial ∧ u.time = State.reset.time
    let booted := fun (u : State) => fresh u ∧ (∀ d, (u.die d).run = .idle) ∧ u.fld .clk 0x40 16 2 = 3 ∧
      u.fld .clk 0x40 0 8 = 2 ^ s.part.dies - 1
    (s.supply.off = false → s.supply.resetLow = false → ∃ u, exec .powerOn s = .next u ∧ booted u) ∧
    (powered s = true → tripHeld s = false → ∃ u, exec .moduleReset s = .next u ∧ booted u) ∧
    (powered s = true → tripHeld s = false → pinChatters s 0 = false → ∃ u, exec .resetNAssert s = .next u ∧ fresh u ∧
      (∀ d, (u.die d).run = .held) ∧ powered u = false) ∧
    (s.supply.off = false → s.supply.resetLow = true → pinChatters s 0 = false → ∃ u, exec .resetNRelease s = .next u ∧
      booted u ∧ powered u = true) ∧
    (powered s = true → s.fld .thm 0x4C 16 8 = 0 → ∃ u, exec .fabricReset s = .next u ∧ u.ashlars = [] ∧ u.net = [] ∧
      u.mas.jobs = [] ∧ (∀ d, (u.die d).run = .idle ∧ (u.die d).tiers = Die.reset.tiers) ∧ stage u = 0 ∧ u.flash = s.flash ∧
      u.fuses = s.fuses ∧ u.time = s.time ∧ u.mas.ready = s.mas.ready) ∧
    (∃ u, exec .supplyCollapse s = .next u ∧ u.ashlars = [] ∧ u.mas = State.reset.mas ∧ u.flash = s.flash ∧
      u.fuses = s.fuses ∧ powered u = false) ∧
    exec .converterRestart s = .next { s with supply := { s.supply with off := false } }

/-- R642, R643, R646, R649 to R652: a feed's reading follows it; each millisecond the input power and its average
over the last ten are recorded and the cap's action taken; a die runs at the highest level demanded for it, and
PWR_STATE tells of a change of state.

R659 to R661: a sample is the die's temperature and the highest since it was read; above the warning point
THERM_WARN is raised once, above the critical point THERM_CRIT; while a die is above the warning point each 100
ms raise its demanded level by one; a trip holds every die and raises THERM_TRIP; a module reset waits for the
ten seconds to pass. -/
def Obligations.PowerAndHeat : Prop :=
  (∀ (s : State) (n : Nat), powered s = true →
     (∀ feed, feed < 2 → n < 2 ^ 16 →
       (∃ u, exec (.feedLoss feed n) s = .next u ∧ u.fld .pwr (0x48 + 4 * feed) 0 16 = n ∧ u.dies = s.dies) ∧
       (∃ u, exec (.feedReturn feed n) s = .next u ∧ u.fld .pwr (0x48 + 4 * feed) 0 16 = n ∧ u.dies = s.dies)) ∧
     (steady s = false → n < 2 ^ 16 → ∃ u, exec (.capTick n) s = .next u ∧ u.fld .pwr 0x50 0 16 = n ∧
       u.supply.watts.getLast? = some n ∧ (10 ≤ s.supply.watts.length → u.supply.watts = s.supply.watts.drop
         (s.supply.watts.length - 9) ++ [n])) ∧
     (steady s = true → exec (.capTick n) s = .next (capAct (inputSample s n))) ∧
     (∀ d, s.fld .pwr 0x54 0 16 < s.fld .pwr 0x50 16 16 → s.fld .pwr 0x54 0 16 ≠ 0 → s.fld .pwr 0x54 17 1 = 1 →
       (trimOrder s).find? (fun d => decide (demanded s d < 7)) = some d → d < 8 →
       capLevel (capAct s) d = demanded s d + 1 ∧ ∀ e, e < 8 → e ≠ d → capLevel (capAct s) e = capLevel s e) ∧
     (∀ die, die < s.part.dies → s.pstate ≠ .curing → ∃ u, exec (.trimChange die) s = .next u ∧
       levelOf u die = demanded s die ∧ u.pstate = levelState (s.setFld .pwr (0x60 + 4 * die) 4 3 (demanded s die)) ∧
       u.dies = s.dies)) ∧
  (∀ (s : State) (die temp sensor : Nat), die < s.part.dies → powered s = true →
     (sensor < 16 → temp < 1024 → dieHeld s die = false → s.pstate ≠ .curing → s.mas.ready = false →
       s.fld .thm 0x4C 24 1 = 0 → s.fld .thm 0x4C 16 8 = 0 → ∃ u, exec (.thermalSample die temp sensor) s = .next u ∧
         u.fld .thm (0x50 + 4 * die) 0 10 = temp ∧
         u.fld .thm (0x50 + 4 * die) 10 10 = max temp (s.fld .thm (0x50 + 4 * die) 10 10) ∧
         u.fld .thm (0x50 + 4 * die) 20 4 = sensor ∧
         (warnPoint s < temp → u.fld .thm 0x4C die 1 = 1) ∧
         (critPoint s < temp → u.fld .thm 0x4C (8 + die) 1 = 1) ∧
         (warnPoint s < temp → s.fld .thm 0x4C die 1 = 0 → u.fld .thm 0x10 1 1 = 1) ∧
         (temp + 20 ≤ warnPoint s → u.fld .thm 0x4C die 1 = 0)) ∧
     (let now := s.fld .thm (0x50 + 4 * die) 0 10
      steady s = true →
       (warnPoint s < now → exec (.thermalTrimTick die) s = .next (setThermLevel s die (min 7 (demanded s die + 1)))) ∧
       (now + 20 ≤ warnPoint s → exec (.thermalTrimTick die) s = .next (setThermLevel s die (thermLevel s die - 1))) ∧
       (now ≤ warnPoint s → warnPoint s < now + 20 → exec (.thermalTrimTick die) s = .next s)) ∧
     (∃ u, exec (.thermTrip die) s = .next u ∧ (∀ d, (u.die d).run = .held) ∧ u.fld .thm 0x4C (16 + die) 1 = 1 ∧
       u.fld .thm 0x4C 24 1 = 1 ∧ u.fld .thm 0x10 1 1 = 1 ∧ u.supply.tripTimer = true ∧ u.ashlars = [] ∧
       u.flash = s.flash ∧ tripHeld u = true) ∧
     (∃ u, exec .tripHoldExpiry s = .next u ∧ u.supply.tripTimer = false) ∧
     (tripHeld s = true → exec .moduleReset s = .next s))

/-- R653 to R658, R686: a request that finds the module at rest begins the entry, one that does not is refused with its
reason; an entry that can go on to its end leaves the module in Curing, its clocks off; an enabled wake source brings
it back, one that is not is counted; WAKE_N wakes by its falling edge and re-arms high. -/
def Obligations.CuringAndWakes : Prop :=
  ∀ (s : State), powered s = true →
    (s.pstate ≠ .curing → s.fld .pwr 0x40 2 1 = 0 →
      (cureWhy s ≠ 0 → ∃ u, exec .cureRequest s = .next u ∧ u.fld .pwr 0x44 2 1 = 1 ∧ u.fld .pwr 0x44 4 4 = cureWhy s ∧
        u.pstate = s.pstate ∧ u.dies = s.dies ∧ u.ashlars = s.ashlars) ∧
      (cureWhy s = 0 → exec .cureRequest s =
        .next (cureAdvance (cureBegin ((s.setFld .pwr 0x44 2 1 0).setFld .pwr 0x44 4 4 0))))) ∧
    (let u := cureEnd s
     u.pstate = .curing ∧ u.fld .clk 0x40 0 16 = 0 ∧ u.fld .pwr 0x40 2 1 = 0 ∧ u.fld .pwr 0x10 1 1 = 1 ∧
      (∀ a, (u.ash a).active = Tile.reset ∧ (u.ash a).joiner = (s.ash a).joiner ∧ (u.ash a).spad = (s.ash a).spad) ∧
      ∀ d, (u.die d).tiers = (s.die d).tiers) ∧
    (s.pstate = .curing → ∀ src, src < 5 →
      (s.fld .pwr 0x80 src 1 = 0 → wake s src = s.count16 .pwr 0x84 16 1) ∧
      (s.fld .pwr 0x80 src 1 = 1 → (wake s src).pstate ≠ .curing ∧ (wake s src).fld .pwr 0x10 1 1 = 1 ∧
        (wake s src).fld .pwr 0x84 0 5 = 2 ^ src)) ∧
    (s.pstate ≠ .curing → s.fld .pwr 0x40 2 1 = 0 → ∀ src, wake s src = s) ∧
    exec .hostWake s = .next (wake s 3) ∧
    (let due := s.pair .pwr 0x98
     let t := if s.time.toNat < due then { s with time := BitVec.ofNat 64 due } else s
     exec .timerWake s = .next (wake t 4) ∧
     (s.pstate = .curing → s.fld .pwr 0x80 4 1 = 1 → ∃ u, exec .timerWake s = .next u ∧ u.pstate ≠ .curing ∧
       u.fld .pwr 0x84 0 5 = 16 ∧ due ≤ u.time.toNat)) ∧
    (pinHigh s 1 = true → pinChatters s 1 = false → exec .wakeNEdge s = .next (wake (setPin s 1 false) 0)) ∧
    (pinHigh s 1 = false → exec .wakeNEdge s = .next s) ∧
    (pinChatters s 1 = false → ∃ u, exec .wakeNRelease s = .next u ∧ pinHigh u 1 = true) ∧
    (∀ d l frame, d < s.part.dies → l < 4 → s.pstate = .curing → portKept s d l = true → s.fld (.eth d) 0x44 l 1 = 1 →
      (isWakeFrame s frame = true → exec (.wakeFrame d l frame) s = .next (wake s 2)) ∧
      (isWakeFrame s frame = false → exec (.wakeFrame d l frame) s = .next (s.ethCount d l 0 1)))

/-- R352, R665, R687: a PLL that loses lock shows UNLOCK and raises PLL_UNLOCK: a fabric clock's die is held and degraded
with its lintels down, a memory clock's controller stops, mclk's loss stops the Mason until it relocks and restarts,
tclk's puts the time base in holdover, pclk's takes its endpoint's link down; a lintel between two running dies comes
up. -/
def Obligations.ClocksAndLintels : Prop :=
  ∀ (s : State) (die : Nat), powered s = true →
    (die < s.part.dies → s.fld .clk 0x40 die 1 = 1 → ∃ u, exec (.fclkPllUnlock die) s = .next u ∧
      u.fld (.cfgDie die) 0x50 16 1 = 1 ∧ (s.mas.jobs = [] → (u.die die).run = .held ∧ u.fld .clk 0x44 die 1 = 1 ∧
        u.fld .clk 0x40 die 1 = 0 ∧ u.ashlars = s.ashlars)) ∧
    (∀ c, die < s.part.dies → s.fld .clk 0x40 (8 + die) 1 = 1 → (s.die die).stopped.contains c = false → s.mas.jobs = [] →
      ∃ u, exec (.memclkPllUnlock die c) s = .next u ∧ (u.die die).stopped = c :: (s.die die).stopped ∧
        u.fld .clk 0x40 (8 + die) 1 = 0 ∧ u.fld (ctlPage die c) 0x10 1 1 = 1 ∧ (u.die die).tiers = (s.die die).tiers) ∧
    (s.fld .clk 0x40 16 1 = 1 → ∃ u, exec .mclkPllUnlock s = .next u ∧ u.mas.ready = false ∧ u.fld .clk 0x44 16 1 = 1 ∧
      u.fld .clk 0x10 1 1 = 1 ∧ u.ashlars = s.ashlars) ∧
    (s.fld .clk 0x40 16 1 = 0 → s.reg .clk 0x40 ≠ 0 → exec .mclkRelock s =
      .next (restartMason (s.setFld .clk 0x40 16 1 1) 3)) ∧
    (s.fld .clk 0x40 17 1 = 1 → ∃ u, exec .tclkPllUnlock s = .next u ∧ u.fld .tim 0x60 1 1 = 1 ∧ u.time = s.time ∧
      u.fld .clk 0x44 17 1 = 1) ∧
    (s.fld .clk 0x40 17 1 = 0 → ∃ u, exec .tclkRelock s = .next u ∧ u.fld .clk 0x40 17 1 = 1 ∧ u.time = s.time ∧
      u.fld .tim 0x60 1 1 = s.fld .tim 0x60 1 1) ∧
    (∀ k, k < 2 → s.fld .clk 0x40 (18 + k) 1 = 1 → linkUp s k = true →
      exec (.pclkPllUnlock k) s = .next (pciDown (unlock s (18 + k)) k true)) ∧
    (∀ side e, neighbour s.part die side = some e → pageExists s.part (.lin die side) = true →
      (lintelRuns s die side = true → ∃ u, exec (.lintelUp die side) s = .next u ∧ u.fld (.lin die side) 0x44 0 1 = 1 ∧
        u.fld (.lin e (opposite side)) 0x44 0 1 = 1 ∧ u.dies = s.dies) ∧
      (lintelRuns s die side = false → ∃ u, exec (.lintelDown die side) s = .next u ∧ u.fld (.lin die side) 0x44 0 1 = 0 ∧
        u.fld (.lin e (opposite side)) 0x44 0 1 = 0 ∧ u.dies = s.dies))

/-! ### The whole machine -/

/-- A step takes the command at the front of the queue and runs it on the state with the queue's rest. With an empty queue
one cycle of the time base passes, which is the model's choice (log entry 3): R536, a cycle of tclk adds INCR and
carries its fraction, and of an adjustment 1 ns for each 1,024 ns; R665, without tclk the time goes on by 100 ns; nothing else changes. -/
def Obligations.CommandQueue : Prop :=
  ∀ (s : State) (c : Instr) (rest : List Instr),
    (s.pending = c :: rest → step s = exec c { s with pending := rest }) ∧
    (s.pending = [] → (s.pci 0).waiting = [] → (s.pci 1).waiting = [] → powered s = false → step s = .next s) ∧
    let still := (s.pci 0).waiting = [] ∧ (s.pci 1).waiting = []
    (s.pending = [] → still → powered s = true → locked s 17 = false → s.slew = 0 →
      step s = .next { s with time := s.time + 100, slewAcc := 0 }) ∧
    (s.pending = [] → still → powered s = true → locked s 17 = true → s.slew = 0 → s.slewAcc = 0 → ∃ t, step s = .next t ∧
      t = { s with time := t.time, timeFrac := t.timeFrac } ∧ (t.time.toNat * 2 ^ 30 + t.timeFrac.toNat) % 2 ^ 94 =
        (s.time.toNat * 2 ^ 30 + s.timeFrac.toNat + (s.reg .tim 0x58).toNat) % 2 ^ 94) ∧
    (s.pending = [] → still → powered s = true → locked s 17 = true → s.slewAcc < 1024 →
      let n := (s.timeFrac.toNat + (s.reg .tim 0x58).toNat) / 2 ^ 30
      let k := min ((s.slewAcc + n) / 1024) s.slew.natAbs
      ∃ t, step s = .next t ∧ t.slew.natAbs = s.slew.natAbs - k ∧ t.slewAcc < 1024 ∧
        t.time = s.time + BitVec.ofInt 64 (n + (s.slew - t.slew)))

/-- R99, R666 and the reset values of R15's registers: after reset every Joiner is halted at 0 with bank 0 active, no swap
armed, its registers, actual lengths and origin 0, no loop, nothing pending and outside its handler, at a task
boundary with empty queues; no packet or report is on its way, a register reads its reset value, and every memory has
its canonical form. -/
def Obligations.ResetState : Prop :=
  (∀ a r, let j := (State.reset.ash a).joiner
    j.state = .halted ∧ j.active = false ∧ j.armed = false ∧ j.pc = 0 ∧ j.rd r = 0 ∧ (∀ k : Fin 4, j.al[k] = 0) ∧ j.bayX = 0 ∧
      j.bayY = 0 ∧ j.depth = 0 ∧ j.pending = 0 ∧ j.handler = false ∧ inFlight (State.reset.ash a) = [] ∧
      atBoundary (State.reset.ash a) = true) ∧
  State.reset.net = [] ∧ State.reset.portWait = [] ∧ State.reset.reports = [] ∧ State.reset.pending = [] ∧
  (∀ p off, State.reset.reg p off = resetWord p off) ∧ State.reset.memsWf = true

/-- A command that names blocks the part has is answered with a next state, in every state; one that names a block it has
not faults, where it has the shape of its row; nothing is refused. -/
def Obligations.CommandsAnswer : Prop :=
  ∀ (c : Instr) (s : State),
    (c.onPart s.part = true → Answers (exec c s)) ∧
    (c.shaped = true → c.onPart s.part = false → exec c s = .fault .noSuchBlock)

/-- Whatever a command does, the commands waiting behind it, the part and its serial number stay, so what a later command
names exists as before. -/
def Obligations.CommandsKeep : Prop :=
  ∀ (c : Instr) (s t : State), exec c s = .next t → t.pending = s.pending ∧ t.part = s.part ∧ t.serial = s.serial

/-- Every step keeps every memory of the module in its canonical form: the scratchpads, the Joiners' memories, the tiers
and the template stores. -/
def Obligations.MemoriesCanonical : Prop :=
  ∀ s t : State, s.memsWf = true → step s = .next t → t.memsWf = true
end

