-- ==== Sys2Proof/Laws/Table.lean ====
section
/-! SUPPORT. Laws of sparse tables and registers: what is read after a write. -/

namespace Sys2Proof.Machine

theorem tget_tset_same {κ α : Type} [DecidableEq κ] (t : Table κ α) (k : κ) (v d : α) :
    tget (tset t k v) k d = v := by
  induction t with
  | nil => simp [tset, tget]
  | cons e r ih => by_cases h : e.1 = k <;> simp [tset, tget, h, ih]

theorem tget_tset_ne {κ α : Type} [DecidableEq κ] (t : Table κ α) {j k : κ} (v d : α) (h : j ≠ k) :
    tget (tset t k v) j d = tget t j d := by
  induction t with
  | nil => simp [tset, tget, Ne.symm h]
  | cons e r ih =>
    by_cases he : e.1 = k
    · simp [tset, tget, he, Ne.symm h]
    · simp only [tset, if_neg he, tget, ih]

/-- The last of two writes to one key stands. -/
theorem tset_tset {κ α : Type} [DecidableEq κ] (t : Table κ α) (k : κ) (v w : α) : tset (tset t k v) k w = tset t k w := by
  induction t with
  | nil => simp [tset]
  | cons e r ih => by_cases h : e.1 = k <;> simp [tset, h, ih]

/-- A register reads what was last written to it. -/
@[simp] theorem State.reg_setReg_same (s : State) (p : Page) (off : Nat) (v : Word) :
    (s.setReg p off v).reg p off = v := by
  simp [State.reg, State.setReg, tget_tset_same]

/-- A write to another page leaves a register alone. -/
theorem State.reg_setReg_page (s : State) {p q : Page} (off o : Nat) (v : Word) (h : q ≠ p) :
    (s.setReg p off v).reg q o = s.reg q o := by
  simp [State.reg, State.setReg, tget_tset_ne _ _ _ h]

/-- A write to another offset leaves a register alone. -/
theorem State.reg_setReg_off (s : State) (p : Page) {off o : Nat} (v : Word) (h : o ≠ off) :
    (s.setReg p off v).reg p o = s.reg p o := by
  simp [State.reg, State.setReg, tget_tset_same, tget_tset_ne _ _ _ h]

/-- An ashlar reads as it was last set. -/
@[simp] theorem State.ash_setAsh_same (s : State) (a : Ash) (v : Ashlar) : (s.setAsh a v).ash a = v := by
  simp [State.ash, State.setAsh, tget_tset_same]

theorem State.ash_setAsh_ne (s : State) {a b : Ash} (v : Ashlar) (h : b ≠ a) : (s.setAsh a v).ash b = s.ash b := by
  simp [State.ash, State.setAsh, tget_tset_ne _ _ _ h]

@[simp] theorem State.ash_onAsh_same (s : State) (a : Ash) (f : Ashlar → Ashlar) : (s.onAsh a f).ash a = f (s.ash a) := by
  simp [State.onAsh]

theorem State.ash_onAsh_ne (s : State) {a b : Ash} (f : Ashlar → Ashlar) (h : b ≠ a) : (s.onAsh a f).ash b = s.ash b := by
  simp [State.onAsh, State.ash_setAsh_ne _ _ h]

/-- The last of two settings of an ashlar stands. -/
theorem State.setAsh_setAsh (s : State) (a : Ash) (v w : Ashlar) : (s.setAsh a v).setAsh a w = s.setAsh a w := by
  simp [State.setAsh, tset_tset]

/-- Two changes of one ashlar are one. -/
theorem State.onAsh_onAsh (s : State) (a : Ash) (f g : Ashlar → Ashlar) :
    (s.onAsh a f).onAsh a g = s.onAsh a fun v => g (f v) := by
  simp [State.onAsh, State.setAsh_setAsh]

/-- Two changes that agree on the ashlar as it stands are the same. -/
theorem State.onAsh_congr (s : State) (a : Ash) {f g : Ashlar → Ashlar} (h : f (s.ash a) = g (s.ash a)) :
    s.onAsh a f = s.onAsh a g := by simp [State.onAsh, h]

/-- A die reads as it was last set. -/
@[simp] theorem State.die_setDie_same (s : State) (d : Nat) (v : Die) : (s.setDie d v).die d = v := by
  simp [State.die, State.setDie]

theorem State.die_setDie_ne (s : State) {d e : Nat} (v : Die) (h : e % 8 ≠ d % 8) : (s.setDie d v).die e = s.die e := by
  simp only [State.die, State.setDie]
  exact Vector.getElem_set_ne _ _ (fun x => h x.symm)

end Sys2Proof.Machine
end

