-- ==== Sys2Proof/Laws/Bits.lean ====
section
/-! SUPPORT. Laws of bit fields: a field reads what was written to it, and a write leaves the bits beside it alone. -/

namespace Sys2Proof.Machine

/-- A register with a field set, as a number: what lies above, the field, what lies below. -/
theorem toNat_setBits (w : Word) (lo n v : Nat) (h : lo + n ≤ 32) :
    (setBits w lo n v).toNat = (w.toNat / 2 ^ lo / 2 ^ n * 2 ^ n + v % 2 ^ n) * 2 ^ lo + w.toNat % 2 ^ lo := by
  have h1 := Nat.div_add_mod w.toNat (2 ^ lo)
  have h2 := Nat.div_add_mod (w.toNat / 2 ^ lo) (2 ^ n)
  have hw : w.toNat < 2 ^ 32 := w.isLt
  have hv : v % 2 ^ n < 2 ^ n := Nat.mod_lt _ (Nat.two_pow_pos n)
  have hf : w.toNat / 2 ^ lo % 2 ^ n < 2 ^ n := Nat.mod_lt _ (Nat.two_pow_pos n)
  have hl : w.toNat % 2 ^ lo < 2 ^ lo := Nat.mod_lt _ (Nat.two_pow_pos lo)
  generalize hH : w.toNat / 2 ^ lo / 2 ^ n = H at *
  generalize hF : w.toNat / 2 ^ lo % 2 ^ n = F at *
  generalize hL : w.toNat % 2 ^ lo = L at *
  generalize hV : v % 2 ^ n = V at *
  have hq : w.toNat / 2 ^ lo = H * 2 ^ n + F := by rw [← h2, Nat.mul_comm]
  have hW : w.toNat = (H * 2 ^ n + F) * 2 ^ lo + L := by rw [← h1, hq, Nat.mul_comm]
  have hHb : H < 2 ^ (32 - lo - n) := by
    rw [← hH, Nat.div_div_eq_div_mul, ← Nat.pow_add]
    exact Nat.div_lt_of_lt_mul (by rw [← Nat.pow_add, show lo + n + (32 - lo - n) = 32 by omega]; exact hw)
  have hb : (H * 2 ^ n + V) * 2 ^ lo + L < 2 ^ 32 := by
    have e1 : (H + 1) * 2 ^ n ≤ 2 ^ (32 - lo) := by
      calc (H + 1) * 2 ^ n ≤ 2 ^ (32 - lo - n) * 2 ^ n := Nat.mul_le_mul_right _ hHb
        _ = 2 ^ (32 - lo) := by rw [← Nat.pow_add]; congr 1; omega
    have e2 : (H * 2 ^ n + V + 1) * 2 ^ lo ≤ 2 ^ 32 := by
      calc (H * 2 ^ n + V + 1) * 2 ^ lo ≤ ((H + 1) * 2 ^ n) * 2 ^ lo := by
            apply Nat.mul_le_mul_right; rw [Nat.add_mul, Nat.one_mul]; omega
        _ ≤ 2 ^ (32 - lo) * 2 ^ lo := Nat.mul_le_mul_right _ e1
        _ = 2 ^ 32 := by rw [← Nat.pow_add]; congr 1; omega
    rw [Nat.add_mul, Nat.one_mul] at e2
    omega
  have hs : w.toNat - F * 2 ^ lo + V * 2 ^ lo = (H * 2 ^ n + V) * 2 ^ lo + L := by
    rw [hW, Nat.add_mul, Nat.add_mul]; omega
  simp only [setBits, bits, hF, hV, BitVec.toNat_ofNat]
  rw [hs, Nat.mod_eq_of_lt hb]

/-- A field reads what was written to it. -/
theorem bits_setBits_same (w : Word) (lo n v : Nat) (h : lo + n ≤ 32) : bits (setBits w lo n v) lo n = v % 2 ^ n := by
  unfold bits
  rw [toNat_setBits w lo n v h, Nat.mul_comm _ (2 ^ lo), Nat.mul_add_div (Nat.two_pow_pos lo),
    Nat.div_eq_of_lt (Nat.mod_lt _ (Nat.two_pow_pos lo)), Nat.add_zero, Nat.mul_comm _ (2 ^ n), Nat.mul_add_mod,
    Nat.mod_mod]

/-- A field below a written one is left alone. -/
theorem bits_setBits_below (w : Word) (lo n v l m : Nat) (h : lo + n ≤ 32) (hb : l + m ≤ lo) :
    bits (setBits w lo n v) l m = bits w l m := by
  unfold bits
  rw [toNat_setBits w lo n v h]
  obtain ⟨k, rfl⟩ : ∃ k, lo = l + m + k := ⟨lo - (l + m), by omega⟩
  generalize (w.toNat / 2 ^ (l + m + k) / 2 ^ n * 2 ^ n + v % 2 ^ n) = A
  have e : ∀ x : Nat, x / 2 ^ l % 2 ^ m = x % 2 ^ (l + m) / 2 ^ l := by
    intro x; rw [Nat.pow_add, Nat.mod_mul_right_div_self]
  rw [e, e]
  congr 1
  rw [Nat.pow_add, Nat.mul_left_comm, Nat.mul_add_mod, Nat.mod_mul_right_mod]

/-- A field above a written one is left alone. -/
theorem bits_setBits_above (w : Word) (lo n v l m : Nat) (h : lo + n ≤ 32) (hb : lo + n ≤ l) :
    bits (setBits w lo n v) l m = bits w l m := by
  unfold bits
  rw [toNat_setBits w lo n v h]
  obtain ⟨k, rfl⟩ : ∃ k, l = lo + n + k := ⟨l - (lo + n), by omega⟩
  have e : ∀ x : Nat, x / 2 ^ (lo + n + k) = x / 2 ^ lo / 2 ^ n / 2 ^ k := by
    intro x; rw [Nat.pow_add, Nat.pow_add, Nat.div_div_eq_div_mul, Nat.div_div_eq_div_mul, Nat.mul_assoc]
  rw [e, e, Nat.mul_comm _ (2 ^ lo), Nat.mul_add_div (Nat.two_pow_pos lo),
    Nat.div_eq_of_lt (Nat.mod_lt w.toNat (Nat.two_pow_pos lo)), Nat.add_zero, Nat.mul_comm _ (2 ^ n),
    Nat.mul_add_div (Nat.two_pow_pos n), Nat.div_eq_of_lt (Nat.mod_lt v (Nat.two_pow_pos n)), Nat.add_zero]

/-- A field of a register reads what was written to it. -/
theorem State.fld_setFld_same (s : State) (p : Page) (off lo n v : Nat) (h : lo + n ≤ 32) :
    (s.setFld p off lo n v).fld p off lo n = v % 2 ^ n := by
  simp [State.fld, State.setFld, bits_setBits_same _ _ _ _ h]

end Sys2Proof.Machine
end

