-- ==== Sys2Proof/Laws/State.lean ====
section
/-! SUPPORT. What each update of the state leaves alone, field by field. -/

namespace Sys2Proof.Machine

/-! ### setReg -/

@[simp] theorem State.setReg_part (s : State) (p : Page) (off : Nat) (v : Word) : (s.setReg p off v).part = s.part := rfl
@[simp] theorem State.setReg_latch (s : State) (p : Page) (off : Nat) (v : Word) : (s.setReg p off v).latch = s.latch := rfl
@[simp] theorem State.setReg_loHeld (s : State) (p : Page) (off : Nat) (v : Word) : (s.setReg p off v).loHeld = s.loHeld := rfl
@[simp] theorem State.setReg_ashlars (s : State) (p : Page) (off : Nat) (v : Word) : (s.setReg p off v).ashlars = s.ashlars := rfl
@[simp] theorem State.setReg_dies (s : State) (p : Page) (off : Nat) (v : Word) : (s.setReg p off v).dies = s.dies := rfl
@[simp] theorem State.setReg_pstate (s : State) (p : Page) (off : Nat) (v : Word) : (s.setReg p off v).pstate = s.pstate := rfl
@[simp] theorem State.setReg_time (s : State) (p : Page) (off : Nat) (v : Word) : (s.setReg p off v).time = s.time := rfl
@[simp] theorem State.setReg_timeFrac (s : State) (p : Page) (off : Nat) (v : Word) : (s.setReg p off v).timeFrac = s.timeFrac := rfl
@[simp] theorem State.setReg_slew (s : State) (p : Page) (off : Nat) (v : Word) : (s.setReg p off v).slew = s.slew := rfl
@[simp] theorem State.setReg_slewAcc (s : State) (p : Page) (off : Nat) (v : Word) : (s.setReg p off v).slewAcc = s.slewAcc := rfl
@[simp] theorem State.setReg_ppsFirst (s : State) (p : Page) (off : Nat) (v : Word) : (s.setReg p off v).ppsFirst = s.ppsFirst := rfl
@[simp] theorem State.setReg_ppsGood (s : State) (p : Page) (off : Nat) (v : Word) : (s.setReg p off v).ppsGood = s.ppsGood := rfl
@[simp] theorem State.setReg_mas (s : State) (p : Page) (off : Nat) (v : Word) : (s.setReg p off v).mas = s.mas := rfl
@[simp] theorem State.setReg_pcis (s : State) (p : Page) (off : Nat) (v : Word) : (s.setReg p off v).pcis = s.pcis := rfl
@[simp] theorem State.setReg_aperture (s : State) (p : Page) (off : Nat) (v : Word) : (s.setReg p off v).aperture = s.aperture := rfl
@[simp] theorem State.setReg_flash (s : State) (p : Page) (off : Nat) (v : Word) : (s.setReg p off v).flash = s.flash := rfl
@[simp] theorem State.setReg_image (s : State) (p : Page) (off : Nat) (v : Word) : (s.setReg p off v).image = s.image := rfl
@[simp] theorem State.setReg_doneWaited (s : State) (p : Page) (off : Nat) (v : Word) : (s.setReg p off v).doneWaited = s.doneWaited := rfl
@[simp] theorem State.setReg_fuses (s : State) (p : Page) (off : Nat) (v : Word) : (s.setReg p off v).fuses = s.fuses := rfl
@[simp] theorem State.setReg_supply (s : State) (p : Page) (off : Nat) (v : Word) : (s.setReg p off v).supply = s.supply := rfl
@[simp] theorem State.setReg_serial (s : State) (p : Page) (off : Nat) (v : Word) : (s.setReg p off v).serial = s.serial := rfl
@[simp] theorem State.setReg_smbOffset (s : State) (p : Page) (off : Nat) (v : Word) : (s.setReg p off v).smbOffset = s.smbOffset := rfl
@[simp] theorem State.setReg_jtag (s : State) (p : Page) (off : Nat) (v : Word) : (s.setReg p off v).jtag = s.jtag := rfl
@[simp] theorem State.setReg_cages (s : State) (p : Page) (off : Nat) (v : Word) : (s.setReg p off v).cages = s.cages := rfl
@[simp] theorem State.setReg_net (s : State) (p : Page) (off : Nat) (v : Word) : (s.setReg p off v).net = s.net := rfl
@[simp] theorem State.setReg_portWait (s : State) (p : Page) (off : Nat) (v : Word) : (s.setReg p off v).portWait = s.portWait := rfl
@[simp] theorem State.setReg_past (s : State) (p : Page) (off : Nat) (v : Word) : (s.setReg p off v).past = s.past := rfl
@[simp] theorem State.setReg_reports (s : State) (p : Page) (off : Nat) (v : Word) : (s.setReg p off v).reports = s.reports := rfl
@[simp] theorem State.setReg_heldEvents (s : State) (p : Page) (off : Nat) (v : Word) : (s.setReg p off v).heldEvents = s.heldEvents := rfl
@[simp] theorem State.setReg_out (s : State) (p : Page) (off : Nat) (v : Word) : (s.setReg p off v).out = s.out := rfl
@[simp] theorem State.setReg_freeIdx (s : State) (p : Page) (off : Nat) (v : Word) : (s.setReg p off v).freeIdx = s.freeIdx := rfl
@[simp] theorem State.setReg_pending (s : State) (p : Page) (off : Nat) (v : Word) : (s.setReg p off v).pending = s.pending := rfl

/-! ### setFld -/

@[simp] theorem State.setFld_part (s : State) (p : Page) (off lo n v : Nat) : (s.setFld p off lo n v).part = s.part := rfl
@[simp] theorem State.setFld_latch (s : State) (p : Page) (off lo n v : Nat) : (s.setFld p off lo n v).latch = s.latch := rfl
@[simp] theorem State.setFld_loHeld (s : State) (p : Page) (off lo n v : Nat) : (s.setFld p off lo n v).loHeld = s.loHeld := rfl
@[simp] theorem State.setFld_ashlars (s : State) (p : Page) (off lo n v : Nat) : (s.setFld p off lo n v).ashlars = s.ashlars := rfl
@[simp] theorem State.setFld_dies (s : State) (p : Page) (off lo n v : Nat) : (s.setFld p off lo n v).dies = s.dies := rfl
@[simp] theorem State.setFld_pstate (s : State) (p : Page) (off lo n v : Nat) : (s.setFld p off lo n v).pstate = s.pstate := rfl
@[simp] theorem State.setFld_time (s : State) (p : Page) (off lo n v : Nat) : (s.setFld p off lo n v).time = s.time := rfl
@[simp] theorem State.setFld_timeFrac (s : State) (p : Page) (off lo n v : Nat) : (s.setFld p off lo n v).timeFrac = s.timeFrac := rfl
@[simp] theorem State.setFld_slew (s : State) (p : Page) (off lo n v : Nat) : (s.setFld p off lo n v).slew = s.slew := rfl
@[simp] theorem State.setFld_slewAcc (s : State) (p : Page) (off lo n v : Nat) : (s.setFld p off lo n v).slewAcc = s.slewAcc := rfl
@[simp] theorem State.setFld_ppsFirst (s : State) (p : Page) (off lo n v : Nat) : (s.setFld p off lo n v).ppsFirst = s.ppsFirst := rfl
@[simp] theorem State.setFld_ppsGood (s : State) (p : Page) (off lo n v : Nat) : (s.setFld p off lo n v).ppsGood = s.ppsGood := rfl
@[simp] theorem State.setFld_mas (s : State) (p : Page) (off lo n v : Nat) : (s.setFld p off lo n v).mas = s.mas := rfl
@[simp] theorem State.setFld_pcis (s : State) (p : Page) (off lo n v : Nat) : (s.setFld p off lo n v).pcis = s.pcis := rfl
@[simp] theorem State.setFld_aperture (s : State) (p : Page) (off lo n v : Nat) : (s.setFld p off lo n v).aperture = s.aperture := rfl
@[simp] theorem State.setFld_flash (s : State) (p : Page) (off lo n v : Nat) : (s.setFld p off lo n v).flash = s.flash := rfl
@[simp] theorem State.setFld_image (s : State) (p : Page) (off lo n v : Nat) : (s.setFld p off lo n v).image = s.image := rfl
@[simp] theorem State.setFld_doneWaited (s : State) (p : Page) (off lo n v : Nat) : (s.setFld p off lo n v).doneWaited = s.doneWaited := rfl
@[simp] theorem State.setFld_fuses (s : State) (p : Page) (off lo n v : Nat) : (s.setFld p off lo n v).fuses = s.fuses := rfl
@[simp] theorem State.setFld_supply (s : State) (p : Page) (off lo n v : Nat) : (s.setFld p off lo n v).supply = s.supply := rfl
@[simp] theorem State.setFld_serial (s : State) (p : Page) (off lo n v : Nat) : (s.setFld p off lo n v).serial = s.serial := rfl
@[simp] theorem State.setFld_smbOffset (s : State) (p : Page) (off lo n v : Nat) : (s.setFld p off lo n v).smbOffset = s.smbOffset := rfl
@[simp] theorem State.setFld_jtag (s : State) (p : Page) (off lo n v : Nat) : (s.setFld p off lo n v).jtag = s.jtag := rfl
@[simp] theorem State.setFld_cages (s : State) (p : Page) (off lo n v : Nat) : (s.setFld p off lo n v).cages = s.cages := rfl
@[simp] theorem State.setFld_net (s : State) (p : Page) (off lo n v : Nat) : (s.setFld p off lo n v).net = s.net := rfl
@[simp] theorem State.setFld_portWait (s : State) (p : Page) (off lo n v : Nat) : (s.setFld p off lo n v).portWait = s.portWait := rfl
@[simp] theorem State.setFld_past (s : State) (p : Page) (off lo n v : Nat) : (s.setFld p off lo n v).past = s.past := rfl
@[simp] theorem State.setFld_reports (s : State) (p : Page) (off lo n v : Nat) : (s.setFld p off lo n v).reports = s.reports := rfl
@[simp] theorem State.setFld_heldEvents (s : State) (p : Page) (off lo n v : Nat) : (s.setFld p off lo n v).heldEvents = s.heldEvents := rfl
@[simp] theorem State.setFld_out (s : State) (p : Page) (off lo n v : Nat) : (s.setFld p off lo n v).out = s.out := rfl
@[simp] theorem State.setFld_freeIdx (s : State) (p : Page) (off lo n v : Nat) : (s.setFld p off lo n v).freeIdx = s.freeIdx := rfl
@[simp] theorem State.setFld_pending (s : State) (p : Page) (off lo n v : Nat) : (s.setFld p off lo n v).pending = s.pending := rfl

/-! ### setAsh -/

@[simp] theorem State.setAsh_part (s : State) (a : Ash) (v : Ashlar) : (s.setAsh a v).part = s.part := rfl
@[simp] theorem State.setAsh_regs (s : State) (a : Ash) (v : Ashlar) : (s.setAsh a v).regs = s.regs := rfl
@[simp] theorem State.setAsh_latch (s : State) (a : Ash) (v : Ashlar) : (s.setAsh a v).latch = s.latch := rfl
@[simp] theorem State.setAsh_loHeld (s : State) (a : Ash) (v : Ashlar) : (s.setAsh a v).loHeld = s.loHeld := rfl
@[simp] theorem State.setAsh_dies (s : State) (a : Ash) (v : Ashlar) : (s.setAsh a v).dies = s.dies := rfl
@[simp] theorem State.setAsh_pstate (s : State) (a : Ash) (v : Ashlar) : (s.setAsh a v).pstate = s.pstate := rfl
@[simp] theorem State.setAsh_time (s : State) (a : Ash) (v : Ashlar) : (s.setAsh a v).time = s.time := rfl
@[simp] theorem State.setAsh_timeFrac (s : State) (a : Ash) (v : Ashlar) : (s.setAsh a v).timeFrac = s.timeFrac := rfl
@[simp] theorem State.setAsh_slew (s : State) (a : Ash) (v : Ashlar) : (s.setAsh a v).slew = s.slew := rfl
@[simp] theorem State.setAsh_slewAcc (s : State) (a : Ash) (v : Ashlar) : (s.setAsh a v).slewAcc = s.slewAcc := rfl
@[simp] theorem State.setAsh_ppsFirst (s : State) (a : Ash) (v : Ashlar) : (s.setAsh a v).ppsFirst = s.ppsFirst := rfl
@[simp] theorem State.setAsh_ppsGood (s : State) (a : Ash) (v : Ashlar) : (s.setAsh a v).ppsGood = s.ppsGood := rfl
@[simp] theorem State.setAsh_mas (s : State) (a : Ash) (v : Ashlar) : (s.setAsh a v).mas = s.mas := rfl
@[simp] theorem State.setAsh_pcis (s : State) (a : Ash) (v : Ashlar) : (s.setAsh a v).pcis = s.pcis := rfl
@[simp] theorem State.setAsh_aperture (s : State) (a : Ash) (v : Ashlar) : (s.setAsh a v).aperture = s.aperture := rfl
@[simp] theorem State.setAsh_flash (s : State) (a : Ash) (v : Ashlar) : (s.setAsh a v).flash = s.flash := rfl
@[simp] theorem State.setAsh_image (s : State) (a : Ash) (v : Ashlar) : (s.setAsh a v).image = s.image := rfl
@[simp] theorem State.setAsh_doneWaited (s : State) (a : Ash) (v : Ashlar) : (s.setAsh a v).doneWaited = s.doneWaited := rfl
@[simp] theorem State.setAsh_fuses (s : State) (a : Ash) (v : Ashlar) : (s.setAsh a v).fuses = s.fuses := rfl
@[simp] theorem State.setAsh_supply (s : State) (a : Ash) (v : Ashlar) : (s.setAsh a v).supply = s.supply := rfl
@[simp] theorem State.setAsh_serial (s : State) (a : Ash) (v : Ashlar) : (s.setAsh a v).serial = s.serial := rfl
@[simp] theorem State.setAsh_smbOffset (s : State) (a : Ash) (v : Ashlar) : (s.setAsh a v).smbOffset = s.smbOffset := rfl
@[simp] theorem State.setAsh_jtag (s : State) (a : Ash) (v : Ashlar) : (s.setAsh a v).jtag = s.jtag := rfl
@[simp] theorem State.setAsh_cages (s : State) (a : Ash) (v : Ashlar) : (s.setAsh a v).cages = s.cages := rfl
@[simp] theorem State.setAsh_net (s : State) (a : Ash) (v : Ashlar) : (s.setAsh a v).net = s.net := rfl
@[simp] theorem State.setAsh_portWait (s : State) (a : Ash) (v : Ashlar) : (s.setAsh a v).portWait = s.portWait := rfl
@[simp] theorem State.setAsh_past (s : State) (a : Ash) (v : Ashlar) : (s.setAsh a v).past = s.past := rfl
@[simp] theorem State.setAsh_reports (s : State) (a : Ash) (v : Ashlar) : (s.setAsh a v).reports = s.reports := rfl
@[simp] theorem State.setAsh_heldEvents (s : State) (a : Ash) (v : Ashlar) : (s.setAsh a v).heldEvents = s.heldEvents := rfl
@[simp] theorem State.setAsh_out (s : State) (a : Ash) (v : Ashlar) : (s.setAsh a v).out = s.out := rfl
@[simp] theorem State.setAsh_freeIdx (s : State) (a : Ash) (v : Ashlar) : (s.setAsh a v).freeIdx = s.freeIdx := rfl
@[simp] theorem State.setAsh_pending (s : State) (a : Ash) (v : Ashlar) : (s.setAsh a v).pending = s.pending := rfl

/-! ### onAsh -/

@[simp] theorem State.onAsh_part (s : State) (a : Ash) (f : Ashlar → Ashlar) : (s.onAsh a f).part = s.part := rfl
@[simp] theorem State.onAsh_regs (s : State) (a : Ash) (f : Ashlar → Ashlar) : (s.onAsh a f).regs = s.regs := rfl
@[simp] theorem State.onAsh_latch (s : State) (a : Ash) (f : Ashlar → Ashlar) : (s.onAsh a f).latch = s.latch := rfl
@[simp] theorem State.onAsh_loHeld (s : State) (a : Ash) (f : Ashlar → Ashlar) : (s.onAsh a f).loHeld = s.loHeld := rfl
@[simp] theorem State.onAsh_dies (s : State) (a : Ash) (f : Ashlar → Ashlar) : (s.onAsh a f).dies = s.dies := rfl
@[simp] theorem State.onAsh_pstate (s : State) (a : Ash) (f : Ashlar → Ashlar) : (s.onAsh a f).pstate = s.pstate := rfl
@[simp] theorem State.onAsh_time (s : State) (a : Ash) (f : Ashlar → Ashlar) : (s.onAsh a f).time = s.time := rfl
@[simp] theorem State.onAsh_timeFrac (s : State) (a : Ash) (f : Ashlar → Ashlar) : (s.onAsh a f).timeFrac = s.timeFrac := rfl
@[simp] theorem State.onAsh_slew (s : State) (a : Ash) (f : Ashlar → Ashlar) : (s.onAsh a f).slew = s.slew := rfl
@[simp] theorem State.onAsh_slewAcc (s : State) (a : Ash) (f : Ashlar → Ashlar) : (s.onAsh a f).slewAcc = s.slewAcc := rfl
@[simp] theorem State.onAsh_ppsFirst (s : State) (a : Ash) (f : Ashlar → Ashlar) : (s.onAsh a f).ppsFirst = s.ppsFirst := rfl
@[simp] theorem State.onAsh_ppsGood (s : State) (a : Ash) (f : Ashlar → Ashlar) : (s.onAsh a f).ppsGood = s.ppsGood := rfl
@[simp] theorem State.onAsh_mas (s : State) (a : Ash) (f : Ashlar → Ashlar) : (s.onAsh a f).mas = s.mas := rfl
@[simp] theorem State.onAsh_pcis (s : State) (a : Ash) (f : Ashlar → Ashlar) : (s.onAsh a f).pcis = s.pcis := rfl
@[simp] theorem State.onAsh_aperture (s : State) (a : Ash) (f : Ashlar → Ashlar) : (s.onAsh a f).aperture = s.aperture := rfl
@[simp] theorem State.onAsh_flash (s : State) (a : Ash) (f : Ashlar → Ashlar) : (s.onAsh a f).flash = s.flash := rfl
@[simp] theorem State.onAsh_image (s : State) (a : Ash) (f : Ashlar → Ashlar) : (s.onAsh a f).image = s.image := rfl
@[simp] theorem State.onAsh_doneWaited (s : State) (a : Ash) (f : Ashlar → Ashlar) : (s.onAsh a f).doneWaited = s.doneWaited := rfl
@[simp] theorem State.onAsh_fuses (s : State) (a : Ash) (f : Ashlar → Ashlar) : (s.onAsh a f).fuses = s.fuses := rfl
@[simp] theorem State.onAsh_supply (s : State) (a : Ash) (f : Ashlar → Ashlar) : (s.onAsh a f).supply = s.supply := rfl
@[simp] theorem State.onAsh_serial (s : State) (a : Ash) (f : Ashlar → Ashlar) : (s.onAsh a f).serial = s.serial := rfl
@[simp] theorem State.onAsh_smbOffset (s : State) (a : Ash) (f : Ashlar → Ashlar) : (s.onAsh a f).smbOffset = s.smbOffset := rfl
@[simp] theorem State.onAsh_jtag (s : State) (a : Ash) (f : Ashlar → Ashlar) : (s.onAsh a f).jtag = s.jtag := rfl
@[simp] theorem State.onAsh_cages (s : State) (a : Ash) (f : Ashlar → Ashlar) : (s.onAsh a f).cages = s.cages := rfl
@[simp] theorem State.onAsh_net (s : State) (a : Ash) (f : Ashlar → Ashlar) : (s.onAsh a f).net = s.net := rfl
@[simp] theorem State.onAsh_portWait (s : State) (a : Ash) (f : Ashlar → Ashlar) : (s.onAsh a f).portWait = s.portWait := rfl
@[simp] theorem State.onAsh_past (s : State) (a : Ash) (f : Ashlar → Ashlar) : (s.onAsh a f).past = s.past := rfl
@[simp] theorem State.onAsh_reports (s : State) (a : Ash) (f : Ashlar → Ashlar) : (s.onAsh a f).reports = s.reports := rfl
@[simp] theorem State.onAsh_heldEvents (s : State) (a : Ash) (f : Ashlar → Ashlar) : (s.onAsh a f).heldEvents = s.heldEvents := rfl
@[simp] theorem State.onAsh_out (s : State) (a : Ash) (f : Ashlar → Ashlar) : (s.onAsh a f).out = s.out := rfl
@[simp] theorem State.onAsh_freeIdx (s : State) (a : Ash) (f : Ashlar → Ashlar) : (s.onAsh a f).freeIdx = s.freeIdx := rfl
@[simp] theorem State.onAsh_pending (s : State) (a : Ash) (f : Ashlar → Ashlar) : (s.onAsh a f).pending = s.pending := rfl

/-! ### onJ -/

@[simp] theorem State.onJ_part (s : State) (a : Ash) (f : Joiner → Joiner) : (s.onJ a f).part = s.part := rfl
@[simp] theorem State.onJ_regs (s : State) (a : Ash) (f : Joiner → Joiner) : (s.onJ a f).regs = s.regs := rfl
@[simp] theorem State.onJ_latch (s : State) (a : Ash) (f : Joiner → Joiner) : (s.onJ a f).latch = s.latch := rfl
@[simp] theorem State.onJ_loHeld (s : State) (a : Ash) (f : Joiner → Joiner) : (s.onJ a f).loHeld = s.loHeld := rfl
@[simp] theorem State.onJ_dies (s : State) (a : Ash) (f : Joiner → Joiner) : (s.onJ a f).dies = s.dies := rfl
@[simp] theorem State.onJ_pstate (s : State) (a : Ash) (f : Joiner → Joiner) : (s.onJ a f).pstate = s.pstate := rfl
@[simp] theorem State.onJ_time (s : State) (a : Ash) (f : Joiner → Joiner) : (s.onJ a f).time = s.time := rfl
@[simp] theorem State.onJ_timeFrac (s : State) (a : Ash) (f : Joiner → Joiner) : (s.onJ a f).timeFrac = s.timeFrac := rfl
@[simp] theorem State.onJ_slew (s : State) (a : Ash) (f : Joiner → Joiner) : (s.onJ a f).slew = s.slew := rfl
@[simp] theorem State.onJ_slewAcc (s : State) (a : Ash) (f : Joiner → Joiner) : (s.onJ a f).slewAcc = s.slewAcc := rfl
@[simp] theorem State.onJ_ppsFirst (s : State) (a : Ash) (f : Joiner → Joiner) : (s.onJ a f).ppsFirst = s.ppsFirst := rfl
@[simp] theorem State.onJ_ppsGood (s : State) (a : Ash) (f : Joiner → Joiner) : (s.onJ a f).ppsGood = s.ppsGood := rfl
@[simp] theorem State.onJ_mas (s : State) (a : Ash) (f : Joiner → Joiner) : (s.onJ a f).mas = s.mas := rfl
@[simp] theorem State.onJ_pcis (s : State) (a : Ash) (f : Joiner → Joiner) : (s.onJ a f).pcis = s.pcis := rfl
@[simp] theorem State.onJ_aperture (s : State) (a : Ash) (f : Joiner → Joiner) : (s.onJ a f).aperture = s.aperture := rfl
@[simp] theorem State.onJ_flash (s : State) (a : Ash) (f : Joiner → Joiner) : (s.onJ a f).flash = s.flash := rfl
@[simp] theorem State.onJ_image (s : State) (a : Ash) (f : Joiner → Joiner) : (s.onJ a f).image = s.image := rfl
@[simp] theorem State.onJ_doneWaited (s : State) (a : Ash) (f : Joiner → Joiner) : (s.onJ a f).doneWaited = s.doneWaited := rfl
@[simp] theorem State.onJ_fuses (s : State) (a : Ash) (f : Joiner → Joiner) : (s.onJ a f).fuses = s.fuses := rfl
@[simp] theorem State.onJ_supply (s : State) (a : Ash) (f : Joiner → Joiner) : (s.onJ a f).supply = s.supply := rfl
@[simp] theorem State.onJ_serial (s : State) (a : Ash) (f : Joiner → Joiner) : (s.onJ a f).serial = s.serial := rfl
@[simp] theorem State.onJ_smbOffset (s : State) (a : Ash) (f : Joiner → Joiner) : (s.onJ a f).smbOffset = s.smbOffset := rfl
@[simp] theorem State.onJ_jtag (s : State) (a : Ash) (f : Joiner → Joiner) : (s.onJ a f).jtag = s.jtag := rfl
@[simp] theorem State.onJ_cages (s : State) (a : Ash) (f : Joiner → Joiner) : (s.onJ a f).cages = s.cages := rfl
@[simp] theorem State.onJ_net (s : State) (a : Ash) (f : Joiner → Joiner) : (s.onJ a f).net = s.net := rfl
@[simp] theorem State.onJ_portWait (s : State) (a : Ash) (f : Joiner → Joiner) : (s.onJ a f).portWait = s.portWait := rfl
@[simp] theorem State.onJ_past (s : State) (a : Ash) (f : Joiner → Joiner) : (s.onJ a f).past = s.past := rfl
@[simp] theorem State.onJ_reports (s : State) (a : Ash) (f : Joiner → Joiner) : (s.onJ a f).reports = s.reports := rfl
@[simp] theorem State.onJ_heldEvents (s : State) (a : Ash) (f : Joiner → Joiner) : (s.onJ a f).heldEvents = s.heldEvents := rfl
@[simp] theorem State.onJ_out (s : State) (a : Ash) (f : Joiner → Joiner) : (s.onJ a f).out = s.out := rfl
@[simp] theorem State.onJ_freeIdx (s : State) (a : Ash) (f : Joiner → Joiner) : (s.onJ a f).freeIdx = s.freeIdx := rfl
@[simp] theorem State.onJ_pending (s : State) (a : Ash) (f : Joiner → Joiner) : (s.onJ a f).pending = s.pending := rfl

/-! ### setDie -/

@[simp] theorem State.setDie_part (s : State) (d : Nat) (v : Die) : (s.setDie d v).part = s.part := rfl
@[simp] theorem State.setDie_regs (s : State) (d : Nat) (v : Die) : (s.setDie d v).regs = s.regs := rfl
@[simp] theorem State.setDie_latch (s : State) (d : Nat) (v : Die) : (s.setDie d v).latch = s.latch := rfl
@[simp] theorem State.setDie_loHeld (s : State) (d : Nat) (v : Die) : (s.setDie d v).loHeld = s.loHeld := rfl
@[simp] theorem State.setDie_ashlars (s : State) (d : Nat) (v : Die) : (s.setDie d v).ashlars = s.ashlars := rfl
@[simp] theorem State.setDie_pstate (s : State) (d : Nat) (v : Die) : (s.setDie d v).pstate = s.pstate := rfl
@[simp] theorem State.setDie_time (s : State) (d : Nat) (v : Die) : (s.setDie d v).time = s.time := rfl
@[simp] theorem State.setDie_timeFrac (s : State) (d : Nat) (v : Die) : (s.setDie d v).timeFrac = s.timeFrac := rfl
@[simp] theorem State.setDie_slew (s : State) (d : Nat) (v : Die) : (s.setDie d v).slew = s.slew := rfl
@[simp] theorem State.setDie_slewAcc (s : State) (d : Nat) (v : Die) : (s.setDie d v).slewAcc = s.slewAcc := rfl
@[simp] theorem State.setDie_ppsFirst (s : State) (d : Nat) (v : Die) : (s.setDie d v).ppsFirst = s.ppsFirst := rfl
@[simp] theorem State.setDie_ppsGood (s : State) (d : Nat) (v : Die) : (s.setDie d v).ppsGood = s.ppsGood := rfl
@[simp] theorem State.setDie_mas (s : State) (d : Nat) (v : Die) : (s.setDie d v).mas = s.mas := rfl
@[simp] theorem State.setDie_pcis (s : State) (d : Nat) (v : Die) : (s.setDie d v).pcis = s.pcis := rfl
@[simp] theorem State.setDie_aperture (s : State) (d : Nat) (v : Die) : (s.setDie d v).aperture = s.aperture := rfl
@[simp] theorem State.setDie_flash (s : State) (d : Nat) (v : Die) : (s.setDie d v).flash = s.flash := rfl
@[simp] theorem State.setDie_image (s : State) (d : Nat) (v : Die) : (s.setDie d v).image = s.image := rfl
@[simp] theorem State.setDie_doneWaited (s : State) (d : Nat) (v : Die) : (s.setDie d v).doneWaited = s.doneWaited := rfl
@[simp] theorem State.setDie_fuses (s : State) (d : Nat) (v : Die) : (s.setDie d v).fuses = s.fuses := rfl
@[simp] theorem State.setDie_supply (s : State) (d : Nat) (v : Die) : (s.setDie d v).supply = s.supply := rfl
@[simp] theorem State.setDie_serial (s : State) (d : Nat) (v : Die) : (s.setDie d v).serial = s.serial := rfl
@[simp] theorem State.setDie_smbOffset (s : State) (d : Nat) (v : Die) : (s.setDie d v).smbOffset = s.smbOffset := rfl
@[simp] theorem State.setDie_jtag (s : State) (d : Nat) (v : Die) : (s.setDie d v).jtag = s.jtag := rfl
@[simp] theorem State.setDie_cages (s : State) (d : Nat) (v : Die) : (s.setDie d v).cages = s.cages := rfl
@[simp] theorem State.setDie_net (s : State) (d : Nat) (v : Die) : (s.setDie d v).net = s.net := rfl
@[simp] theorem State.setDie_portWait (s : State) (d : Nat) (v : Die) : (s.setDie d v).portWait = s.portWait := rfl
@[simp] theorem State.setDie_past (s : State) (d : Nat) (v : Die) : (s.setDie d v).past = s.past := rfl
@[simp] theorem State.setDie_reports (s : State) (d : Nat) (v : Die) : (s.setDie d v).reports = s.reports := rfl
@[simp] theorem State.setDie_heldEvents (s : State) (d : Nat) (v : Die) : (s.setDie d v).heldEvents = s.heldEvents := rfl
@[simp] theorem State.setDie_out (s : State) (d : Nat) (v : Die) : (s.setDie d v).out = s.out := rfl
@[simp] theorem State.setDie_freeIdx (s : State) (d : Nat) (v : Die) : (s.setDie d v).freeIdx = s.freeIdx := rfl
@[simp] theorem State.setDie_pending (s : State) (d : Nat) (v : Die) : (s.setDie d v).pending = s.pending := rfl

/-! ### setPci -/

@[simp] theorem State.setPci_part (s : State) (k : Nat) (v : Pci) : (s.setPci k v).part = s.part := rfl
@[simp] theorem State.setPci_regs (s : State) (k : Nat) (v : Pci) : (s.setPci k v).regs = s.regs := rfl
@[simp] theorem State.setPci_latch (s : State) (k : Nat) (v : Pci) : (s.setPci k v).latch = s.latch := rfl
@[simp] theorem State.setPci_loHeld (s : State) (k : Nat) (v : Pci) : (s.setPci k v).loHeld = s.loHeld := rfl
@[simp] theorem State.setPci_ashlars (s : State) (k : Nat) (v : Pci) : (s.setPci k v).ashlars = s.ashlars := rfl
@[simp] theorem State.setPci_dies (s : State) (k : Nat) (v : Pci) : (s.setPci k v).dies = s.dies := rfl
@[simp] theorem State.setPci_pstate (s : State) (k : Nat) (v : Pci) : (s.setPci k v).pstate = s.pstate := rfl
@[simp] theorem State.setPci_time (s : State) (k : Nat) (v : Pci) : (s.setPci k v).time = s.time := rfl
@[simp] theorem State.setPci_timeFrac (s : State) (k : Nat) (v : Pci) : (s.setPci k v).timeFrac = s.timeFrac := rfl
@[simp] theorem State.setPci_slew (s : State) (k : Nat) (v : Pci) : (s.setPci k v).slew = s.slew := rfl
@[simp] theorem State.setPci_slewAcc (s : State) (k : Nat) (v : Pci) : (s.setPci k v).slewAcc = s.slewAcc := rfl
@[simp] theorem State.setPci_ppsFirst (s : State) (k : Nat) (v : Pci) : (s.setPci k v).ppsFirst = s.ppsFirst := rfl
@[simp] theorem State.setPci_ppsGood (s : State) (k : Nat) (v : Pci) : (s.setPci k v).ppsGood = s.ppsGood := rfl
@[simp] theorem State.setPci_mas (s : State) (k : Nat) (v : Pci) : (s.setPci k v).mas = s.mas := rfl
@[simp] theorem State.setPci_aperture (s : State) (k : Nat) (v : Pci) : (s.setPci k v).aperture = s.aperture := rfl
@[simp] theorem State.setPci_flash (s : State) (k : Nat) (v : Pci) : (s.setPci k v).flash = s.flash := rfl
@[simp] theorem State.setPci_image (s : State) (k : Nat) (v : Pci) : (s.setPci k v).image = s.image := rfl
@[simp] theorem State.setPci_doneWaited (s : State) (k : Nat) (v : Pci) : (s.setPci k v).doneWaited = s.doneWaited := rfl
@[simp] theorem State.setPci_fuses (s : State) (k : Nat) (v : Pci) : (s.setPci k v).fuses = s.fuses := rfl
@[simp] theorem State.setPci_supply (s : State) (k : Nat) (v : Pci) : (s.setPci k v).supply = s.supply := rfl
@[simp] theorem State.setPci_serial (s : State) (k : Nat) (v : Pci) : (s.setPci k v).serial = s.serial := rfl
@[simp] theorem State.setPci_smbOffset (s : State) (k : Nat) (v : Pci) : (s.setPci k v).smbOffset = s.smbOffset := rfl
@[simp] theorem State.setPci_jtag (s : State) (k : Nat) (v : Pci) : (s.setPci k v).jtag = s.jtag := rfl
@[simp] theorem State.setPci_cages (s : State) (k : Nat) (v : Pci) : (s.setPci k v).cages = s.cages := rfl
@[simp] theorem State.setPci_net (s : State) (k : Nat) (v : Pci) : (s.setPci k v).net = s.net := rfl
@[simp] theorem State.setPci_portWait (s : State) (k : Nat) (v : Pci) : (s.setPci k v).portWait = s.portWait := rfl
@[simp] theorem State.setPci_past (s : State) (k : Nat) (v : Pci) : (s.setPci k v).past = s.past := rfl
@[simp] theorem State.setPci_reports (s : State) (k : Nat) (v : Pci) : (s.setPci k v).reports = s.reports := rfl
@[simp] theorem State.setPci_heldEvents (s : State) (k : Nat) (v : Pci) : (s.setPci k v).heldEvents = s.heldEvents := rfl
@[simp] theorem State.setPci_out (s : State) (k : Nat) (v : Pci) : (s.setPci k v).out = s.out := rfl
@[simp] theorem State.setPci_freeIdx (s : State) (k : Nat) (v : Pci) : (s.setPci k v).freeIdx = s.freeIdx := rfl
@[simp] theorem State.setPci_pending (s : State) (k : Nat) (v : Pci) : (s.setPci k v).pending = s.pending := rfl

/-! ### onMas -/

@[simp] theorem State.onMas_part (s : State) (f : Mason → Mason) : (s.onMas f).part = s.part := rfl
@[simp] theorem State.onMas_regs (s : State) (f : Mason → Mason) : (s.onMas f).regs = s.regs := rfl
@[simp] theorem State.onMas_latch (s : State) (f : Mason → Mason) : (s.onMas f).latch = s.latch := rfl
@[simp] theorem State.onMas_loHeld (s : State) (f : Mason → Mason) : (s.onMas f).loHeld = s.loHeld := rfl
@[simp] theorem State.onMas_ashlars (s : State) (f : Mason → Mason) : (s.onMas f).ashlars = s.ashlars := rfl
@[simp] theorem State.onMas_dies (s : State) (f : Mason → Mason) : (s.onMas f).dies = s.dies := rfl
@[simp] theorem State.onMas_pstate (s : State) (f : Mason → Mason) : (s.onMas f).pstate = s.pstate := rfl
@[simp] theorem State.onMas_time (s : State) (f : Mason → Mason) : (s.onMas f).time = s.time := rfl
@[simp] theorem State.onMas_timeFrac (s : State) (f : Mason → Mason) : (s.onMas f).timeFrac = s.timeFrac := rfl
@[simp] theorem State.onMas_slew (s : State) (f : Mason → Mason) : (s.onMas f).slew = s.slew := rfl
@[simp] theorem State.onMas_slewAcc (s : State) (f : Mason → Mason) : (s.onMas f).slewAcc = s.slewAcc := rfl
@[simp] theorem State.onMas_ppsFirst (s : State) (f : Mason → Mason) : (s.onMas f).ppsFirst = s.ppsFirst := rfl
@[simp] theorem State.onMas_ppsGood (s : State) (f : Mason → Mason) : (s.onMas f).ppsGood = s.ppsGood := rfl
@[simp] theorem State.onMas_pcis (s : State) (f : Mason → Mason) : (s.onMas f).pcis = s.pcis := rfl
@[simp] theorem State.onMas_aperture (s : State) (f : Mason → Mason) : (s.onMas f).aperture = s.aperture := rfl
@[simp] theorem State.onMas_flash (s : State) (f : Mason → Mason) : (s.onMas f).flash = s.flash := rfl
@[simp] theorem State.onMas_image (s : State) (f : Mason → Mason) : (s.onMas f).image = s.image := rfl
@[simp] theorem State.onMas_doneWaited (s : State) (f : Mason → Mason) : (s.onMas f).doneWaited = s.doneWaited := rfl
@[simp] theorem State.onMas_fuses (s : State) (f : Mason → Mason) : (s.onMas f).fuses = s.fuses := rfl
@[simp] theorem State.onMas_supply (s : State) (f : Mason → Mason) : (s.onMas f).supply = s.supply := rfl
@[simp] theorem State.onMas_serial (s : State) (f : Mason → Mason) : (s.onMas f).serial = s.serial := rfl
@[simp] theorem State.onMas_smbOffset (s : State) (f : Mason → Mason) : (s.onMas f).smbOffset = s.smbOffset := rfl
@[simp] theorem State.onMas_jtag (s : State) (f : Mason → Mason) : (s.onMas f).jtag = s.jtag := rfl
@[simp] theorem State.onMas_cages (s : State) (f : Mason → Mason) : (s.onMas f).cages = s.cages := rfl
@[simp] theorem State.onMas_net (s : State) (f : Mason → Mason) : (s.onMas f).net = s.net := rfl
@[simp] theorem State.onMas_portWait (s : State) (f : Mason → Mason) : (s.onMas f).portWait = s.portWait := rfl
@[simp] theorem State.onMas_past (s : State) (f : Mason → Mason) : (s.onMas f).past = s.past := rfl
@[simp] theorem State.onMas_reports (s : State) (f : Mason → Mason) : (s.onMas f).reports = s.reports := rfl
@[simp] theorem State.onMas_heldEvents (s : State) (f : Mason → Mason) : (s.onMas f).heldEvents = s.heldEvents := rfl
@[simp] theorem State.onMas_out (s : State) (f : Mason → Mason) : (s.onMas f).out = s.out := rfl
@[simp] theorem State.onMas_freeIdx (s : State) (f : Mason → Mason) : (s.onMas f).freeIdx = s.freeIdx := rfl
@[simp] theorem State.onMas_pending (s : State) (f : Mason → Mason) : (s.onMas f).pending = s.pending := rfl

/-! ### emit -/

@[simp] theorem State.emit_part (s : State) (o : Output) : (s.emit o).part = s.part := rfl
@[simp] theorem State.emit_regs (s : State) (o : Output) : (s.emit o).regs = s.regs := rfl
@[simp] theorem State.emit_latch (s : State) (o : Output) : (s.emit o).latch = s.latch := rfl
@[simp] theorem State.emit_loHeld (s : State) (o : Output) : (s.emit o).loHeld = s.loHeld := rfl
@[simp] theorem State.emit_ashlars (s : State) (o : Output) : (s.emit o).ashlars = s.ashlars := rfl
@[simp] theorem State.emit_dies (s : State) (o : Output) : (s.emit o).dies = s.dies := rfl
@[simp] theorem State.emit_pstate (s : State) (o : Output) : (s.emit o).pstate = s.pstate := rfl
@[simp] theorem State.emit_time (s : State) (o : Output) : (s.emit o).time = s.time := rfl
@[simp] theorem State.emit_timeFrac (s : State) (o : Output) : (s.emit o).timeFrac = s.timeFrac := rfl
@[simp] theorem State.emit_slew (s : State) (o : Output) : (s.emit o).slew = s.slew := rfl
@[simp] theorem State.emit_slewAcc (s : State) (o : Output) : (s.emit o).slewAcc = s.slewAcc := rfl
@[simp] theorem State.emit_ppsFirst (s : State) (o : Output) : (s.emit o).ppsFirst = s.ppsFirst := rfl
@[simp] theorem State.emit_ppsGood (s : State) (o : Output) : (s.emit o).ppsGood = s.ppsGood := rfl
@[simp] theorem State.emit_mas (s : State) (o : Output) : (s.emit o).mas = s.mas := rfl
@[simp] theorem State.emit_pcis (s : State) (o : Output) : (s.emit o).pcis = s.pcis := rfl
@[simp] theorem State.emit_aperture (s : State) (o : Output) : (s.emit o).aperture = s.aperture := rfl
@[simp] theorem State.emit_flash (s : State) (o : Output) : (s.emit o).flash = s.flash := rfl
@[simp] theorem State.emit_image (s : State) (o : Output) : (s.emit o).image = s.image := rfl
@[simp] theorem State.emit_doneWaited (s : State) (o : Output) : (s.emit o).doneWaited = s.doneWaited := rfl
@[simp] theorem State.emit_fuses (s : State) (o : Output) : (s.emit o).fuses = s.fuses := rfl
@[simp] theorem State.emit_supply (s : State) (o : Output) : (s.emit o).supply = s.supply := rfl
@[simp] theorem State.emit_serial (s : State) (o : Output) : (s.emit o).serial = s.serial := rfl
@[simp] theorem State.emit_smbOffset (s : State) (o : Output) : (s.emit o).smbOffset = s.smbOffset := rfl
@[simp] theorem State.emit_jtag (s : State) (o : Output) : (s.emit o).jtag = s.jtag := rfl
@[simp] theorem State.emit_cages (s : State) (o : Output) : (s.emit o).cages = s.cages := rfl
@[simp] theorem State.emit_net (s : State) (o : Output) : (s.emit o).net = s.net := rfl
@[simp] theorem State.emit_portWait (s : State) (o : Output) : (s.emit o).portWait = s.portWait := rfl
@[simp] theorem State.emit_past (s : State) (o : Output) : (s.emit o).past = s.past := rfl
@[simp] theorem State.emit_reports (s : State) (o : Output) : (s.emit o).reports = s.reports := rfl
@[simp] theorem State.emit_heldEvents (s : State) (o : Output) : (s.emit o).heldEvents = s.heldEvents := rfl
@[simp] theorem State.emit_freeIdx (s : State) (o : Output) : (s.emit o).freeIdx = s.freeIdx := rfl
@[simp] theorem State.emit_pending (s : State) (o : Output) : (s.emit o).pending = s.pending := rfl

/-! ### send -/

@[simp] theorem State.send_part (s : State) (p : Packet) : (s.send p).part = s.part := by
  unfold State.send; split <;> rfl
@[simp] theorem State.send_regs (s : State) (p : Packet) : (s.send p).regs = s.regs := by
  unfold State.send; split <;> rfl
@[simp] theorem State.send_latch (s : State) (p : Packet) : (s.send p).latch = s.latch := by
  unfold State.send; split <;> rfl
@[simp] theorem State.send_loHeld (s : State) (p : Packet) : (s.send p).loHeld = s.loHeld := by
  unfold State.send; split <;> rfl
@[simp] theorem State.send_ashlars (s : State) (p : Packet) : (s.send p).ashlars = s.ashlars := by
  unfold State.send; split <;> rfl
@[simp] theorem State.send_dies (s : State) (p : Packet) : (s.send p).dies = s.dies := by
  unfold State.send; split <;> rfl
@[simp] theorem State.send_pstate (s : State) (p : Packet) : (s.send p).pstate = s.pstate := by
  unfold State.send; split <;> rfl
@[simp] theorem State.send_time (s : State) (p : Packet) : (s.send p).time = s.time := by
  unfold State.send; split <;> rfl
@[simp] theorem State.send_timeFrac (s : State) (p : Packet) : (s.send p).timeFrac = s.timeFrac := by
  unfold State.send; split <;> rfl
@[simp] theorem State.send_slew (s : State) (p : Packet) : (s.send p).slew = s.slew := by
  unfold State.send; split <;> rfl
@[simp] theorem State.send_slewAcc (s : State) (p : Packet) : (s.send p).slewAcc = s.slewAcc := by
  unfold State.send; split <;> rfl
@[simp] theorem State.send_ppsFirst (s : State) (p : Packet) : (s.send p).ppsFirst = s.ppsFirst := by
  unfold State.send; split <;> rfl
@[simp] theorem State.send_ppsGood (s : State) (p : Packet) : (s.send p).ppsGood = s.ppsGood := by
  unfold State.send; split <;> rfl
@[simp] theorem State.send_mas (s : State) (p : Packet) : (s.send p).mas = s.mas := by
  unfold State.send; split <;> rfl
@[simp] theorem State.send_pcis (s : State) (p : Packet) : (s.send p).pcis = s.pcis := by
  unfold State.send; split <;> rfl
@[simp] theorem State.send_aperture (s : State) (p : Packet) : (s.send p).aperture = s.aperture := by
  unfold State.send; split <;> rfl
@[simp] theorem State.send_flash (s : State) (p : Packet) : (s.send p).flash = s.flash := by
  unfold State.send; split <;> rfl
@[simp] theorem State.send_image (s : State) (p : Packet) : (s.send p).image = s.image := by
  unfold State.send; split <;> rfl
@[simp] theorem State.send_doneWaited (s : State) (p : Packet) : (s.send p).doneWaited = s.doneWaited := by
  unfold State.send; split <;> rfl
@[simp] theorem State.send_fuses (s : State) (p : Packet) : (s.send p).fuses = s.fuses := by
  unfold State.send; split <;> rfl
@[simp] theorem State.send_supply (s : State) (p : Packet) : (s.send p).supply = s.supply := by
  unfold State.send; split <;> rfl
@[simp] theorem State.send_serial (s : State) (p : Packet) : (s.send p).serial = s.serial := by
  unfold State.send; split <;> rfl
@[simp] theorem State.send_smbOffset (s : State) (p : Packet) : (s.send p).smbOffset = s.smbOffset := by
  unfold State.send; split <;> rfl
@[simp] theorem State.send_jtag (s : State) (p : Packet) : (s.send p).jtag = s.jtag := by
  unfold State.send; split <;> rfl
@[simp] theorem State.send_cages (s : State) (p : Packet) : (s.send p).cages = s.cages := by
  unfold State.send; split <;> rfl
@[simp] theorem State.send_reports (s : State) (p : Packet) : (s.send p).reports = s.reports := by
  unfold State.send; split <;> rfl
@[simp] theorem State.send_heldEvents (s : State) (p : Packet) : (s.send p).heldEvents = s.heldEvents := by
  unfold State.send; split <;> rfl
@[simp] theorem State.send_out (s : State) (p : Packet) : (s.send p).out = s.out := by
  unfold State.send; split <;> rfl
@[simp] theorem State.send_freeIdx (s : State) (p : Packet) : (s.send p).freeIdx = s.freeIdx := by
  unfold State.send; split <;> rfl
@[simp] theorem State.send_pending (s : State) (p : Packet) : (s.send p).pending = s.pending := by
  unfold State.send; split <;> rfl

/-- A packet sent goes on the Mortar, or waits at a port that is shut (R355). -/
theorem State.send_cases (s : State) (p : Packet) :
    (portShut s p = true ∧ s.send p = { s with portWait := s.portWait ++ [p] }) ∨
      (portShut s p = false ∧ s.send p = { s with net := s.net ++ [p] }) := by
  unfold State.send
  split
  · exact .inl ⟨‹_›, rfl⟩
  · rename_i h
    exact .inr ⟨by simpa using h, rfl⟩

/-- A packet sent is among those sent and not yet taken. -/
theorem State.mem_sent_send (s : State) (p : Packet) : p ∈ (s.send p).sent := by
  rcases State.send_cases s p with ⟨-, h⟩ | ⟨-, h⟩ <;> rw [h] <;> simp [State.sent]

end Sys2Proof.Machine
end

