-- ==== Sys2Proof/Laws/Events.lean ====
section
/-! SUPPORT. What counting, recording and raising an event leave alone: everything but registers, reports, pending
interrupts and outputs. -/

namespace Sys2Proof.Machine

/-! ### Counts -/

@[simp] theorem State.count16_part (s : State) (p : Page) (off lo k : Nat) :
    (s.count16 p off lo k).part = s.part := by simp [State.count16]
@[simp] theorem State.count16_ashlars (s : State) (p : Page) (off lo k : Nat) :
    (s.count16 p off lo k).ashlars = s.ashlars := by simp [State.count16]
@[simp] theorem State.count16_dies (s : State) (p : Page) (off lo k : Nat) :
    (s.count16 p off lo k).dies = s.dies := by simp [State.count16]
@[simp] theorem State.count16_pstate (s : State) (p : Page) (off lo k : Nat) :
    (s.count16 p off lo k).pstate = s.pstate := by simp [State.count16]
@[simp] theorem State.count16_time (s : State) (p : Page) (off lo k : Nat) :
    (s.count16 p off lo k).time = s.time := by simp [State.count16]
@[simp] theorem State.count16_mas (s : State) (p : Page) (off lo k : Nat) :
    (s.count16 p off lo k).mas = s.mas := by simp [State.count16]
@[simp] theorem State.count16_flash (s : State) (p : Page) (off lo k : Nat) :
    (s.count16 p off lo k).flash = s.flash := by simp [State.count16]
@[simp] theorem State.count16_fuses (s : State) (p : Page) (off lo k : Nat) :
    (s.count16 p off lo k).fuses = s.fuses := by simp [State.count16]
@[simp] theorem State.count16_supply (s : State) (p : Page) (off lo k : Nat) :
    (s.count16 p off lo k).supply = s.supply := by simp [State.count16]
@[simp] theorem State.count16_cages (s : State) (p : Page) (off lo k : Nat) :
    (s.count16 p off lo k).cages = s.cages := by simp [State.count16]
@[simp] theorem State.count16_net (s : State) (p : Page) (off lo k : Nat) :
    (s.count16 p off lo k).net = s.net := by simp [State.count16]
@[simp] theorem State.count16_portWait (s : State) (p : Page) (off lo k : Nat) :
    (s.count16 p off lo k).portWait = s.portWait := by simp [State.count16]
@[simp] theorem State.count16_past (s : State) (p : Page) (off lo k : Nat) :
    (s.count16 p off lo k).past = s.past := by simp [State.count16]
@[simp] theorem State.count16_freeIdx (s : State) (p : Page) (off lo k : Nat) :
    (s.count16 p off lo k).freeIdx = s.freeIdx := by simp [State.count16]
@[simp] theorem State.count16_pending (s : State) (p : Page) (off lo k : Nat) :
    (s.count16 p off lo k).pending = s.pending := by simp [State.count16]
@[simp] theorem State.count16_reports (s : State) (p : Page) (off lo k : Nat) :
    (s.count16 p off lo k).reports = s.reports := by simp [State.count16]
@[simp] theorem State.count16_heldEvents (s : State) (p : Page) (off lo k : Nat) :
    (s.count16 p off lo k).heldEvents = s.heldEvents := by simp [State.count16]
@[simp] theorem State.count16_pcis (s : State) (p : Page) (off lo k : Nat) :
    (s.count16 p off lo k).pcis = s.pcis := by simp [State.count16]
@[simp] theorem State.count16_out (s : State) (p : Page) (off lo k : Nat) :
    (s.count16 p off lo k).out = s.out := by simp [State.count16]

/-! ### countErr -/

@[simp] theorem State.countErr_part (s : State) (p : Page) :
    (s.countErr p).part = s.part := by simp only [State.countErr]; split <;> simp
@[simp] theorem State.countErr_ashlars (s : State) (p : Page) :
    (s.countErr p).ashlars = s.ashlars := by simp only [State.countErr]; split <;> simp
@[simp] theorem State.countErr_dies (s : State) (p : Page) :
    (s.countErr p).dies = s.dies := by simp only [State.countErr]; split <;> simp
@[simp] theorem State.countErr_pstate (s : State) (p : Page) :
    (s.countErr p).pstate = s.pstate := by simp only [State.countErr]; split <;> simp
@[simp] theorem State.countErr_time (s : State) (p : Page) :
    (s.countErr p).time = s.time := by simp only [State.countErr]; split <;> simp
@[simp] theorem State.countErr_mas (s : State) (p : Page) :
    (s.countErr p).mas = s.mas := by simp only [State.countErr]; split <;> simp
@[simp] theorem State.countErr_flash (s : State) (p : Page) :
    (s.countErr p).flash = s.flash := by simp only [State.countErr]; split <;> simp
@[simp] theorem State.countErr_fuses (s : State) (p : Page) :
    (s.countErr p).fuses = s.fuses := by simp only [State.countErr]; split <;> simp
@[simp] theorem State.countErr_supply (s : State) (p : Page) :
    (s.countErr p).supply = s.supply := by simp only [State.countErr]; split <;> simp
@[simp] theorem State.countErr_cages (s : State) (p : Page) :
    (s.countErr p).cages = s.cages := by simp only [State.countErr]; split <;> simp
@[simp] theorem State.countErr_net (s : State) (p : Page) :
    (s.countErr p).net = s.net := by simp only [State.countErr]; split <;> simp
@[simp] theorem State.countErr_portWait (s : State) (p : Page) :
    (s.countErr p).portWait = s.portWait := by simp only [State.countErr]; split <;> simp
@[simp] theorem State.countErr_past (s : State) (p : Page) :
    (s.countErr p).past = s.past := by simp only [State.countErr]; split <;> simp
@[simp] theorem State.countErr_freeIdx (s : State) (p : Page) :
    (s.countErr p).freeIdx = s.freeIdx := by simp only [State.countErr]; split <;> simp
@[simp] theorem State.countErr_pending (s : State) (p : Page) :
    (s.countErr p).pending = s.pending := by simp only [State.countErr]; split <;> simp
@[simp] theorem State.countErr_reports (s : State) (p : Page) :
    (s.countErr p).reports = s.reports := by simp only [State.countErr]; split <;> simp
@[simp] theorem State.countErr_heldEvents (s : State) (p : Page) :
    (s.countErr p).heldEvents = s.heldEvents := by simp only [State.countErr]; split <;> simp
@[simp] theorem State.countErr_pcis (s : State) (p : Page) :
    (s.countErr p).pcis = s.pcis := by simp only [State.countErr]; split <;> simp
@[simp] theorem State.countErr_out (s : State) (p : Page) :
    (s.countErr p).out = s.out := by simp only [State.countErr]; split <;> simp

/-! ### capture -/

@[simp] theorem State.capture_part (s : State) (p : Page) (e : Ev) (addr : Nat) :
    (s.capture p e addr).part = s.part := by simp only [State.capture, State.setPair]; split <;> simp
@[simp] theorem State.capture_ashlars (s : State) (p : Page) (e : Ev) (addr : Nat) :
    (s.capture p e addr).ashlars = s.ashlars := by simp only [State.capture, State.setPair]; split <;> simp
@[simp] theorem State.capture_dies (s : State) (p : Page) (e : Ev) (addr : Nat) :
    (s.capture p e addr).dies = s.dies := by simp only [State.capture, State.setPair]; split <;> simp
@[simp] theorem State.capture_pstate (s : State) (p : Page) (e : Ev) (addr : Nat) :
    (s.capture p e addr).pstate = s.pstate := by simp only [State.capture, State.setPair]; split <;> simp
@[simp] theorem State.capture_time (s : State) (p : Page) (e : Ev) (addr : Nat) :
    (s.capture p e addr).time = s.time := by simp only [State.capture, State.setPair]; split <;> simp
@[simp] theorem State.capture_mas (s : State) (p : Page) (e : Ev) (addr : Nat) :
    (s.capture p e addr).mas = s.mas := by simp only [State.capture, State.setPair]; split <;> simp
@[simp] theorem State.capture_flash (s : State) (p : Page) (e : Ev) (addr : Nat) :
    (s.capture p e addr).flash = s.flash := by simp only [State.capture, State.setPair]; split <;> simp
@[simp] theorem State.capture_fuses (s : State) (p : Page) (e : Ev) (addr : Nat) :
    (s.capture p e addr).fuses = s.fuses := by simp only [State.capture, State.setPair]; split <;> simp
@[simp] theorem State.capture_supply (s : State) (p : Page) (e : Ev) (addr : Nat) :
    (s.capture p e addr).supply = s.supply := by simp only [State.capture, State.setPair]; split <;> simp
@[simp] theorem State.capture_cages (s : State) (p : Page) (e : Ev) (addr : Nat) :
    (s.capture p e addr).cages = s.cages := by simp only [State.capture, State.setPair]; split <;> simp
@[simp] theorem State.capture_net (s : State) (p : Page) (e : Ev) (addr : Nat) :
    (s.capture p e addr).net = s.net := by simp only [State.capture, State.setPair]; split <;> simp
@[simp] theorem State.capture_portWait (s : State) (p : Page) (e : Ev) (addr : Nat) :
    (s.capture p e addr).portWait = s.portWait := by simp only [State.capture, State.setPair]; split <;> simp
@[simp] theorem State.capture_past (s : State) (p : Page) (e : Ev) (addr : Nat) :
    (s.capture p e addr).past = s.past := by simp only [State.capture, State.setPair]; split <;> simp
@[simp] theorem State.capture_freeIdx (s : State) (p : Page) (e : Ev) (addr : Nat) :
    (s.capture p e addr).freeIdx = s.freeIdx := by simp only [State.capture, State.setPair]; split <;> simp
@[simp] theorem State.capture_pending (s : State) (p : Page) (e : Ev) (addr : Nat) :
    (s.capture p e addr).pending = s.pending := by simp only [State.capture, State.setPair]; split <;> simp
@[simp] theorem State.capture_reports (s : State) (p : Page) (e : Ev) (addr : Nat) :
    (s.capture p e addr).reports = s.reports := by simp only [State.capture, State.setPair]; split <;> simp
@[simp] theorem State.capture_heldEvents (s : State) (p : Page) (e : Ev) (addr : Nat) :
    (s.capture p e addr).heldEvents = s.heldEvents := by simp only [State.capture, State.setPair]; split <;> simp
@[simp] theorem State.capture_pcis (s : State) (p : Page) (e : Ev) (addr : Nat) :
    (s.capture p e addr).pcis = s.pcis := by simp only [State.capture, State.setPair]; split <;> simp
@[simp] theorem State.capture_out (s : State) (p : Page) (e : Ev) (addr : Nat) :
    (s.capture p e addr).out = s.out := by simp only [State.capture, State.setPair]; split <;> simp

/-! ### msi -/

@[simp] theorem State.msi_part (s : State) (k v : Nat) :
    (s.msi k v).part = s.part := by simp only [State.msi]; split; rfl; split <;> rfl
@[simp] theorem State.msi_ashlars (s : State) (k v : Nat) :
    (s.msi k v).ashlars = s.ashlars := by simp only [State.msi]; split; rfl; split <;> rfl
@[simp] theorem State.msi_dies (s : State) (k v : Nat) :
    (s.msi k v).dies = s.dies := by simp only [State.msi]; split; rfl; split <;> rfl
@[simp] theorem State.msi_pstate (s : State) (k v : Nat) :
    (s.msi k v).pstate = s.pstate := by simp only [State.msi]; split; rfl; split <;> rfl
@[simp] theorem State.msi_time (s : State) (k v : Nat) :
    (s.msi k v).time = s.time := by simp only [State.msi]; split; rfl; split <;> rfl
@[simp] theorem State.msi_mas (s : State) (k v : Nat) :
    (s.msi k v).mas = s.mas := by simp only [State.msi]; split; rfl; split <;> rfl
@[simp] theorem State.msi_flash (s : State) (k v : Nat) :
    (s.msi k v).flash = s.flash := by simp only [State.msi]; split; rfl; split <;> rfl
@[simp] theorem State.msi_fuses (s : State) (k v : Nat) :
    (s.msi k v).fuses = s.fuses := by simp only [State.msi]; split; rfl; split <;> rfl
@[simp] theorem State.msi_supply (s : State) (k v : Nat) :
    (s.msi k v).supply = s.supply := by simp only [State.msi]; split; rfl; split <;> rfl
@[simp] theorem State.msi_cages (s : State) (k v : Nat) :
    (s.msi k v).cages = s.cages := by simp only [State.msi]; split; rfl; split <;> rfl
@[simp] theorem State.msi_net (s : State) (k v : Nat) :
    (s.msi k v).net = s.net := by simp only [State.msi]; split; rfl; split <;> rfl
@[simp] theorem State.msi_portWait (s : State) (k v : Nat) :
    (s.msi k v).portWait = s.portWait := by simp only [State.msi]; split; rfl; split <;> rfl
@[simp] theorem State.msi_past (s : State) (k v : Nat) :
    (s.msi k v).past = s.past := by simp only [State.msi]; split; rfl; split <;> rfl
@[simp] theorem State.msi_freeIdx (s : State) (k v : Nat) :
    (s.msi k v).freeIdx = s.freeIdx := by simp only [State.msi]; split; rfl; split <;> rfl
@[simp] theorem State.msi_pending (s : State) (k v : Nat) :
    (s.msi k v).pending = s.pending := by simp only [State.msi]; split; rfl; split <;> rfl
@[simp] theorem State.msi_reports (s : State) (k v : Nat) :
    (s.msi k v).reports = s.reports := by simp only [State.msi]; split; rfl; split <;> rfl
@[simp] theorem State.msi_heldEvents (s : State) (k v : Nat) :
    (s.msi k v).heldEvents = s.heldEvents := by simp only [State.msi]; split; rfl; split <;> rfl
@[simp] theorem State.msi_regs (s : State) (k v : Nat) :
    (s.msi k v).regs = s.regs := by simp only [State.msi]; split; rfl; split <;> rfl

/-! ### pciIrq -/

@[simp] theorem pciIrq_part (b s : State) (p : Page) : (pciIrq b s p).part = s.part := by
  unfold pciIrq; split; dsimp only; split <;> simp; rfl
@[simp] theorem pciIrq_ashlars (b s : State) (p : Page) : (pciIrq b s p).ashlars = s.ashlars := by
  unfold pciIrq; split; dsimp only; split <;> simp; rfl
@[simp] theorem pciIrq_dies (b s : State) (p : Page) : (pciIrq b s p).dies = s.dies := by
  unfold pciIrq; split; dsimp only; split <;> simp; rfl
@[simp] theorem pciIrq_pstate (b s : State) (p : Page) : (pciIrq b s p).pstate = s.pstate := by
  unfold pciIrq; split; dsimp only; split <;> simp; rfl
@[simp] theorem pciIrq_time (b s : State) (p : Page) : (pciIrq b s p).time = s.time := by
  unfold pciIrq; split; dsimp only; split <;> simp; rfl
@[simp] theorem pciIrq_mas (b s : State) (p : Page) : (pciIrq b s p).mas = s.mas := by
  unfold pciIrq; split; dsimp only; split <;> simp; rfl
@[simp] theorem pciIrq_flash (b s : State) (p : Page) : (pciIrq b s p).flash = s.flash := by
  unfold pciIrq; split; dsimp only; split <;> simp; rfl
@[simp] theorem pciIrq_fuses (b s : State) (p : Page) : (pciIrq b s p).fuses = s.fuses := by
  unfold pciIrq; split; dsimp only; split <;> simp; rfl
@[simp] theorem pciIrq_supply (b s : State) (p : Page) : (pciIrq b s p).supply = s.supply := by
  unfold pciIrq; split; dsimp only; split <;> simp; rfl
@[simp] theorem pciIrq_cages (b s : State) (p : Page) : (pciIrq b s p).cages = s.cages := by
  unfold pciIrq; split; dsimp only; split <;> simp; rfl
@[simp] theorem pciIrq_net (b s : State) (p : Page) : (pciIrq b s p).net = s.net := by
  unfold pciIrq; split; dsimp only; split <;> simp; rfl
@[simp] theorem pciIrq_portWait (b s : State) (p : Page) : (pciIrq b s p).portWait = s.portWait := by
  unfold pciIrq; split; dsimp only; split <;> simp; rfl
@[simp] theorem pciIrq_past (b s : State) (p : Page) : (pciIrq b s p).past = s.past := by
  unfold pciIrq; split; dsimp only; split <;> simp; rfl
@[simp] theorem pciIrq_freeIdx (b s : State) (p : Page) : (pciIrq b s p).freeIdx = s.freeIdx := by
  unfold pciIrq; split; dsimp only; split <;> simp; rfl
@[simp] theorem pciIrq_pending (b s : State) (p : Page) : (pciIrq b s p).pending = s.pending := by
  unfold pciIrq; split; dsimp only; split <;> simp; rfl
@[simp] theorem pciIrq_reports (b s : State) (p : Page) : (pciIrq b s p).reports = s.reports := by
  unfold pciIrq; split; dsimp only; split <;> simp; rfl
@[simp] theorem pciIrq_heldEvents (b s : State) (p : Page) : (pciIrq b s p).heldEvents = s.heldEvents := by
  unfold pciIrq; split; dsimp only; split <;> simp; rfl
@[simp] theorem pciIrq_regs (b s : State) (p : Page) : (pciIrq b s p).regs = s.regs := by
  unfold pciIrq; split; dsimp only; split <;> simp; rfl

/-! ### record -/

@[simp] theorem State.record_part (s : State) (p : Page) (e : Ev) (addr : Nat) :
    (s.record p e addr).part = s.part := by
  simp only [State.record, pciIrq_part]; split <;> simp
@[simp] theorem State.record_ashlars (s : State) (p : Page) (e : Ev) (addr : Nat) :
    (s.record p e addr).ashlars = s.ashlars := by
  simp only [State.record, pciIrq_ashlars]; split <;> simp
@[simp] theorem State.record_dies (s : State) (p : Page) (e : Ev) (addr : Nat) :
    (s.record p e addr).dies = s.dies := by
  simp only [State.record, pciIrq_dies]; split <;> simp
@[simp] theorem State.record_pstate (s : State) (p : Page) (e : Ev) (addr : Nat) :
    (s.record p e addr).pstate = s.pstate := by
  simp only [State.record, pciIrq_pstate]; split <;> simp
@[simp] theorem State.record_time (s : State) (p : Page) (e : Ev) (addr : Nat) :
    (s.record p e addr).time = s.time := by
  simp only [State.record, pciIrq_time]; split <;> simp
@[simp] theorem State.record_mas (s : State) (p : Page) (e : Ev) (addr : Nat) :
    (s.record p e addr).mas = s.mas := by
  simp only [State.record, pciIrq_mas]; split <;> simp
@[simp] theorem State.record_flash (s : State) (p : Page) (e : Ev) (addr : Nat) :
    (s.record p e addr).flash = s.flash := by
  simp only [State.record, pciIrq_flash]; split <;> simp
@[simp] theorem State.record_fuses (s : State) (p : Page) (e : Ev) (addr : Nat) :
    (s.record p e addr).fuses = s.fuses := by
  simp only [State.record, pciIrq_fuses]; split <;> simp
@[simp] theorem State.record_supply (s : State) (p : Page) (e : Ev) (addr : Nat) :
    (s.record p e addr).supply = s.supply := by
  simp only [State.record, pciIrq_supply]; split <;> simp
@[simp] theorem State.record_cages (s : State) (p : Page) (e : Ev) (addr : Nat) :
    (s.record p e addr).cages = s.cages := by
  simp only [State.record, pciIrq_cages]; split <;> simp
@[simp] theorem State.record_net (s : State) (p : Page) (e : Ev) (addr : Nat) :
    (s.record p e addr).net = s.net := by
  simp only [State.record, pciIrq_net]; split <;> simp
@[simp] theorem State.record_portWait (s : State) (p : Page) (e : Ev) (addr : Nat) :
    (s.record p e addr).portWait = s.portWait := by
  simp only [State.record, pciIrq_portWait]; split <;> simp
@[simp] theorem State.record_past (s : State) (p : Page) (e : Ev) (addr : Nat) :
    (s.record p e addr).past = s.past := by
  simp only [State.record, pciIrq_past]; split <;> simp
@[simp] theorem State.record_freeIdx (s : State) (p : Page) (e : Ev) (addr : Nat) :
    (s.record p e addr).freeIdx = s.freeIdx := by
  simp only [State.record, pciIrq_freeIdx]; split <;> simp
@[simp] theorem State.record_pending (s : State) (p : Page) (e : Ev) (addr : Nat) :
    (s.record p e addr).pending = s.pending := by
  simp only [State.record, pciIrq_pending]; split <;> simp
@[simp] theorem State.record_reports (s : State) (p : Page) (e : Ev) (addr : Nat) :
    (s.record p e addr).reports = s.reports := by
  simp only [State.record, pciIrq_reports]; split <;> simp
@[simp] theorem State.record_heldEvents (s : State) (p : Page) (e : Ev) (addr : Nat) :
    (s.record p e addr).heldEvents = s.heldEvents := by
  simp only [State.record, pciIrq_heldEvents]; split <;> simp

/-! ### reportAt -/

@[simp] theorem State.reportAt_part (s : State) (p : Page) (e : Ev) (d : Dest) (n : Nat) :
    (s.reportAt p e d n).part = s.part := by
  simp only [State.reportAt]; split; simp; split <;> simp
@[simp] theorem State.reportAt_ashlars (s : State) (p : Page) (e : Ev) (d : Dest) (n : Nat) :
    (s.reportAt p e d n).ashlars = s.ashlars := by
  simp only [State.reportAt]; split; simp; split <;> simp
@[simp] theorem State.reportAt_dies (s : State) (p : Page) (e : Ev) (d : Dest) (n : Nat) :
    (s.reportAt p e d n).dies = s.dies := by
  simp only [State.reportAt]; split; simp; split <;> simp
@[simp] theorem State.reportAt_pstate (s : State) (p : Page) (e : Ev) (d : Dest) (n : Nat) :
    (s.reportAt p e d n).pstate = s.pstate := by
  simp only [State.reportAt]; split; simp; split <;> simp
@[simp] theorem State.reportAt_time (s : State) (p : Page) (e : Ev) (d : Dest) (n : Nat) :
    (s.reportAt p e d n).time = s.time := by
  simp only [State.reportAt]; split; simp; split <;> simp
@[simp] theorem State.reportAt_mas (s : State) (p : Page) (e : Ev) (d : Dest) (n : Nat) :
    (s.reportAt p e d n).mas = s.mas := by
  simp only [State.reportAt]; split; simp; split <;> simp
@[simp] theorem State.reportAt_flash (s : State) (p : Page) (e : Ev) (d : Dest) (n : Nat) :
    (s.reportAt p e d n).flash = s.flash := by
  simp only [State.reportAt]; split; simp; split <;> simp
@[simp] theorem State.reportAt_fuses (s : State) (p : Page) (e : Ev) (d : Dest) (n : Nat) :
    (s.reportAt p e d n).fuses = s.fuses := by
  simp only [State.reportAt]; split; simp; split <;> simp
@[simp] theorem State.reportAt_supply (s : State) (p : Page) (e : Ev) (d : Dest) (n : Nat) :
    (s.reportAt p e d n).supply = s.supply := by
  simp only [State.reportAt]; split; simp; split <;> simp
@[simp] theorem State.reportAt_cages (s : State) (p : Page) (e : Ev) (d : Dest) (n : Nat) :
    (s.reportAt p e d n).cages = s.cages := by
  simp only [State.reportAt]; split; simp; split <;> simp
@[simp] theorem State.reportAt_net (s : State) (p : Page) (e : Ev) (d : Dest) (n : Nat) :
    (s.reportAt p e d n).net = s.net := by
  simp only [State.reportAt]; split; simp; split <;> simp
@[simp] theorem State.reportAt_portWait (s : State) (p : Page) (e : Ev) (d : Dest) (n : Nat) :
    (s.reportAt p e d n).portWait = s.portWait := by
  simp only [State.reportAt]; split; simp; split <;> simp
@[simp] theorem State.reportAt_past (s : State) (p : Page) (e : Ev) (d : Dest) (n : Nat) :
    (s.reportAt p e d n).past = s.past := by
  simp only [State.reportAt]; split; simp; split <;> simp
@[simp] theorem State.reportAt_freeIdx (s : State) (p : Page) (e : Ev) (d : Dest) (n : Nat) :
    (s.reportAt p e d n).freeIdx = s.freeIdx := by
  simp only [State.reportAt]; split; simp; split <;> simp
@[simp] theorem State.reportAt_pending (s : State) (p : Page) (e : Ev) (d : Dest) (n : Nat) :
    (s.reportAt p e d n).pending = s.pending := by
  simp only [State.reportAt]; split; simp; split <;> simp

/-! ### report -/

@[simp] theorem State.report_part (s : State) (p : Page) (e : Ev) (n : Nat) :
    (s.report p e n).part = s.part := by simp [State.report]
@[simp] theorem State.report_ashlars (s : State) (p : Page) (e : Ev) (n : Nat) :
    (s.report p e n).ashlars = s.ashlars := by simp [State.report]
@[simp] theorem State.report_dies (s : State) (p : Page) (e : Ev) (n : Nat) :
    (s.report p e n).dies = s.dies := by simp [State.report]
@[simp] theorem State.report_pstate (s : State) (p : Page) (e : Ev) (n : Nat) :
    (s.report p e n).pstate = s.pstate := by simp [State.report]
@[simp] theorem State.report_time (s : State) (p : Page) (e : Ev) (n : Nat) :
    (s.report p e n).time = s.time := by simp [State.report]
@[simp] theorem State.report_mas (s : State) (p : Page) (e : Ev) (n : Nat) :
    (s.report p e n).mas = s.mas := by simp [State.report]
@[simp] theorem State.report_flash (s : State) (p : Page) (e : Ev) (n : Nat) :
    (s.report p e n).flash = s.flash := by simp [State.report]
@[simp] theorem State.report_fuses (s : State) (p : Page) (e : Ev) (n : Nat) :
    (s.report p e n).fuses = s.fuses := by simp [State.report]
@[simp] theorem State.report_supply (s : State) (p : Page) (e : Ev) (n : Nat) :
    (s.report p e n).supply = s.supply := by simp [State.report]
@[simp] theorem State.report_cages (s : State) (p : Page) (e : Ev) (n : Nat) :
    (s.report p e n).cages = s.cages := by simp [State.report]
@[simp] theorem State.report_net (s : State) (p : Page) (e : Ev) (n : Nat) :
    (s.report p e n).net = s.net := by simp [State.report]
@[simp] theorem State.report_portWait (s : State) (p : Page) (e : Ev) (n : Nat) :
    (s.report p e n).portWait = s.portWait := by simp [State.report]
@[simp] theorem State.report_past (s : State) (p : Page) (e : Ev) (n : Nat) :
    (s.report p e n).past = s.past := by simp [State.report]
@[simp] theorem State.report_freeIdx (s : State) (p : Page) (e : Ev) (n : Nat) :
    (s.report p e n).freeIdx = s.freeIdx := by simp [State.report]
@[simp] theorem State.report_pending (s : State) (p : Page) (e : Ev) (n : Nat) :
    (s.report p e n).pending = s.pending := by simp [State.report]

/-! ### raiseFor -/

@[simp] theorem State.raiseFor_part (s : State) (p : Page) (e : Ev) (d : Dest) :
    (s.raiseFor p e d).part = s.part := by simp [State.raiseFor]
@[simp] theorem State.raiseFor_ashlars (s : State) (p : Page) (e : Ev) (d : Dest) :
    (s.raiseFor p e d).ashlars = s.ashlars := by simp [State.raiseFor]
@[simp] theorem State.raiseFor_dies (s : State) (p : Page) (e : Ev) (d : Dest) :
    (s.raiseFor p e d).dies = s.dies := by simp [State.raiseFor]
@[simp] theorem State.raiseFor_pstate (s : State) (p : Page) (e : Ev) (d : Dest) :
    (s.raiseFor p e d).pstate = s.pstate := by simp [State.raiseFor]
@[simp] theorem State.raiseFor_time (s : State) (p : Page) (e : Ev) (d : Dest) :
    (s.raiseFor p e d).time = s.time := by simp [State.raiseFor]
@[simp] theorem State.raiseFor_mas (s : State) (p : Page) (e : Ev) (d : Dest) :
    (s.raiseFor p e d).mas = s.mas := by simp [State.raiseFor]
@[simp] theorem State.raiseFor_flash (s : State) (p : Page) (e : Ev) (d : Dest) :
    (s.raiseFor p e d).flash = s.flash := by simp [State.raiseFor]
@[simp] theorem State.raiseFor_fuses (s : State) (p : Page) (e : Ev) (d : Dest) :
    (s.raiseFor p e d).fuses = s.fuses := by simp [State.raiseFor]
@[simp] theorem State.raiseFor_supply (s : State) (p : Page) (e : Ev) (d : Dest) :
    (s.raiseFor p e d).supply = s.supply := by simp [State.raiseFor]
@[simp] theorem State.raiseFor_cages (s : State) (p : Page) (e : Ev) (d : Dest) :
    (s.raiseFor p e d).cages = s.cages := by simp [State.raiseFor]
@[simp] theorem State.raiseFor_net (s : State) (p : Page) (e : Ev) (d : Dest) :
    (s.raiseFor p e d).net = s.net := by simp [State.raiseFor]
@[simp] theorem State.raiseFor_portWait (s : State) (p : Page) (e : Ev) (d : Dest) :
    (s.raiseFor p e d).portWait = s.portWait := by simp [State.raiseFor]
@[simp] theorem State.raiseFor_past (s : State) (p : Page) (e : Ev) (d : Dest) :
    (s.raiseFor p e d).past = s.past := by simp [State.raiseFor]
@[simp] theorem State.raiseFor_freeIdx (s : State) (p : Page) (e : Ev) (d : Dest) :
    (s.raiseFor p e d).freeIdx = s.freeIdx := by simp [State.raiseFor]
@[simp] theorem State.raiseFor_pending (s : State) (p : Page) (e : Ev) (d : Dest) :
    (s.raiseFor p e d).pending = s.pending := by simp [State.raiseFor]

/-! ### raise -/

@[simp] theorem State.raise_part (s : State) (p : Page) (e : Ev) (addr : Nat) :
    (s.raise p e addr).part = s.part := by simp [State.raise]
@[simp] theorem State.raise_ashlars (s : State) (p : Page) (e : Ev) (addr : Nat) :
    (s.raise p e addr).ashlars = s.ashlars := by simp [State.raise]
@[simp] theorem State.raise_dies (s : State) (p : Page) (e : Ev) (addr : Nat) :
    (s.raise p e addr).dies = s.dies := by simp [State.raise]
@[simp] theorem State.raise_pstate (s : State) (p : Page) (e : Ev) (addr : Nat) :
    (s.raise p e addr).pstate = s.pstate := by simp [State.raise]
@[simp] theorem State.raise_time (s : State) (p : Page) (e : Ev) (addr : Nat) :
    (s.raise p e addr).time = s.time := by simp [State.raise]
@[simp] theorem State.raise_mas (s : State) (p : Page) (e : Ev) (addr : Nat) :
    (s.raise p e addr).mas = s.mas := by simp [State.raise]
@[simp] theorem State.raise_flash (s : State) (p : Page) (e : Ev) (addr : Nat) :
    (s.raise p e addr).flash = s.flash := by simp [State.raise]
@[simp] theorem State.raise_fuses (s : State) (p : Page) (e : Ev) (addr : Nat) :
    (s.raise p e addr).fuses = s.fuses := by simp [State.raise]
@[simp] theorem State.raise_supply (s : State) (p : Page) (e : Ev) (addr : Nat) :
    (s.raise p e addr).supply = s.supply := by simp [State.raise]
@[simp] theorem State.raise_cages (s : State) (p : Page) (e : Ev) (addr : Nat) :
    (s.raise p e addr).cages = s.cages := by simp [State.raise]
@[simp] theorem State.raise_net (s : State) (p : Page) (e : Ev) (addr : Nat) :
    (s.raise p e addr).net = s.net := by simp [State.raise]
@[simp] theorem State.raise_portWait (s : State) (p : Page) (e : Ev) (addr : Nat) :
    (s.raise p e addr).portWait = s.portWait := by simp [State.raise]
@[simp] theorem State.raise_past (s : State) (p : Page) (e : Ev) (addr : Nat) :
    (s.raise p e addr).past = s.past := by simp [State.raise]
@[simp] theorem State.raise_freeIdx (s : State) (p : Page) (e : Ev) (addr : Nat) :
    (s.raise p e addr).freeIdx = s.freeIdx := by simp [State.raise]
@[simp] theorem State.raise_pending (s : State) (p : Page) (e : Ev) (addr : Nat) :
    (s.raise p e addr).pending = s.pending := by simp [State.raise]

/-! ### raiseWord -/

@[simp] theorem State.raiseWord_part (s : State) (p : Page) (e : Ev) (addr : Nat) :
    (s.raiseWord p e addr).part = s.part := by simp [State.raiseWord]
@[simp] theorem State.raiseWord_ashlars (s : State) (p : Page) (e : Ev) (addr : Nat) :
    (s.raiseWord p e addr).ashlars = s.ashlars := by simp [State.raiseWord]
@[simp] theorem State.raiseWord_dies (s : State) (p : Page) (e : Ev) (addr : Nat) :
    (s.raiseWord p e addr).dies = s.dies := by simp [State.raiseWord]
@[simp] theorem State.raiseWord_pstate (s : State) (p : Page) (e : Ev) (addr : Nat) :
    (s.raiseWord p e addr).pstate = s.pstate := by simp [State.raiseWord]
@[simp] theorem State.raiseWord_time (s : State) (p : Page) (e : Ev) (addr : Nat) :
    (s.raiseWord p e addr).time = s.time := by simp [State.raiseWord]
@[simp] theorem State.raiseWord_mas (s : State) (p : Page) (e : Ev) (addr : Nat) :
    (s.raiseWord p e addr).mas = s.mas := by simp [State.raiseWord]
@[simp] theorem State.raiseWord_flash (s : State) (p : Page) (e : Ev) (addr : Nat) :
    (s.raiseWord p e addr).flash = s.flash := by simp [State.raiseWord]
@[simp] theorem State.raiseWord_fuses (s : State) (p : Page) (e : Ev) (addr : Nat) :
    (s.raiseWord p e addr).fuses = s.fuses := by simp [State.raiseWord]
@[simp] theorem State.raiseWord_supply (s : State) (p : Page) (e : Ev) (addr : Nat) :
    (s.raiseWord p e addr).supply = s.supply := by simp [State.raiseWord]
@[simp] theorem State.raiseWord_cages (s : State) (p : Page) (e : Ev) (addr : Nat) :
    (s.raiseWord p e addr).cages = s.cages := by simp [State.raiseWord]
@[simp] theorem State.raiseWord_net (s : State) (p : Page) (e : Ev) (addr : Nat) :
    (s.raiseWord p e addr).net = s.net := by simp [State.raiseWord]
@[simp] theorem State.raiseWord_portWait (s : State) (p : Page) (e : Ev) (addr : Nat) :
    (s.raiseWord p e addr).portWait = s.portWait := by simp [State.raiseWord]
@[simp] theorem State.raiseWord_past (s : State) (p : Page) (e : Ev) (addr : Nat) :
    (s.raiseWord p e addr).past = s.past := by simp [State.raiseWord]
@[simp] theorem State.raiseWord_freeIdx (s : State) (p : Page) (e : Ev) (addr : Nat) :
    (s.raiseWord p e addr).freeIdx = s.freeIdx := by simp [State.raiseWord]
@[simp] theorem State.raiseWord_pending (s : State) (p : Page) (e : Ev) (addr : Nat) :
    (s.raiseWord p e addr).pending = s.pending := by simp [State.raiseWord]

@[simp] theorem State.raiseWord_ash (s : State) (p : Page) (e : Ev) (n : Nat) (a : Ash) :
    (s.raiseWord p e n).ash a = s.ash a := by simp [State.ash]

/-- An event raised leaves every ashlar, every die and the Mason as they are. -/
@[simp] theorem State.raise_ash (s : State) (p : Page) (e : Ev) (addr : Nat) (a : Ash) : (s.raise p e addr).ash a = s.ash a := by
  simp [State.ash]

@[simp] theorem State.countErr_ash (s : State) (p : Page) (a : Ash) : (s.countErr p).ash a = s.ash a := by simp [State.ash]

end Sys2Proof.Machine
end

