-- ==== Sys2Proof/Laws/Joiner.lean ====
section
/-! SUPPORT. What a turn of the Joiner can do: stall, trap, or retire; and what retiring leaves alone. -/

namespace Sys2Proof.Machine

/-- A change to a Joiner is seen at its ashlar and nowhere else. -/
@[simp] theorem State.onJ_ash_same (s : State) (a : Ash) (f : Joiner → Joiner) :
    (s.onJ a f).ash a = (s.ash a).onJ f := by simp [State.onJ]

theorem State.onJ_ash_ne (s : State) {a b : Ash} (f : Joiner → Joiner) (h : b ≠ a) : (s.onJ a f).ash b = s.ash b := by
  simp [State.onJ, State.ash_onAsh_ne _ _ h]

/-- Two changes of one Joiner are one. -/
theorem State.onJ_onJ (s : State) (a : Ash) (f g : Joiner → Joiner) : (s.onJ a f).onJ a g = s.onJ a fun j => g (f j) :=
  State.onAsh_onAsh s a _ _

/-- Two changes that agree on the Joiner as it stands are the same. -/
theorem State.onJ_congr (s : State) (a : Ash) {f g : Joiner → Joiner} (h : f (s.ash a).joiner = g (s.ash a).joiner) :
    s.onJ a f = s.onJ a g := State.onAsh_congr s a (by simp [Ashlar.onJ, h])

@[simp] theorem Ashlar.onJ_joiner (v : Ashlar) (f : Joiner → Joiner) : (v.onJ f).joiner = f v.joiner := rfl

@[simp] theorem Ashlar.onJ_engines (v : Ashlar) (f : Joiner → Joiner) : (v.onJ f).engines = v.engines := rfl

@[simp] theorem Ashlar.onJ_pegs (v : Ashlar) (f : Joiner → Joiner) : (v.onJ f).pegs = v.pegs := rfl

@[simp] theorem Ashlar.onJ_frozen (v : Ashlar) (f : Joiner → Joiner) : (v.onJ f).frozen = v.frozen := rfl

@[simp] theorem Joiner.wr_held (j : Joiner) (r : Reg) (x : Word) : (j.wr r x).held = j.held := by
  unfold Joiner.wr; split <;> rfl

@[simp] theorem Joiner.goOn_held (j : Joiner) : j.goOn.held = j.held := rfl

@[simp] theorem Joiner.trap_held (j : Joiner) (c : Byte) (v : Word) (e : BitVec 11) : (j.trap c v e).held = j.held := by
  unfold Joiner.trap; dsimp only; split
  · rfl
  · split <;> rfl

/-- A register reads what was written to it; register 0 reads 0 (R97). -/
theorem Joiner.rd_wr_same (j : Joiner) (r : Reg) (x : Word) (h : r ≠ 0) : (j.wr r x).rd r = x := by
  unfold Joiner.wr Joiner.rd
  rw [if_neg h, if_neg h]
  exact Vector.getElem_set_self _

theorem Joiner.rd_wr_ne (j : Joiner) {r q : Reg} (x : Word) (h : q ≠ r) : (j.wr r x).rd q = j.rd q := by
  unfold Joiner.wr Joiner.rd
  split
  · rfl
  · split
    · rfl
    · have hn : (r.toFin : Nat) ≠ q.toFin := fun e => h (BitVec.eq_of_toFin_eq (Fin.ext e.symm))
      simpa using Vector.getElem_set_ne (xs := j.regs) (x := x) (i := r.toFin) (j := q.toFin) (by omega) (by omega) hn

/-- A trap leaves the held trap as it is. -/
@[simp] theorem jTrapEv_held (s : State) (a : Ash) (c : Byte) (v : Word) (ev : Ev) (e : BitVec 11) :
    ((jTrapEv s a c v ev e).ash a).joiner.held = (s.ash a).joiner.held := by
  simp only [jTrapEv, jTrapGo]; split <;> simp

/-- A trap is what `Joiner.trap` makes of the Joiner. -/
@[simp] theorem jTrapEv_joiner (s : State) (a : Ash) (c : Byte) (v : Word) (ev : Ev) (e : BitVec 11) :
    ((jTrapEv s a c v ev e).ash a).joiner = (s.ash a).joiner.trap c v e := by
  simp only [jTrapEv, jTrapGo]; split <;> simp

@[simp] theorem retireSeq_held (s : State) (a : Ash) (n : Nat) :
    ((retireSeq s a n).ash a).joiner.held = (s.ash a).joiner.held := by
  simp only [retireSeq]
  split
  · split <;> simp
  · split
    · simp
    · split <;> simp

@[simp] theorem retire_held (s : State) (a : Ash) (k : Kont) :
    ((retire s a k).ash a).joiner.held = (s.ash a).joiner.held := by
  cases k <;> simp only [retire] <;> simp
  split <;> simp

/-- With no trap held nothing is taken. -/
theorem takeHeld_none (s : State) (a : Ash) (h : (s.ash a).joiner.held = []) : takeHeld s a = s := by
  have : heldNow (s.ash a) = none := by
    unfold heldNow; rw [h]; split
    · rfl
    · split <;> rfl
  unfold takeHeld; rw [this]

theorem jTurn_eq {s : State} {a : Ash} {w : Word} {uses : List Reg} {c : Bool} (h : Turn s a w uses c)
    (body : State → JRes) :
    jTurn s a w uses body =
      match body (fetched s a c) with
      | .stall code => (fetched s a c).onJ a fun j => { j with state := .stalled, stall := code }
      | .trap cause val => jTrap (fetched s a c) a cause val
      | .done t k => takeHeld (retire t a k) a := by
  unfold jTurn
  rw [h.fetch]
  simp only [h.held, h.legal, h.free, Bool.not_true, Bool.false_eq_true, if_false, ne_eq, not_true_eq_false]
  rfl

/-- A Joiner command whose turn has come retires when its body is done and leaves no trap held. -/
theorem jExec_done {s t : State} {a : Ash} {w : Word} {uses : List Reg} {c : Bool} {k : Kont} {body : State → JRes}
    (h : Turn s a w uses c) (hb : body (fetched s a c) = .done t k) (ht : (t.ash a).joiner.held = []) :
    jExec s a w uses body = .next (retire t a k) := by
  simp only [jExec, atAsh, atAshIf, h.runs.onPart, h.runs.awake, Bool.and_true, Bool.false_eq_true, if_true, if_false]
  rw [jTurn_eq h, hb]
  dsimp only
  rw [takeHeld_none _ _ (by simp [ht])]

theorem jExec_trap {s : State} {a : Ash} {w val : Word} {uses : List Reg} {c : Bool} {cause : Byte}
    {body : State → JRes} (h : Turn s a w uses c) (hb : body (fetched s a c) = .trap cause val) :
    jExec s a w uses body = .next (jTrap (fetched s a c) a cause val) := by
  simp only [jExec, atAsh, atAshIf, h.runs.onPart, h.runs.awake, Bool.and_true, Bool.false_eq_true, if_true, if_false]
  rw [jTurn_eq h, hb]

theorem jExec_stall {s : State} {a : Ash} {w : Word} {uses : List Reg} {c : Bool} {code : BitVec 4}
    {body : State → JRes} (h : Turn s a w uses c) (hb : body (fetched s a c) = .stall code) :
    jExec s a w uses body = .next (stalledAt (fetched s a c) a code) := by
  simp only [jExec, atAsh, atAshIf, h.runs.onPart, h.runs.awake, Bool.and_true, Bool.false_eq_true, if_true, if_false]
  rw [jTurn_eq h, hb]
  rfl

/-- An instruction that uses a pending register stalls. -/
theorem jExec_blocked {s : State} {a : Ash} {w : Word} {uses : List Reg} {c : Bool} {body : State → JRes}
    (h : Blocked s a w uses c) : jExec s a w uses body = .next (stalledAt (fetched s a c) a 1) := by
  simp only [jExec, atAsh, atAshIf, h.runs.onPart, h.runs.awake, Bool.and_true, Bool.false_eq_true, if_true, if_false]
  unfold jTurn
  simp [h.fetch, h.held, h.legal, h.waits, stalledAt, fetched]

@[simp] theorem fetched_ash (s : State) (a b : Ash) (c : Bool) : (fetched s a c).ash b = s.ash b := by
  unfold fetched; split <;> simp

/-- An instruction that only writes rd retires with rd written. -/
theorem jExec_write {s : State} {a : Ash} {w x : Word} {uses : List Reg} {c : Bool} {rd : Reg} {body : State → JRes}
    (h : Turn s a w uses c) (hb : body (fetched s a c) = jWrite (fetched s a c) a rd x) :
    jExec s a w uses body = .next (retire ((fetched s a c).onJ a fun j => j.wr rd x) a .seq) :=
  jExec_done h hb (by simp [h.held])

end Sys2Proof.Machine
end

