-- ==== Sys2Proof/Laws/Memory.lean ====
section
/-! SUPPORT. Laws of byte memories: a read after a write, and that every write keeps the canonical form. -/

namespace Sys2Proof.Machine

/-- In canonical form an address below every listed one reads 0. -/
theorem mread_below (m : Mem) (a : Nat) (h : m.all fun e => decide (a < e.1)) : mread m a = 0 := by
  induction m with
  | nil => rfl
  | cons c r ih =>
    simp only [List.all_cons, Bool.and_eq_true, decide_eq_true_eq] at h
    simp only [mread, if_neg (show ¬ c.1 = a by omega)]
    exact ih h.2

theorem memWf_cons {c : Host.Cell} {r : Mem} :
    memWf (c :: r) = true ↔ c.2 ≠ 0 ∧ (r.all fun e => decide (c.1 < e.1)) = true ∧ memWf r = true := by
  simp [memWf, and_assoc]

theorem all_lt_mono {a b : Nat} {m : Mem} (hab : a ≤ b) (h : m.all fun e => decide (b < e.1)) :
    m.all fun e => decide (a < e.1) := by
  simp only [List.all_eq_true, decide_eq_true_eq] at h ⊢
  exact fun e he => by have := h e he; omega

/-- A written byte reads back. -/
theorem mread_mwrite_same (m : Mem) (a : Nat) (b : Byte) (h : memWf m) : mread (mwrite m a b) a = b := by
  induction m with
  | nil => simp only [mwrite]; split <;> simp_all [mread]
  | cons c r ih =>
    obtain ⟨-, hall, hr⟩ := memWf_cons.1 h
    simp only [mwrite]
    split
    · split
      · next hlt hb =>
        rw [hb]
        exact mread_below _ _ (by simp only [List.all_cons, Bool.and_eq_true, decide_eq_true_eq]
                                  exact ⟨hlt, all_lt_mono (Nat.le_of_lt hlt) hall⟩)
      · simp [mread]
    · split
      · split
        · next heq hb => rw [hb, heq]; exact mread_below _ _ hall
        · simp [mread]
      · next hlt hne => simp only [mread, if_neg (fun x => hne (Eq.symm x)), ih hr]

/-- A write leaves every other byte alone. -/
theorem mread_mwrite_ne (m : Mem) {a x : Nat} (b : Byte) (h : x ≠ a) : mread (mwrite m a b) x = mread m x := by
  induction m with
  | nil => simp only [mwrite]; split <;> simp [mread, Ne.symm h]
  | cons c r ih =>
    simp only [mwrite]
    split
    · split
      · rfl
      · simp [mread, Ne.symm h]
    · split
      · next heq =>
        split
        · have : ¬ c.1 = x := fun y => h (y.symm.trans heq.symm)
          simp [mread, this]
        · simp [mread, Ne.symm h, show ¬ c.1 = x from fun y => h (y.symm.trans heq.symm)]
      · simp only [mread, ih]

theorem all_lt_mwrite {k a : Nat} {b : Byte} {m : Mem} (hk : k < a) (h : m.all fun e => decide (k < e.1)) :
    (mwrite m a b).all fun e => decide (k < e.1) := by
  induction m with
  | nil => simp only [mwrite]; split <;> simp [hk]
  | cons c r ih =>
    have hc := h
    simp only [List.all_cons, Bool.and_eq_true, decide_eq_true_eq] at hc
    simp only [mwrite]
    split
    · split
      · exact h
      · exact List.all_eq_true.2 fun e he => by
          rcases List.mem_cons.1 he with rfl | he
          · exact decide_eq_true hk
          · exact List.all_eq_true.1 h e he
    · split
      · split
        · exact hc.2
        · exact List.all_eq_true.2 fun e he => by
            rcases List.mem_cons.1 he with rfl | he
            · exact decide_eq_true hk
            · exact List.all_eq_true.1 hc.2 e he
      · simp only [List.all_cons, Bool.and_eq_true, decide_eq_true_eq]; exact ⟨hc.1, ih hc.2⟩

/-- A write keeps the canonical form. -/
theorem memWf_mwrite (m : Mem) (a : Nat) (b : Byte) (h : memWf m) : memWf (mwrite m a b) := by
  induction m with
  | nil => simp only [mwrite]; split <;> simp_all [memWf]
  | cons c r ih =>
    obtain ⟨hc, hall, hr⟩ := memWf_cons.1 h
    simp only [mwrite]
    split
    · next hlt =>
      split
      · exact h
      · next hb =>
        refine memWf_cons.2 ⟨hb, ?_, h⟩
        simp only [List.all_cons, Bool.and_eq_true, decide_eq_true_eq]
        exact ⟨hlt, all_lt_mono (Nat.le_of_lt hlt) hall⟩
    · split
      · next heq =>
        split
        · exact hr
        · next hb => exact memWf_cons.2 ⟨hb, by rw [heq]; exact hall, hr⟩
      · next hlt hne => exact memWf_cons.2 ⟨hc, all_lt_mwrite (by omega) hall, ih hr⟩

/-- A wider write keeps it. -/
theorem memWf_mwriteN (n : Nat) : ∀ (m : Mem) (a v : Nat), memWf m → memWf (mwriteN m a n v) := by
  induction n with
  | zero => exact fun _ _ _ h => h
  | succ n ih => exact fun m a v h => ih _ _ _ (memWf_mwrite m a _ h)

/-- A wider write leaves every byte outside it alone. -/
theorem mread_mwriteN_outside (n : Nat) : ∀ (m : Mem) (a v x : Nat), x < a ∨ a + n ≤ x →
    mread (mwriteN m a n v) x = mread m x := by
  induction n with
  | zero => exact fun _ _ _ _ _ => rfl
  | succ n ih =>
    intro m a v x h
    simp only [mwriteN]
    rw [ih _ _ _ _ (by omega), mread_mwrite_ne _ _ (by omega)]

/-- What a wider write stores reads back. -/
theorem mreadN_mwriteN (n : Nat) : ∀ (m : Mem) (a v : Nat), memWf m → mreadN (mwriteN m a n v) a n = v % 256 ^ n := by
  induction n with
  | zero => intro m a v _; simp [mreadN, Nat.mod_one]
  | succ n ih =>
    intro m a v h
    have hm := memWf_mwrite m a (BitVec.ofNat 8 (v % 256)) h
    simp only [mreadN, mwriteN]
    rw [ih _ _ _ hm, mread_mwriteN_outside _ _ _ _ _ (by omega), mread_mwrite_same _ _ _ h]
    simp only [BitVec.toNat_ofNat, Nat.mod_mod]
    rw [show (256 : Nat) ^ (n + 1) = 256 * 256 ^ n by rw [Nat.pow_succ, Nat.mul_comm], Nat.mod_mul]

theorem memWf_spadPut (v : Ashlar) (w d c : Nat) (h : memWf v.spad) : memWf (spadPut v w d c).spad :=
  memWf_mwriteN _ _ _ _ h

theorem memWf_halfPut (m : Mem) (i d c : Nat) (h : memWf m) : memWf (halfPut m i d c) := memWf_mwriteN _ _ _ _ h

theorem memWf_halfStore (m : Mem) (i d : Nat) (h : memWf m) : memWf (halfStore m i d) := memWf_mwriteN _ _ _ _ h

end Sys2Proof.Machine
end

