-- ==== Sys2Proof/Laws/Mortar.lean ====
section
/-! SUPPORT. What the slips of a timed flit leave alone (R325): everything but registers, the routers' counts, reports and
free values. -/

namespace Sys2Proof.Machine

@[simp] theorem State.perfAdd_ashlars (s : State) (p : Page) (off k : Nat) : (s.perfAdd p off k).ashlars = s.ashlars := by
  simp only [State.perfAdd]; split <;> simp
@[simp] theorem State.perfAdd_ash (s : State) (p : Page) (off k : Nat) (a : Ash) : (s.perfAdd p off k).ash a = s.ash a := by
  simp only [State.ash, State.perfAdd_ashlars]
@[simp] theorem State.perfAdd_net (s : State) (p : Page) (off k : Nat) : (s.perfAdd p off k).net = s.net := by
  simp only [State.perfAdd]; split <;> simp
@[simp] theorem State.perfAdd_portWait (s : State) (p : Page) (off k : Nat) :
    (s.perfAdd p off k).portWait = s.portWait := by
  simp only [State.perfAdd]; split <;> simp
@[simp] theorem State.perfAdd_part (s : State) (p : Page) (off k : Nat) : (s.perfAdd p off k).part = s.part := by
  simp only [State.perfAdd]; split <;> simp
@[simp] theorem State.perfAdd_pending (s : State) (p : Page) (off k : Nat) : (s.perfAdd p off k).pending = s.pending := by
  simp only [State.perfAdd]; split <;> simp

/-- What a slip touches: of an ashlar its router's count, and nothing of the packets, the part or the queue. -/
structure OnlySlips (s t : State) : Prop where
  net : t.net = s.net
  portWait : t.portWait = s.portWait
  part : t.part = s.part
  pending : t.pending = s.pending
  ash : ∀ b, ∃ h, t.ash b = { s.ash b with slips := h }

theorem OnlySlips.refl (s : State) : OnlySlips s s := ⟨rfl, rfl, rfl, rfl, fun b => ⟨(s.ash b).slips, rfl⟩⟩

theorem OnlySlips.trans {s t u : State} (h : OnlySlips s t) (k : OnlySlips t u) : OnlySlips s u where
  net := k.net.trans h.net
  portWait := k.portWait.trans h.portWait
  part := k.part.trans h.part
  pending := k.pending.trans h.pending
  ash b := by
    obtain ⟨x, e⟩ := h.ash b
    obtain ⟨y, f⟩ := k.ash b
    exact ⟨y, by rw [f, e]⟩

/-- A change that leaves every ashlar alone. -/
theorem OnlySlips.of_ash {s t : State} (hn : t.net = s.net) (hw : t.portWait = s.portWait) (hp : t.part = s.part)
    (hq : t.pending = s.pending) (ha : ∀ b, t.ash b = s.ash b) : OnlySlips s t :=
  ⟨hn, hw, hp, hq, fun b => ⟨(s.ash b).slips, by rw [ha]⟩⟩

theorem OnlySlips.onAsh (s : State) (a : Ash) (n : Nat) :
    OnlySlips s (s.onAsh a fun v => { v with slips := sat16 v.slips n }) where
  net := rfl
  portWait := rfl
  part := rfl
  pending := rfl
  ash b := by
    by_cases e : b = a
    · subst e; exact ⟨sat16 (s.ash b).slips n, State.ash_onAsh_same s b _⟩
    · exact ⟨(s.ash b).slips, State.ash_onAsh_ne s _ e⟩

/-- Registers and reports. -/
theorem OnlySlips.mark (s : State) (p q : Page) (off : Nat) (w : Word) (e : Ev) (x : Nat) :
    OnlySlips s ((s.setReg p off w).raise q e x) :=
  .of_ash (by simp) (by simp) (by simp) (by simp) fun b => by rw [State.raise_ash]; rfl

/-- The slips of an output (R325). -/
theorem slipAt_only (s : State) (h : Hop) (n : Nat) : OnlySlips s (slipAt s h n) := by
  unfold slipAt
  split
  · exact .refl s
  · have h1 : OnlySlips s (s.perfAdd (.mor h.die) 0x50 n) := .of_ash (by simp) (by simp) (by simp) (by simp) (by simp)
    dsimp only
    split <;> split
    · exact h1.trans (.onAsh _ _ _)
    · exact (h1.trans (.onAsh _ _ _)).trans (.mark _ _ _ _ _ _ _)
    · exact h1
    · exact h1.trans (.mark _ _ _ _ _ _ _)

theorem slips_only (l : List Hop) (s : State) :
    OnlySlips s (l.foldl (fun t h => let x := t.free; slipAt x.2 h x.1.toNat) s) := by
  induction l generalizing s with
  | nil => exact .refl s
  | cons h l ih =>
    have hf : OnlySlips s s.free.2 := .of_ash rfl rfl rfl rfl fun _ => rfl
    exact (hf.trans (slipAt_only _ h _)).trans (ih _)

/-- The slips of a packet touch nothing of an ashlar but its router's count. -/
theorem timedSlips_only (s : State) (p : Packet) : OnlySlips s (timedSlips s p) := by
  unfold timedSlips
  split
  · exact slips_only _ s
  · exact .refl s

@[simp] theorem timedSlips_net (s : State) (p : Packet) : (timedSlips s p).net = s.net := (timedSlips_only s p).net
@[simp] theorem timedSlips_portWait (s : State) (p : Packet) : (timedSlips s p).portWait = s.portWait :=
  (timedSlips_only s p).portWait
@[simp] theorem timedSlips_part (s : State) (p : Packet) : (timedSlips s p).part = s.part := (timedSlips_only s p).part
@[simp] theorem timedSlips_pending (s : State) (p : Packet) : (timedSlips s p).pending = s.pending :=
  (timedSlips_only s p).pending
theorem timedSlips_ash (s : State) (p : Packet) (b : Ash) : ∃ h, (timedSlips s p).ash b = { s.ash b with slips := h } :=
  (timedSlips_only s p).ash b

end Sys2Proof.Machine
end

