-- ==== Sys2Proof/Laws/Outcomes.lean ====
section
/-! SUPPORT. What the shared operations that begin a command's meaning answer: a next state where the part has what the command
names, the fault noSuchBlock where it has not. -/

namespace Sys2Proof.Machine

theorem answers_next (s : State) : Answers (.next s) := ⟨s, rfl⟩

/-- An outcome that answers where `ok` holds and faults where it does not. -/
def Named (ok : Bool) (o : Host.Outcome State Fault Refusal) : Prop :=
  (ok = true → Answers o) ∧ (ok = false → o = .fault .noSuchBlock)

theorem named_of_answers {o : Host.Outcome State Fault Refusal} (h : Answers o) : Named true o := ⟨fun _ => h, nofun⟩

theorem named_ite {ok : Bool} {c : Prop} [Decidable c] {o p : Host.Outcome State Fault Refusal} (ho : c → Named ok o)
    (hp : ¬c → Named ok p) : Named ok (if c then o else p) := by
  by_cases h : c
  · rw [if_pos h]; exact ho h
  · rw [if_neg h]; exact hp h

theorem named_guard {c : Prop} [Decidable c] {o : Host.Outcome State Fault Refusal} (ho : Answers o) :
    Named (decide c) (if c then o else .fault .noSuchBlock) := by
  by_cases h : c <;> simp [Named, h, ho]

theorem atAshIf_named (s : State) (a : Ash) (k : Bool) {o : Host.Outcome State Fault Refusal} (ho : Answers o) :
    Named (pageExists s.part (.ash a) && k) (atAshIf s a k o) := by
  unfold atAshIf ashExists
  cases h : (pageExists s.part (.ash a) && k) <;> simp only [Named] <;> constructor <;> intro e <;> try contradiction
  · rfl
  · rw [if_pos trivial]; split
    · exact answers_next s
    · exact ho

theorem atAsh_named (s : State) (a : Ash) {o : Host.Outcome State Fault Refusal} (ho : Answers o) :
    Named (pageExists s.part (.ash a)) (atAsh s a o) := by
  have h := atAshIf_named s a true ho
  rwa [Bool.and_true] at h

theorem atDieIf_named (s : State) (die : Nat) (k : Bool) {o : Host.Outcome State Fault Refusal} (ho : Answers o) :
    Named (decide (die < s.part.dies) && k) (atDieIf s die k o) := by
  unfold atDieIf
  cases h : (decide (die < s.part.dies) && k) <;> simp only [Named] <;> constructor <;> intro e <;> try contradiction
  · rfl
  · rw [if_pos trivial]; split
    · exact answers_next s
    · exact ho

theorem atDie_named (s : State) (die : Nat) {o : Host.Outcome State Fault Refusal} (ho : Answers o) :
    Named (decide (die < s.part.dies)) (atDie s die o) := by
  have h := atDieIf_named s die true ho
  rwa [Bool.and_true] at h

theorem atPortIf_named (s : State) (die : Nat) (k : Bool) {o : Host.Outcome State Fault Refusal} (ho : Answers o) :
    Named (decide (die < s.part.dies) && k) (atPortIf s die k o) := by
  unfold atPortIf
  cases h : (decide (die < s.part.dies) && k) <;> simp only [Named] <;> constructor <;> intro e <;> try contradiction
  · rfl
  · rw [if_pos trivial]; split
    · exact ho
    · exact answers_next s

theorem atModule_answers (s go : State) : Answers (atModule s go) := ⟨_, rfl⟩

theorem atJtag_answers (s go : State) : Answers (atJtag s go) := ⟨_, rfl⟩

theorem atPci_named (k : Nat) (s go : State) : Named (decide (k < 2)) (atPci k s go) := named_guard (answers_next _)

theorem atPin_named (s : State) (pin : Nat) (go : State) : Named (decide (pin < 4)) (atPin s pin go) :=
  named_guard (answers_next _)

theorem onSocket_named (s : State) (die : Nat) (f : State → State) :
    Named (decide (die < s.part.dies)) (onSocket s die f) := named_guard (answers_next _)

theorem atLintel_named (s : State) (d : Nat) (side : Side) (go : State) :
    Named (pageExists s.part (.lin d side)) (atLintel s d side go) := by
  have h := named_guard (c := pageExists s.part (.lin d side) = true) (atModule_answers s go)
  rwa [Bool.decide_eq_true] at h

theorem hostCommand_answers (s : State) (c : HostCmd) (opcode : Nat) (go : State → State) :
    Answers (hostCommand s c opcode go) := by
  unfold hostCommand
  dsimp only
  repeat' split
  all_goals exact answers_next _

theorem jobCommand_answers (s : State) (c : HostCmd) (opcode : Nat) (go : Job → State → State) :
    Answers (jobCommand s c opcode go) := by
  unfold jobCommand
  split
  · exact answers_next s
  · exact hostCommand_answers s c opcode _

theorem serviceCommand_answers (s : State) (c : HostCmd) (action : Nat) (go : Nat → State → State) :
    Answers (serviceCommand s c action go) := by
  unfold serviceCommand
  dsimp only
  split
  · exact answers_next s
  · exact hostCommand_answers s c 0x0A _

theorem whileAwake_answers (s : State) {o : Host.Outcome State Fault Refusal} (ho : Answers o) : Answers (whileAwake s o) := by
  unfold whileAwake
  split
  · exact ho
  · exact answers_next s

/-! ### Packets -/

theorem destMissing_eq (s : State) (d : Dest) : destMissing s d = !destOn s.part d := by
  unfold destMissing destOn
  split <;> rfl

/-- An ashlar's destination is on the grid of the part. -/
theorem destOn_of_ashOf {s : State} {d : Dest} {a : Ash} (h : ashOf s d = some a) : destOn s.part d = true := by
  unfold ashOf at h
  dsimp only at h
  split at h
  · rename_i hb
    have hr : 96 * s.part.dieRows ≤ 192 := by cases s.part <;> decide
    unfold destOn isBlock
    rw [if_neg (by simp; omega)]
    simp [hb.1, hb.2]
  · contradiction

theorem destMissing_of_ashOf {s : State} {d : Dest} {a : Ash} (h : ashOf s d = some a) : destMissing s d = false := by
  rw [destMissing_eq, destOn_of_ashOf h]; rfl

theorem toAsh_named (s : State) (p : Packet) (go : Ash → State) : Named (destOn s.part p.dest) (toAsh s p go) := by
  unfold toAsh
  split
  · rename_i a h
    rw [destOn_of_ashOf h]
    refine named_of_answers ?_
    split
    · exact answers_next s
    · split <;> exact answers_next _
  · rw [destMissing_eq]
    cases destOn s.part p.dest
    · exact ⟨nofun, fun _ => rfl⟩
    · exact ⟨fun _ => answers_next s, nofun⟩

theorem toAshClean_named (s : State) (p : Packet) (go : Ash → State → State) :
    Named (destOn s.part p.dest) (toAshClean s p go) := toAsh_named s p _

theorem destOn_of_isBlock {part : Part} {d : Dest} (h : isBlock d = true) : destOn part d = blockExists part d := by
  unfold destOn; rw [if_pos h]

theorem toBlock_named (s : State) (p : Packet) (code : Nat) (go : Nat → Nat → State → State) :
    Named (destOn s.part p.dest) (toBlock s p code go) := by
  unfold toBlock
  dsimp only
  split
  · rename_i h
    rw [Bool.and_eq_true] at h
    rw [destOn_of_isBlock h.1]
    cases blockExists s.part p.dest
    · exact ⟨nofun, fun _ => rfl⟩
    · refine named_of_answers ?_
      rw [if_neg (by simp)]
      repeat' split
      all_goals exact answers_next _
  · rw [destMissing_eq]
    cases destOn s.part p.dest
    · exact ⟨nofun, fun _ => rfl⟩
    · exact ⟨fun _ => answers_next s, nofun⟩

theorem toAnyBlock_named (s : State) (p : Packet) (go : State → State) :
    Named (destOn s.part p.dest) (toAnyBlock s p go) := toBlock_named s p _ _

theorem isBlock_of_ctl {d : Dest} {x : Nat × Ctl} (h : ctlOfDest d = some x) : isBlock d = true := by
  cases e : isBlock d
  · rw [ctlOfDest, e] at h
    contradiction
  · rfl

theorem toCtl_named (s : State) (p : Packet) (go : Nat → Ctl → State → State) :
    Named (destOn s.part p.dest) (toCtl s p go) := by
  unfold toCtl
  split
  · rw [destMissing_eq]
    cases destOn s.part p.dest
    · exact ⟨nofun, fun _ => rfl⟩
    · exact ⟨fun _ => answers_next s, nofun⟩
  · rename_i h
    rw [destOn_of_isBlock (isBlock_of_ctl h)]
    cases blockExists s.part p.dest
    · exact ⟨nofun, fun _ => rfl⟩
    · refine named_of_answers ?_
      rw [if_neg (by simp)]
      repeat' split
      all_goals exact answers_next _

theorem toPage_named (s : State) (p : Packet) (go : Page → State → State) :
    Named (destOn s.part p.dest) (toPage s p go) := by
  unfold toPage
  split
  · exact toAnyBlock_named s p _
  · exact toAshClean_named s p _

end Sys2Proof.Machine
end

