-- ==== Sys2Proof/Laws/PerInstr.lean ====
section
/-! SUPPORT. What holds of every command as syntax: a Joiner instruction names one ashlar, and it is on the part exactly
where that ashlar is. -/

namespace Sys2Proof.Laws.JoinerPlace

open Sys2Proof Sys2Proof.Machine

/-- A command with a Joiner word exists on a part exactly where the ashlar of that word does (R97, R100). -/
def Statement (i : Instr) : Prop :=
  ∀ (part : Part) (a : Ash) (w : Word), joinerWord i = some (a, w) → i.onPart part = pageExists part (.ash a)

/-- A Joiner instruction names the ashlar of its word. -/
theorem same_ash {part : Part} {b a : Ash} {x w : Word} (h : some (b, x) = some (a, w)) :
    pageExists part (.ash b) = pageExists part (.ash a) := by cases h; rfl

theorem add (a : Ash) (rd rs1 rs2 : Reg) : Statement (.add a rd rs1 rs2) := fun _ _ _ h => same_ash h
theorem sub (a : Ash) (rd rs1 rs2 : Reg) : Statement (.sub a rd rs1 rs2) := fun _ _ _ h => same_ash h
theorem and (a : Ash) (rd rs1 rs2 : Reg) : Statement (.and a rd rs1 rs2) := fun _ _ _ h => same_ash h
theorem or (a : Ash) (rd rs1 rs2 : Reg) : Statement (.or a rd rs1 rs2) := fun _ _ _ h => same_ash h
theorem xor (a : Ash) (rd rs1 rs2 : Reg) : Statement (.xor a rd rs1 rs2) := fun _ _ _ h => same_ash h
theorem sll (a : Ash) (rd rs1 rs2 : Reg) : Statement (.sll a rd rs1 rs2) := fun _ _ _ h => same_ash h
theorem srl (a : Ash) (rd rs1 rs2 : Reg) : Statement (.srl a rd rs1 rs2) := fun _ _ _ h => same_ash h
theorem sra (a : Ash) (rd rs1 rs2 : Reg) : Statement (.sra a rd rs1 rs2) := fun _ _ _ h => same_ash h
theorem slt (a : Ash) (rd rs1 rs2 : Reg) : Statement (.slt a rd rs1 rs2) := fun _ _ _ h => same_ash h
theorem sltu (a : Ash) (rd rs1 rs2 : Reg) : Statement (.sltu a rd rs1 rs2) := fun _ _ _ h => same_ash h
theorem min (a : Ash) (rd rs1 rs2 : Reg) : Statement (.min a rd rs1 rs2) := fun _ _ _ h => same_ash h
theorem max (a : Ash) (rd rs1 rs2 : Reg) : Statement (.max a rd rs1 rs2) := fun _ _ _ h => same_ash h
theorem minu (a : Ash) (rd rs1 rs2 : Reg) : Statement (.minu a rd rs1 rs2) := fun _ _ _ h => same_ash h
theorem maxu (a : Ash) (rd rs1 rs2 : Reg) : Statement (.maxu a rd rs1 rs2) := fun _ _ _ h => same_ash h
theorem mul (a : Ash) (rd rs1 rs2 : Reg) : Statement (.mul a rd rs1 rs2) := fun _ _ _ h => same_ash h
theorem mulhu (a : Ash) (rd rs1 rs2 : Reg) : Statement (.mulhu a rd rs1 rs2) := fun _ _ _ h => same_ash h
theorem mulh (a : Ash) (rd rs1 rs2 : Reg) : Statement (.mulh a rd rs1 rs2) := fun _ _ _ h => same_ash h
theorem flt (a : Ash) (rd rs1 rs2 : Reg) : Statement (.flt a rd rs1 rs2) := fun _ _ _ h => same_ash h
theorem fle (a : Ash) (rd rs1 rs2 : Reg) : Statement (.fle a rd rs1 rs2) := fun _ _ _ h => same_ash h
theorem feq (a : Ash) (rd rs1 rs2 : Reg) : Statement (.feq a rd rs1 rs2) := fun _ _ _ h => same_ash h
theorem fcvti (a : Ash) (rd rs1 : Reg) : Statement (.fcvti a rd rs1) := fun _ _ _ h => same_ash h
theorem fcvtf (a : Ash) (rd rs1 : Reg) : Statement (.fcvtf a rd rs1) := fun _ _ _ h => same_ash h
theorem addi (a : Ash) (rd rs1 : Reg) (imm : Half) : Statement (.addi a rd rs1 imm) := fun _ _ _ h => same_ash h
theorem andi (a : Ash) (rd rs1 : Reg) (imm : Half) : Statement (.andi a rd rs1 imm) := fun _ _ _ h => same_ash h
theorem ori (a : Ash) (rd rs1 : Reg) (imm : Half) : Statement (.ori a rd rs1 imm) := fun _ _ _ h => same_ash h
theorem xori (a : Ash) (rd rs1 : Reg) (imm : Half) : Statement (.xori a rd rs1 imm) := fun _ _ _ h => same_ash h
theorem slli (a : Ash) (rd rs1 : Reg) (sh : BitVec 5) : Statement (.slli a rd rs1 sh) := fun _ _ _ h => same_ash h
theorem srli (a : Ash) (rd rs1 : Reg) (sh : BitVec 5) : Statement (.srli a rd rs1 sh) := fun _ _ _ h => same_ash h
theorem srai (a : Ash) (rd rs1 : Reg) (sh : BitVec 5) : Statement (.srai a rd rs1 sh) := fun _ _ _ h => same_ash h
theorem slti (a : Ash) (rd rs1 : Reg) (imm : Half) : Statement (.slti a rd rs1 imm) := fun _ _ _ h => same_ash h
theorem sltiu (a : Ash) (rd rs1 : Reg) (imm : Half) : Statement (.sltiu a rd rs1 imm) := fun _ _ _ h => same_ash h
theorem lui (a : Ash) (rd : Reg) (imm : Half) : Statement (.lui a rd imm) := fun _ _ _ h => same_ash h
theorem lw (a : Ash) (rd rs1 : Reg) (imm : Half) : Statement (.lw a rd rs1 imm) := fun _ _ _ h => same_ash h
theorem lh (a : Ash) (rd rs1 : Reg) (imm : Half) : Statement (.lh a rd rs1 imm) := fun _ _ _ h => same_ash h
theorem lhu (a : Ash) (rd rs1 : Reg) (imm : Half) : Statement (.lhu a rd rs1 imm) := fun _ _ _ h => same_ash h
theorem lb (a : Ash) (rd rs1 : Reg) (imm : Half) : Statement (.lb a rd rs1 imm) := fun _ _ _ h => same_ash h
theorem lbu (a : Ash) (rd rs1 : Reg) (imm : Half) : Statement (.lbu a rd rs1 imm) := fun _ _ _ h => same_ash h
theorem sw (a : Ash) (rs2 rs1 : Reg) (imm : Half) : Statement (.sw a rs2 rs1 imm) := fun _ _ _ h => same_ash h
theorem sh (a : Ash) (rs2 rs1 : Reg) (imm : Half) : Statement (.sh a rs2 rs1 imm) := fun _ _ _ h => same_ash h
theorem sb (a : Ash) (rs2 rs1 : Reg) (imm : Half) : Statement (.sb a rs2 rs1 imm) := fun _ _ _ h => same_ash h
theorem beq (a : Ash) (rs1 rs2 : Reg) (off : Half) : Statement (.beq a rs1 rs2 off) := fun _ _ _ h => same_ash h
theorem bne (a : Ash) (rs1 rs2 : Reg) (off : Half) : Statement (.bne a rs1 rs2 off) := fun _ _ _ h => same_ash h
theorem blt (a : Ash) (rs1 rs2 : Reg) (off : Half) : Statement (.blt a rs1 rs2 off) := fun _ _ _ h => same_ash h
theorem bge (a : Ash) (rs1 rs2 : Reg) (off : Half) : Statement (.bge a rs1 rs2 off) := fun _ _ _ h => same_ash h
theorem bltu (a : Ash) (rs1 rs2 : Reg) (off : Half) : Statement (.bltu a rs1 rs2 off) := fun _ _ _ h => same_ash h
theorem bgeu (a : Ash) (rs1 rs2 : Reg) (off : Half) : Statement (.bgeu a rs1 rs2 off) := fun _ _ _ h => same_ash h
theorem jal (a : Ash) (rd : Reg) (imm : Half) : Statement (.jal a rd imm) := fun _ _ _ h => same_ash h
theorem jalr (a : Ash) (rd rs1 : Reg) (imm : Half) : Statement (.jalr a rd rs1 imm) := fun _ _ _ h => same_ash h
theorem loop (a : Ash) (rs1 : Reg) (body : Byte) : Statement (.loop a rs1 body) := fun _ _ _ h => same_ash h
theorem loopi (a : Ash) (count : BitVec 12) (body : Byte) : Statement (.loopi a count body) := fun _ _ _ h => same_ash h
theorem loopt (a : Ash) (rs2 rs1 : Reg) (alsel : BitVec 2) (tlog2 : BitVec 5) (body : Byte) :
    Statement (.loopt a rs2 rs1 alsel tlog2 body) := fun _ _ _ h => same_ash h
theorem issue (a : Ash) (rsA rs1 : Reg) (widxA : BitVec 4) (rsB : Reg) (widxB : BitVec 4) :
    Statement (.issue a rsA rs1 widxA rsB widxB) := fun _ _ _ h => same_ash h
theorem engineDecode (a : Ash) : Statement (.engineDecode a) := fun _ _ _ h => nomatch h
theorem psig (a : Ash) (inc : Byte) (peg : BitVec 6) : Statement (.psig a inc peg) := fun _ _ _ h => same_ash h
theorem pwait (a : Ash) (rs1 : Reg) (mode : BitVec 2) (peg : BitVec 6) :
    Statement (.pwait a rs1 mode peg) := fun _ _ _ h => same_ash h
theorem ptest (a : Ash) (rd rs1 : Reg) (peg : BitVec 6) : Statement (.ptest a rd rs1 peg) := fun _ _ _ h => same_ash h
theorem prd (a : Ash) (rd : Reg) (peg : BitVec 6) : Statement (.prd a rd peg) := fun _ _ _ h => same_ash h
theorem pfadd (a : Ash) (rd rs1 rs2 : Reg) : Statement (.pfadd a rd rs1 rs2) := fun _ _ _ h => same_ash h
theorem eprd (a : Ash) (rd : Reg) (word : BitVec 2) (ep : BitVec 3) :
    Statement (.eprd a rd word ep) := fun _ _ _ h => same_ash h
theorem eppop (a : Ash) (ep : BitVec 3) : Statement (.eppop a ep) := fun _ _ _ h => same_ash h
theorem bepe (a : Ash) (ep : BitVec 3) (off : Half) : Statement (.bepe a ep off) := fun _ _ _ h => same_ash h
theorem bepne (a : Ash) (ep : BitVec 3) (off : Half) : Statement (.bepne a ep off) := fun _ _ _ h => same_ash h
theorem csrr (a : Ash) (rd : Reg) (csr : Byte) : Statement (.csrr a rd csr) := fun _ _ _ h => same_ash h
theorem csrw (a : Ash) (rs1 : Reg) (csr : Byte) : Statement (.csrw a rs1 csr) := fun _ _ _ h => same_ash h
theorem msg (a : Ash) (rs1 : Reg) : Statement (.msg a rs1) := fun _ _ _ h => same_ash h
theorem tend (a : Ash) : Statement (.tend a) := fun _ _ _ h => same_ash h
theorem trap (a : Ash) (code : Half) : Statement (.trap a code) := fun _ _ _ h => same_ash h
theorem reth (a : Ash) : Statement (.reth a) := fun _ _ _ h => same_ash h
theorem fence (a : Ash) (mask : BitVec 4) : Statement (.fence a mask) := fun _ _ _ h => same_ash h
theorem halt (a : Ash) : Statement (.halt a) := fun _ _ _ h => same_ash h
theorem breakpoint (a : Ash) : Statement (.breakpoint a) := fun _ _ _ h => nomatch h
theorem taskBoundary (a : Ash) : Statement (.taskBoundary a) := fun _ _ _ h => nomatch h
theorem reductionWrite (a : Ash) (rd : Reg) : Statement (.reductionWrite a rd) := fun _ _ _ h => nomatch h
theorem instrComplete (a : Ash) (seq : BitVec 5) : Statement (.instrComplete a seq) := fun _ _ _ h => nomatch h
theorem readsRetired (a : Ash) (seq : BitVec 5) : Statement (.readsRetired a seq) := fun _ _ _ h => nomatch h
theorem mma (a : Ash) : Statement (.mma a) := fun _ _ _ h => nomatch h
theorem mwload (a : Ash) : Statement (.mwload a) := fun _ _ _ h => nomatch h
theorem mwdrop (a : Ash) : Statement (.mwdrop a) := fun _ _ _ h => nomatch h
theorem weightPreload (a : Ash) : Statement (.weightPreload a) := fun _ _ _ h => nomatch h
theorem plumbSampleArrive (a : Ash) : Statement (.plumbSampleArrive a) := fun _ _ _ h => nomatch h
theorem satCountArrive (a : Ash) : Statement (.satCountArrive a) := fun _ _ _ h => nomatch h
theorem slotSnap (die slot : Nat) : Statement (.slotSnap die slot) := fun _ _ _ h => nomatch h
theorem slotClear (die slot : Nat) : Statement (.slotClear die slot) := fun _ _ _ h => nomatch h
theorem slotConfigWrite (w : Writer) (die off : Nat) (v : Word) :
    Statement (.slotConfigWrite w die off v) := fun _ _ _ h => nomatch h
theorem slotConfigDone (die slot : Nat) : Statement (.slotConfigDone die slot) := fun _ _ _ h => nomatch h
theorem vecAdd (a : Ash) : Statement (.vecAdd a) := fun _ _ _ h => nomatch h
theorem vecSub (a : Ash) : Statement (.vecSub a) := fun _ _ _ h => nomatch h
theorem vecMul (a : Ash) : Statement (.vecMul a) := fun _ _ _ h => nomatch h
theorem vecFma (a : Ash) : Statement (.vecFma a) := fun _ _ _ h => nomatch h
theorem vecMin (a : Ash) : Statement (.vecMin a) := fun _ _ _ h => nomatch h
theorem vecMax (a : Ash) : Statement (.vecMax a) := fun _ _ _ h => nomatch h
theorem vecAbs (a : Ash) : Statement (.vecAbs a) := fun _ _ _ h => nomatch h
theorem vecNeg (a : Ash) : Statement (.vecNeg a) := fun _ _ _ h => nomatch h
theorem cpsgn (a : Ash) : Statement (.cpsgn a) := fun _ _ _ h => nomatch h
theorem cvt (a : Ash) : Statement (.cvt a) := fun _ _ _ h => nomatch h
theorem sel (a : Ash) : Statement (.sel a) := fun _ _ _ h => nomatch h
theorem cmpLt (a : Ash) : Statement (.cmpLt a) := fun _ _ _ h => nomatch h
theorem cmpLe (a : Ash) : Statement (.cmpLe a) := fun _ _ _ h => nomatch h
theorem cmpEq (a : Ash) : Statement (.cmpEq a) := fun _ _ _ h => nomatch h
theorem cmpNe (a : Ash) : Statement (.cmpNe a) := fun _ _ _ h => nomatch h
theorem cmpGt (a : Ash) : Statement (.cmpGt a) := fun _ _ _ h => nomatch h
theorem cmpGe (a : Ash) : Statement (.cmpGe a) := fun _ _ _ h => nomatch h
theorem fnExp (a : Ash) : Statement (.fnExp a) := fun _ _ _ h => nomatch h
theorem fnExp2 (a : Ash) : Statement (.fnExp2 a) := fun _ _ _ h => nomatch h
theorem fnLn (a : Ash) : Statement (.fnLn a) := fun _ _ _ h => nomatch h
theorem fnLog2 (a : Ash) : Statement (.fnLog2 a) := fun _ _ _ h => nomatch h
theorem fnRecip (a : Ash) : Statement (.fnRecip a) := fun _ _ _ h => nomatch h
theorem fnSqrt (a : Ash) : Statement (.fnSqrt a) := fun _ _ _ h => nomatch h
theorem fnRsqrt (a : Ash) : Statement (.fnRsqrt a) := fun _ _ _ h => nomatch h
theorem fnTanh (a : Ash) : Statement (.fnTanh a) := fun _ _ _ h => nomatch h
theorem fnSigmoid (a : Ash) : Statement (.fnSigmoid a) := fun _ _ _ h => nomatch h
theorem fnSilu (a : Ash) : Statement (.fnSilu a) := fun _ _ _ h => nomatch h
theorem fnGelu (a : Ash) : Statement (.fnGelu a) := fun _ _ _ h => nomatch h
theorem fnSoftplus (a : Ash) : Statement (.fnSoftplus a) := fun _ _ _ h => nomatch h
theorem vecAnd (a : Ash) : Statement (.vecAnd a) := fun _ _ _ h => nomatch h
theorem vecOr (a : Ash) : Statement (.vecOr a) := fun _ _ _ h => nomatch h
theorem vecXor (a : Ash) : Statement (.vecXor a) := fun _ _ _ h => nomatch h
theorem shl (a : Ash) : Statement (.shl a) := fun _ _ _ h => nomatch h
theorem shr (a : Ash) : Statement (.shr a) := fun _ _ _ h => nomatch h
theorem vecSra (a : Ash) : Statement (.vecSra a) := fun _ _ _ h => nomatch h
theorem rsum (a : Ash) : Statement (.rsum a) := fun _ _ _ h => nomatch h
theorem rssq (a : Ash) : Statement (.rssq a) := fun _ _ _ h => nomatch h
theorem rmax (a : Ash) : Statement (.rmax a) := fun _ _ _ h => nomatch h
theorem rmin (a : Ash) : Statement (.rmin a) := fun _ _ _ h => nomatch h
theorem ramax (a : Ash) : Statement (.ramax a) := fun _ _ _ h => nomatch h
theorem compress (a : Ash) : Statement (.compress a) := fun _ _ _ h => nomatch h
theorem expand (a : Ash) : Statement (.expand a) := fun _ _ _ h => nomatch h
theorem mload (a : Ash) : Statement (.mload a) := fun _ _ _ h => nomatch h
theorem mstore (a : Ash) : Statement (.mstore a) := fun _ _ _ h => nomatch h
theorem mlogicAnd (a : Ash) : Statement (.mlogicAnd a) := fun _ _ _ h => nomatch h
theorem mlogicOr (a : Ash) : Statement (.mlogicOr a) := fun _ _ _ h => nomatch h
theorem mlogicXor (a : Ash) : Statement (.mlogicXor a) := fun _ _ _ h => nomatch h
theorem mlogicAndn (a : Ash) : Statement (.mlogicAndn a) := fun _ _ _ h => nomatch h
theorem mlogicNot (a : Ash) : Statement (.mlogicNot a) := fun _ _ _ h => nomatch h
theorem mlogicSet (a : Ash) : Statement (.mlogicSet a) := fun _ _ _ h => nomatch h
theorem mlogicClear (a : Ash) : Statement (.mlogicClear a) := fun _ _ _ h => nomatch h
theorem optupdSgd (a : Ash) : Statement (.optupdSgd a) := fun _ _ _ h => nomatch h
theorem optupdMomentum (a : Ash) : Statement (.optupdMomentum a) := fun _ _ _ h => nomatch h
theorem optupdNesterov (a : Ash) : Statement (.optupdNesterov a) := fun _ _ _ h => nomatch h
theorem optupdAdamw (a : Ash) : Statement (.optupdAdamw a) := fun _ _ _ h => nomatch h
theorem optupdLion (a : Ash) : Statement (.optupdLion a) := fun _ _ _ h => nomatch h
theorem optupdAdagrad (a : Ash) : Statement (.optupdAdagrad a) := fun _ _ _ h => nomatch h
theorem sload (a : Ash) : Statement (.sload a) := fun _ _ _ h => nomatch h
theorem sstore (a : Ash) : Statement (.sstore a) := fun _ _ _ h => nomatch h
theorem fill (a : Ash) : Statement (.fill a) := fun _ _ _ h => nomatch h
theorem copy (a : Ash) : Statement (.copy a) := fun _ _ _ h => nomatch h
theorem rpop (a : Ash) : Statement (.rpop a) := fun _ _ _ h => nomatch h
theorem wctlOpen (a : Ash) : Statement (.wctlOpen a) := fun _ _ _ h => nomatch h
theorem wctlClose (a : Ash) : Statement (.wctlClose a) := fun _ _ _ h => nomatch h
theorem wctlCloseOpen (a : Ash) : Statement (.wctlCloseOpen a) := fun _ _ _ h => nomatch h
theorem sloadRequest (a : Ash) (prog : Nat) : Statement (.sloadRequest a prog) := fun _ _ _ h => nomatch h
theorem sstoreDrain (a : Ash) (prog : Nat) : Statement (.sstoreDrain a prog) := fun _ _ _ h => nomatch h
theorem spadWriteback (a : Ash) : Statement (.spadWriteback a) := fun _ _ _ h => nomatch h
theorem scrubVisit (a : Ash) : Statement (.scrubVisit a) := fun _ _ _ h => nomatch h
theorem sendt (a : Ash) : Statement (.sendt a) := fun _ _ _ h => nomatch h
theorem sendi (a : Ash) : Statement (.sendi a) := fun _ _ _ h => nomatch h
theorem msend (a : Ash) : Statement (.msend a) := fun _ _ _ h => nomatch h
theorem wsend (a : Ash) : Statement (.wsend a) := fun _ _ _ h => nomatch h
theorem psigr (a : Ash) : Statement (.psigr a) := fun _ _ _ h => nomatch h
theorem connConnect (a : Ash) : Statement (.connConnect a) := fun _ _ _ h => nomatch h
theorem connDisconnect (a : Ash) : Statement (.connDisconnect a) := fun _ _ _ h => nomatch h
theorem ksend (a : Ash) : Statement (.ksend a) := fun _ _ _ h => nomatch h
theorem sendResume (a : Ash) : Statement (.sendResume a) := fun _ _ _ h => nomatch h
theorem connectRetry (a : Ash) : Statement (.connectRetry a) := fun _ _ _ h => nomatch h
theorem channelFlit (p : Packet) : Statement (.channelFlit p) := fun _ _ _ h => nomatch h
theorem connect (p : Packet) : Statement (.connect p) := fun _ _ _ h => nomatch h
theorem connReply (p : Packet) : Statement (.connReply p) := fun _ _ _ h => nomatch h
theorem rwrite (p : Packet) : Statement (.rwrite p) := fun _ _ _ h => nomatch h
theorem nak (p : Packet) : Statement (.nak p) := fun _ _ _ h => nomatch h
theorem cret (p : Packet) : Statement (.cret p) := fun _ _ _ h => nomatch h
theorem psigPacket (p : Packet) : Statement (.psigPacket p) := fun _ _ _ h => nomatch h
theorem fadd (p : Packet) : Statement (.fadd p) := fun _ _ _ h => nomatch h
theorem faddReply (p : Packet) : Statement (.faddReply p) := fun _ _ _ h => nomatch h
theorem stall (a : Ash) : Statement (.stall a) := fun _ _ _ h => nomatch h
theorem deadlockProbe (a : Ash) : Statement (.deadlockProbe a) := fun _ _ _ h => nomatch h
theorem fenceWrite (die n : Nat) (v : Word) : Statement (.fenceWrite die n v) := fun _ _ _ h => nomatch h
theorem fenceApply (die n : Nat) : Statement (.fenceApply die n) := fun _ _ _ h => nomatch h
theorem raccRead (die : Nat) : Statement (.raccRead die) := fun _ _ _ h => nomatch h
theorem raccWrite (die : Nat) : Statement (.raccWrite die) := fun _ _ _ h => nomatch h
theorem lintelUp (die : Nat) (side : Side) : Statement (.lintelUp die side) := fun _ _ _ h => nomatch h
theorem lintelDown (die : Nat) (side : Side) : Statement (.lintelDown die side) := fun _ _ _ h => nomatch h
theorem kreq (p : Packet) : Statement (.kreq p) := fun _ _ _ h => nomatch h
theorem kgrant (p : Packet) : Statement (.kgrant p) := fun _ _ _ h => nomatch h
theorem kreqRetry (a : Ash) : Statement (.kreqRetry a) := fun _ _ _ h => nomatch h
theorem keystoneAdmit (die : Nat) : Statement (.keystoneAdmit die) := fun _ _ _ h => nomatch h
theorem keystonePartial (p : Packet) : Statement (.keystonePartial p) := fun _ _ _ h => nomatch h
theorem ctxRelease (die ctx : Nat) : Statement (.ctxRelease die ctx) := fun _ _ _ h => nomatch h
theorem ctxReleaseRect (die fence : Nat) : Statement (.ctxReleaseRect die fence) := fun _ _ _ h => nomatch h
theorem releaseDrainEnd (die : Nat) : Statement (.releaseDrainEnd die) := fun _ _ _ h => nomatch h
theorem mreqRead (p : Packet) : Statement (.mreqRead p) := fun _ _ _ h => nomatch h
theorem mwrite (p : Packet) : Statement (.mwrite p) := fun _ _ _ h => nomatch h
theorem mreqLookup (p : Packet) : Statement (.mreqLookup p) := fun _ _ _ h => nomatch h
theorem mresp (p : Packet) : Statement (.mresp p) := fun _ _ _ h => nomatch h
theorem mack (p : Packet) : Statement (.mack p) := fun _ _ _ h => nomatch h
theorem patrolScrub (die : Nat) (ctl : Ctl) : Statement (.patrolScrub die ctl) := fun _ _ _ h => nomatch h
theorem decaySweep (die : Nat) : Statement (.decaySweep die) := fun _ _ _ h => nomatch h
theorem migrationStart (die : Nat) : Statement (.migrationStart die) := fun _ _ _ h => nomatch h
theorem migrationSwitch (die idx : Nat) : Statement (.migrationSwitch die idx) := fun _ _ _ h => nomatch h
theorem migrationAbort (die idx : Nat) : Statement (.migrationAbort die idx) := fun _ _ _ h => nomatch h
theorem frameReuse (die tier frame : Nat) : Statement (.frameReuse die tier frame) := fun _ _ _ h => nomatch h
theorem hodCmdGo (die : Nat) (v : Word) : Statement (.hodCmdGo die v) := fun _ _ _ h => nomatch h
theorem dimmEvacuate (die : Nat) : Statement (.dimmEvacuate die) := fun _ _ _ h => nomatch h
theorem dimmCancel (die : Nat) : Statement (.dimmCancel die) := fun _ _ _ h => nomatch h
theorem dimmReadmit (die : Nat) : Statement (.dimmReadmit die) := fun _ _ _ h => nomatch h
theorem dimmSafe (die : Nat) : Statement (.dimmSafe die) := fun _ _ _ h => nomatch h
theorem dimmPresent (die : Nat) (d : Dimm) : Statement (.dimmPresent die d) := fun _ _ _ h => nomatch h
theorem dimmRemoved (die : Nat) : Statement (.dimmRemoved die) := fun _ _ _ h => nomatch h
theorem dimmTrainingDone (die : Nat) (ok : Bool) : Statement (.dimmTrainingDone die ok) := fun _ _ _ h => nomatch h
theorem dimmInitDone (die : Nat) (ok : Bool) : Statement (.dimmInitDone die ok) := fun _ _ _ h => nomatch h
theorem dimmLost (die : Nat) : Statement (.dimmLost die) := fun _ _ _ h => nomatch h
theorem planeTrigger (p : Packet) : Statement (.planeTrigger p) := fun _ _ _ h => nomatch h
theorem planeDispatch (die : Nat) (ctl : Ctl) : Statement (.planeDispatch die ctl) := fun _ _ _ h => nomatch h
theorem planeWorkItem (die : Nat) (ctl : Ctl) : Statement (.planeWorkItem die ctl) := fun _ _ _ h => nomatch h
theorem planeItemAnswer (p : Packet) : Statement (.planeItemAnswer p) := fun _ _ _ h => nomatch h
theorem plnDescWrite (die : Nat) (ctl : Ctl) (off : Nat) (v : Word) :
    Statement (.plnDescWrite die ctl off v) := fun _ _ _ h => nomatch h
theorem loadJob (c : HostCmd) (img : LoadSource) : Statement (.loadJob c img) := fun _ _ _ h => nomatch h
theorem startJob (c : HostCmd) : Statement (.startJob c) := fun _ _ _ h => nomatch h
theorem stopJob (c : HostCmd) : Statement (.stopJob c) := fun _ _ _ h => nomatch h
theorem resumeJob (c : HostCmd) : Statement (.resumeJob c) := fun _ _ _ h => nomatch h
theorem unloadJob (c : HostCmd) : Statement (.unloadJob c) := fun _ _ _ h => nomatch h
theorem setPriority (c : HostCmd) : Statement (.setPriority c) := fun _ _ _ h => nomatch h
theorem slotAdd (c : HostCmd) : Statement (.slotAdd c) := fun _ _ _ h => nomatch h
theorem slotRemove (c : HostCmd) : Statement (.slotRemove c) := fun _ _ _ h => nomatch h
theorem slotDrainDone (job : Half) (bay slot : Nat) :
    Statement (.slotDrainDone job bay slot) := fun _ _ _ h => nomatch h
theorem publish (c : HostCmd) (tensors : List DeriveTensor) : Statement (.publish c tensors) := fun _ _ _ h => nomatch h
theorem dimmServiceBegin (c : HostCmd) : Statement (.dimmServiceBegin c) := fun _ _ _ h => nomatch h
theorem dimmServiceCancel (c : HostCmd) : Statement (.dimmServiceCancel c) := fun _ _ _ h => nomatch h
theorem dimmServiceReadmit (c : HostCmd) : Statement (.dimmServiceReadmit c) := fun _ _ _ h => nomatch h
theorem signal (c : HostCmd) : Statement (.signal c) := fun _ _ _ h => nomatch h
theorem queryJob (c : HostCmd) : Statement (.queryJob c) := fun _ _ _ h => nomatch h
theorem masonRestart (c : HostCmd) : Statement (.masonRestart c) := fun _ _ _ h => nomatch h
theorem masonReady : Statement .masonReady := fun _ _ _ h => nomatch h
theorem masWdog : Statement .masWdog := fun _ _ _ h => nomatch h
theorem hcqEnable (ring : Nat) (v : Word) : Statement (.hcqEnable ring v) := fun _ _ _ h => nomatch h
theorem mailboxEntry (die : Nat) : Statement (.mailboxEntry die) := fun _ _ _ h => nomatch h
theorem preempt (job : Half) : Statement (.preempt job) := fun _ _ _ h => nomatch h
theorem preemptTimeout (job : Half) : Statement (.preemptTimeout job) := fun _ _ _ h => nomatch h
theorem quantumExpiry : Statement .quantumExpiry := fun _ _ _ h => nomatch h
theorem runQueuePlace : Statement .runQueuePlace := fun _ _ _ h => nomatch h
theorem bayMove (job : Half) (bay member : Nat) : Statement (.bayMove job bay member) := fun _ _ _ h => nomatch h
theorem frameReceive (die lport : Nat) (frame : List Byte) (age : DWord) :
    Statement (.frameReceive die lport frame age) := fun _ _ _ h => nomatch h
theorem routeInject (die route : Nat) : Statement (.routeInject die route) := fun _ _ _ h => nomatch h
theorem staleDrop (die group : Nat) : Statement (.staleDrop die group) := fun _ _ _ h => nomatch h
theorem captureWrite (die : Nat) : Statement (.captureWrite die) := fun _ _ _ h => nomatch h
theorem captureCreditReturn (p : Packet) : Statement (.captureCreditReturn p) := fun _ _ _ h => nomatch h
theorem lkInsert (die : Nat) : Statement (.lkInsert die) := fun _ _ _ h => nomatch h
theorem lkDelete (die : Nat) : Statement (.lkDelete die) := fun _ _ _ h => nomatch h
theorem lkRead (die : Nat) : Statement (.lkRead die) := fun _ _ _ h => nomatch h
theorem puntPop (die : Nat) : Statement (.puntPop die) := fun _ _ _ h => nomatch h
theorem mtxGo (die : Nat) : Statement (.mtxGo die) := fun _ _ _ h => nomatch h
theorem mgmtTxStart (die : Nat) : Statement (.mgmtTxStart die) := fun _ _ _ h => nomatch h
theorem linkChange (die lport : Nat) (up : Bool) : Statement (.linkChange die lport up) := fun _ _ _ h => nomatch h
theorem rxIdle (die lport : Nat) : Statement (.rxIdle die lport) := fun _ _ _ h => nomatch h
theorem egressResult (die input : Nat) : Statement (.egressResult die input) := fun _ _ _ h => nomatch h
theorem twinWaitExpiry (die group : Nat) (seq : Word) :
    Statement (.twinWaitExpiry die group seq) := fun _ _ _ h => nomatch h
theorem unavailPeriod (die group : Nat) : Statement (.unavailPeriod die group) := fun _ _ _ h => nomatch h
theorem grpModeWrite (die group : Nat) (v : Word) : Statement (.grpModeWrite die group v) := fun _ _ _ h => nomatch h
theorem timSet (v : Word) : Statement (.timSet v) := fun _ _ _ h => nomatch h
theorem timAdj (v : Word) : Statement (.timAdj v) := fun _ _ _ h => nomatch h
theorem ppsPulse (width since : Nat) : Statement (.ppsPulse width since) := fun _ _ _ h => nomatch h
theorem ppsHoldover : Statement .ppsHoldover := fun _ _ _ h => nomatch h
theorem jhlFrameReceive (die port : Nat) (good : Bool) (corrected : List Nat) (f : JFrame) :
    Statement (.jhlFrameReceive die port good corrected f) := fun _ _ _ h => nomatch h
theorem replayTimeout (die port : Nat) : Statement (.replayTimeout die port) := fun _ _ _ h => nomatch h
theorem jhlLinkDown (die port : Nat) : Statement (.jhlLinkDown die port) := fun _ _ _ h => nomatch h
theorem jhlTrained (die port : Nat) (serial : DWord) (peer : BitVec 4) (expected : BitVec 12) :
    Statement (.jhlTrained die port serial peer expected) := fun _ _ _ h => nomatch h
theorem jhlFail (die port : Nat) : Statement (.jhlFail die port) := fun _ _ _ h => nomatch h
theorem jhlRetrain (die port : Nat) : Statement (.jhlRetrain die port) := fun _ _ _ h => nomatch h
theorem heartbeatSend (die port : Nat) : Statement (.heartbeatSend die port) := fun _ _ _ h => nomatch h
theorem jhlPeerLost (die port : Nat) : Statement (.jhlPeerLost die port) := fun _ _ _ h => nomatch h
theorem tunnelRwrite (p : Packet) : Statement (.tunnelRwrite p) := fun _ _ _ h => nomatch h
theorem tunnelPsig (p : Packet) : Statement (.tunnelPsig p) := fun _ _ _ h => nomatch h
theorem tunnelConnect (p : Packet) : Statement (.tunnelConnect p) := fun _ _ _ h => nomatch h
theorem tunnelChannelFlit (p : Packet) : Statement (.tunnelChannelFlit p) := fun _ _ _ h => nomatch h
theorem tunnelCret (die port : Nat) : Statement (.tunnelCret die port) := fun _ _ _ h => nomatch h
theorem jhlRemoteNak (p : Packet) : Statement (.jhlRemoteNak p) := fun _ _ _ h => nomatch h
theorem reduceTrigger (p : Packet) : Statement (.reduceTrigger p) := fun _ _ _ h => nomatch h
theorem reduceStart (die ctx : Nat) : Statement (.reduceStart die ctx) := fun _ _ _ h => nomatch h
theorem reduceSegment (die : Nat) : Statement (.reduceSegment die) := fun _ _ _ h => nomatch h
theorem bcastSegment (die : Nat) : Statement (.bcastSegment die) := fun _ _ _ h => nomatch h
theorem barReadTimeout (k : Nat) : Statement (.barReadTimeout k) := fun _ _ _ h => nomatch h
theorem apertureRead (k : Nat) (addr len : Nat) : Statement (.apertureRead k addr len) := fun _ _ _ h => nomatch h
theorem apertureWrite (k : Nat) (addr : Nat) (data : List Byte) :
    Statement (.apertureWrite k addr data) := fun _ _ _ h => nomatch h
theorem dmaNop (k q : Nat) (d : DmaDesc) : Statement (.dmaNop k q d) := fun _ _ _ h => nomatch h
theorem dmaHostToTier (k q : Nat) (d : DmaDesc) (data : List DWord) (err : Bool) :
    Statement (.dmaHostToTier k q d data err) := fun _ _ _ h => nomatch h
theorem dmaTierToHost (k q : Nat) (d : DmaDesc) (err : Bool) :
    Statement (.dmaTierToHost k q d err) := fun _ _ _ h => nomatch h
theorem dqEnable (k q : Nat) (v : Word) : Statement (.dqEnable k q v) := fun _ _ _ h => nomatch h
theorem apEntryWrite (k : Nat) (v : Word) : Statement (.apEntryWrite k v) := fun _ _ _ h => nomatch h
theorem makeHome (k : Nat) : Statement (.makeHome k) := fun _ _ _ h => nomatch h
theorem pcieLinkDown (k : Nat) (link : Bool) : Statement (.pcieLinkDown k link) := fun _ _ _ h => nomatch h
theorem flr (k : Nat) : Statement (.flr k) := fun _ _ _ h => nomatch h
theorem powerOn : Statement .powerOn := fun _ _ _ h => nomatch h
theorem configStart : Statement .configStart := fun _ _ _ h => nomatch h
theorem sectionTimeout (die : Nat) : Statement (.sectionTimeout die) := fun _ _ _ h => nomatch h
theorem fabricStart : Statement .fabricStart := fun _ _ _ h => nomatch h
theorem doneWait : Statement .doneWait := fun _ _ _ h => nomatch h
theorem rcvGo (img : List Byte) (readOk : Bool) : Statement (.rcvGo img readOk) := fun _ _ _ h => nomatch h
theorem releaseDone : Statement .releaseDone := fun _ _ _ h => nomatch h
theorem flashWrite (data : FlashData) (readOk deviceOk same : Bool) :
    Statement (.flashWrite data readOk deviceOk same) := fun _ _ _ h => nomatch h
theorem autostartLoad : Statement .autostartLoad := fun _ _ _ h => nomatch h
theorem regWrite (p : Packet) : Statement (.regWrite p) := fun _ _ _ h => nomatch h
theorem regRead (p : Packet) : Statement (.regRead p) := fun _ _ _ h => nomatch h
theorem readReply (p : Packet) : Statement (.readReply p) := fun _ _ _ h => nomatch h
theorem bcast (p : Packet) : Statement (.bcast p) := fun _ _ _ h => nomatch h
theorem bcastDone (p : Packet) : Statement (.bcastDone p) := fun _ _ _ h => nomatch h
theorem loadOrder (p : Packet) : Statement (.loadOrder p) := fun _ _ _ h => nomatch h
theorem loadDone (p : Packet) : Statement (.loadDone p) := fun _ _ _ h => nomatch h
theorem saveOrder (p : Packet) : Statement (.saveOrder p) := fun _ _ _ h => nomatch h
theorem saveDone (p : Packet) : Statement (.saveDone p) := fun _ _ _ h => nomatch h
theorem report (die : Nat) : Statement (.report die) := fun _ _ _ h => nomatch h
theorem masonMessage (p : Packet) : Statement (.masonMessage p) := fun _ _ _ h => nomatch h
theorem bayLoadStart (die : Nat) : Statement (.bayLoadStart die) := fun _ _ _ h => nomatch h
theorem memberRecovery (job : Half) (bay member : Nat) :
    Statement (.memberRecovery job bay member) := fun _ _ _ h => nomatch h
theorem survivorHeld (job : Half) (bay member : Nat) :
    Statement (.survivorHeld job bay member) := fun _ _ _ h => nomatch h
theorem bayRebuild (job : Half) (bay : Nat) : Statement (.bayRebuild job bay) := fun _ _ _ h => nomatch h
theorem courseShift (die row : Nat) : Statement (.courseShift die row) := fun _ _ _ h => nomatch h
theorem courseCmdRetire (die : Nat) (v : Word) : Statement (.courseCmdRetire die v) := fun _ _ _ h => nomatch h
theorem freezeSet (a : Ash) : Statement (.freezeSet a) := fun _ _ _ h => nomatch h
theorem freezeClear (a : Ash) : Statement (.freezeClear a) := fun _ _ _ h => nomatch h
theorem softReset (a : Ash) : Statement (.softReset a) := fun _ _ _ h => nomatch h
theorem pageSoftReset (p : Page) : Statement (.pageSoftReset p) := fun _ _ _ h => nomatch h
theorem resume (a : Ash) (mask : BitVec 4) : Statement (.resume a mask) := fun _ _ _ h => nomatch h
theorem flush (a : Ash) (mask : BitVec 4) : Statement (.flush a mask) := fun _ _ _ h => nomatch h
theorem perfClear (p : Page) : Statement (.perfClear p) := fun _ _ _ h => nomatch h
theorem dbgRead (a : Ash) : Statement (.dbgRead a) := fun _ _ _ h => nomatch h
theorem dbgWrite (a : Ash) : Statement (.dbgWrite a) := fun _ _ _ h => nomatch h
theorem jctrlRun (a : Ash) : Statement (.jctrlRun a) := fun _ _ _ h => nomatch h
theorem jctrlHalt (a : Ash) : Statement (.jctrlHalt a) := fun _ _ _ h => nomatch h
theorem jctrlStep (a : Ash) : Statement (.jctrlStep a) := fun _ _ _ h => nomatch h
theorem jbankArm (a : Ash) : Statement (.jbankArm a) := fun _ _ _ h => nomatch h
theorem jbankDisarm (a : Ash) : Statement (.jbankDisarm a) := fun _ _ _ h => nomatch h
theorem jregDataWrite (a : Ash) (v : Word) : Statement (.jregDataWrite a v) := fun _ _ _ h => nomatch h
theorem pegSigWrite (a : Ash) (v : Word) : Statement (.pegSigWrite a v) := fun _ _ _ h => nomatch h
theorem pegValueWrite (a : Ash) (peg : Nat) (v : Word) : Statement (.pegValueWrite a peg v) := fun _ _ _ h => nomatch h
theorem pegWatchdog (a : Ash) (waiter : Nat) : Statement (.pegWatchdog a waiter) := fun _ _ _ h => nomatch h
theorem winCfgWrite (a : Ash) (win : Nat) (v : Word) : Statement (.winCfgWrite a win v) := fun _ _ _ h => nomatch h
theorem winRingWrite (a : Ash) (win : Nat) (v : Word) : Statement (.winRingWrite a win v) := fun _ _ _ h => nomatch h
theorem doOpen (a : Ash) (win : Nat) : Statement (.doOpen a win) := fun _ _ _ h => nomatch h
theorem doClose (a : Ash) (win : Nat) : Statement (.doClose a win) := fun _ _ _ h => nomatch h
theorem epCfgWrite (a : Ash) (ep : Nat) (v : Word) : Statement (.epCfgWrite a ep v) := fun _ _ _ h => nomatch h
theorem intForce (p : Page) (v : Word) : Statement (.intForce p v) := fun _ _ _ h => nomatch h
theorem registerWrite (w : Writer) (bar2 : Bool) (addr size : Nat) (v : Word) :
    Statement (.registerWrite w bar2 addr size v) := fun _ _ _ h => nomatch h
theorem smbSetOffset (off : Word) : Statement (.smbSetOffset off) := fun _ _ _ h => nomatch h
theorem smbRead : Statement .smbRead := fun _ _ _ h => nomatch h
theorem smbWrite (v : Word) : Statement (.smbWrite v) := fun _ _ _ h => nomatch h
theorem bypass : Statement .bypass := fun _ _ _ h => nomatch h
theorem idcode : Statement .idcode := fun _ _ _ h => nomatch h
theorem samplePreload (v : Nat) : Statement (.samplePreload v) := fun _ _ _ h => nomatch h
theorem extest (v : Nat) : Statement (.extest v) := fun _ _ _ h => nomatch h
theorem trst : Statement .trst := fun _ _ _ h => nomatch h
theorem pinGlitch (pin : Nat) : Statement (.pinGlitch pin) := fun _ _ _ h => nomatch h
theorem pinChatter (pin : Nat) : Statement (.pinChatter pin) := fun _ _ _ h => nomatch h
theorem chatterClear (pin : Nat) (level : Bool) : Statement (.chatterClear pin level) := fun _ _ _ h => nomatch h
theorem pinStuck (pin : Nat) : Statement (.pinStuck pin) := fun _ _ _ h => nomatch h
theorem cageInsert (cage : Nat) : Statement (.cageInsert cage) := fun _ _ _ h => nomatch h
theorem cageRemove (cage : Nat) : Statement (.cageRemove cage) := fun _ _ _ h => nomatch h
theorem resetNAssert : Statement .resetNAssert := fun _ _ _ h => nomatch h
theorem resetNRelease : Statement .resetNRelease := fun _ _ _ h => nomatch h
theorem moduleReset : Statement .moduleReset := fun _ _ _ h => nomatch h
theorem fabricReset : Statement .fabricReset := fun _ _ _ h => nomatch h
theorem perstRelease (k : Nat) : Statement (.perstRelease k) := fun _ _ _ h => nomatch h
theorem feedLoss (feed dv : Nat) : Statement (.feedLoss feed dv) := fun _ _ _ h => nomatch h
theorem supplyCollapse : Statement .supplyCollapse := fun _ _ _ h => nomatch h
theorem converterRestart : Statement .converterRestart := fun _ _ _ h => nomatch h
theorem capTick (w : Nat) : Statement (.capTick w) := fun _ _ _ h => nomatch h
theorem trimChange (die : Nat) : Statement (.trimChange die) := fun _ _ _ h => nomatch h
theorem thermalSample (die temp sensor : Nat) : Statement (.thermalSample die temp sensor) := fun _ _ _ h => nomatch h
theorem thermalTrimTick (die : Nat) : Statement (.thermalTrimTick die) := fun _ _ _ h => nomatch h
theorem thermTrip (die : Nat) : Statement (.thermTrip die) := fun _ _ _ h => nomatch h
theorem cureRequest : Statement .cureRequest := fun _ _ _ h => nomatch h
theorem wakeNEdge : Statement .wakeNEdge := fun _ _ _ h => nomatch h
theorem wakeFrame (die lport : Nat) (frame : List Byte) :
    Statement (.wakeFrame die lport frame) := fun _ _ _ h => nomatch h
theorem hostWake : Statement .hostWake := fun _ _ _ h => nomatch h
theorem timerWake : Statement .timerWake := fun _ _ _ h => nomatch h
theorem fclkPllUnlock (die : Nat) : Statement (.fclkPllUnlock die) := fun _ _ _ h => nomatch h
theorem memclkPllUnlock (die : Nat) (ctl : Ctl) : Statement (.memclkPllUnlock die ctl) := fun _ _ _ h => nomatch h
theorem mclkPllUnlock : Statement .mclkPllUnlock := fun _ _ _ h => nomatch h
theorem tclkPllUnlock : Statement .tclkPllUnlock := fun _ _ _ h => nomatch h
theorem tclkRelock : Statement .tclkRelock := fun _ _ _ h => nomatch h
theorem pclkPllUnlock (k : Nat) : Statement (.pclkPllUnlock k) := fun _ _ _ h => nomatch h
theorem fuseAdvance (w : Writer) (target : Nat) : Statement (.fuseAdvance w target) := fun _ _ _ h => nomatch h
theorem fuseStep : Statement .fuseStep := fun _ _ _ h => nomatch h
theorem fuseRevoke (w : Writer) (slot : Nat) : Statement (.fuseRevoke w slot) := fun _ _ _ h => nomatch h
theorem registerRead (w : Writer) (bar2 : Bool) (addr size : Nat) :
    Statement (.registerRead w bar2 addr size) := fun _ _ _ h => nomatch h
theorem frameTransmit (die lport : Nat) : Statement (.frameTransmit die lport) := fun _ _ _ h => nomatch h
theorem tierTrainingDone : Statement .tierTrainingDone := fun _ _ _ h => nomatch h
theorem pcieLinkUp (k : Nat) (bme : Bool) (speed width : Nat) :
    Statement (.pcieLinkUp k bme speed width) := fun _ _ _ h => nomatch h
theorem pcieConfigRequest (k dw : Nat) : Statement (.pcieConfigRequest k dw) := fun _ _ _ h => nomatch h
theorem mclkRelock : Statement .mclkRelock := fun _ _ _ h => nomatch h
theorem feedReturn (feed dv : Nat) : Statement (.feedReturn feed dv) := fun _ _ _ h => nomatch h
theorem wakeNRelease : Statement .wakeNRelease := fun _ _ _ h => nomatch h
theorem slewComplete : Statement .slewComplete := fun _ _ _ h => nomatch h
theorem tripHoldExpiry : Statement .tripHoldExpiry := fun _ _ _ h => nomatch h
theorem smbClockLowTimeout : Statement .smbClockLowTimeout := fun _ _ _ h => nomatch h

end Sys2Proof.Laws.JoinerPlace
end

