-- ==== Sys2Proof/Machine/Flits.lean ====
section
/-! DEFINITION. Packets as flits: the 24-bit sideband, packet types and payloads (R310, R311, R346, R347, R379, R405, R603).

The machine moves packets whole. This file says how one is laid out in flits, where the spec lays it out; the fields of a
CONNECT, a CONN_REPLY, a CRET, a KREQ and a KGRANT, and the bodies of scaffold packets, it does not place (log 186). -/

namespace Sys2Proof.Machine

/-- PTYPE of a packet; a channel flit has none (R310, R311). -/
def ptypeOf (b : Body) : Option Nat :=
  match b with
  | .chan _ _ _ => none
  | .connect _ _ _ _ _ _ _ => some 1
  | .connReply _ _ _ _ _ _ _ => some 2
  | .rwrite _ => some 3
  | .nak _ _ => some 4
  | .cret _ _ => some 5
  | .psig _ _ _ => some 6
  | .fadd _ _ _ => some 7
  | .faddReply _ _ => some 8
  | .mread _ => some 9
  | .mlookup _ _ _ _ => some 9
  | .plane _ => some 9
  | .mresp _ _ _ _ _ _ => some 10
  | .mwrite _ _ _ _ => some 11
  | .mack _ _ => some 12
  | .kreq _ => some 13
  | .kgrant _ _ => some 14
  | .scaf _ _ => some 15

/-- SCMD of a scaffold packet (R603). -/
def scmdOf (c : Scaf) : Nat :=
  match c with
  | .regWrite _ _ => 1
  | .regRead _ => 2
  | .readReply _ _ => 3
  | .bcast _ _ _ => 4
  | .bcastDone _ => 5
  | .loadOrder _ _ _ _ _ => 6
  | .loadDone _ => 7
  | .saveOrder _ _ _ _ _ => 8
  | .saveDone _ => 9
  | .report _ _ _ => 10
  | .mason _ => 11

/-- TSB of a packet's head: 0 unless a table gives it a use (R310, R346, R347, R379, R405, R603). -/
def tsbOf (b : Body) : Nat :=
  match b with
  | .rwrite w => w.win.toNat + w.epoch.toNat * 2 ^ 4 + b2n w.acc * 2 ^ 12 + b2n w.recEnd * 2 ^ 13 + b2n w.pad * 2 ^ 14
  | .nak code _ => code.toNat
  | .psig peg inc _ => peg.toNat + inc.toNat * 2 ^ 6
  | .fadd peg _ _ => peg.toNat
  | .faddReply peg _ => peg.toNat
  | .mread r => r.tag.toNat
  | .mlookup tag _ _ _ => tag.toNat
  | .plane r => r.tag.toNat
  | .mresp tag _ _ _ _ _ => tag.toNat
  | .mwrite r _ _ _ => r.tag.toNat
  | .mack tag _ => tag.toNat
  | .scaf tag c => scmdOf c + tag.toNat * 2 ^ 8
  | _ => 0

/-- The sideband of flit k of a packet of n flits, or of a channel flit (R310). -/
def sideband (p : Packet) (n k : Nat) : BitVec 24 :=
  let vc := p.vc.toNat * 2 ^ 22
  match p.body with
  | .chan ep _ yx => BitVec.ofNat 24 (vc + 2 ^ 21 + p.dest.toNat * 2 ^ 4 + ep.toNat * 2 + b2n yx)
  | b =>
    BitVec.ofNat 24 (vc + (if k + 1 = n then 2 ^ 20 else 0) + b2n (yxFirst p) * 2 ^ 19
      + (if k = 0 then (ptypeOf b).getD 0 * 2 ^ 15 + tsbOf b else 0))

/-- Head payload words 2 and 3 where the spec lays them out. -/
def headWords (b : Body) : Option (Nat × Nat) :=
  let tier := fun (r : TierReq) (unit lookup : Bool) =>
    (r.off.toNat + r.nw.toNat * 2 ^ 21 + b2n unit * 2 ^ 30 + b2n lookup * 2 ^ 31, r.fd.toNat)
  match b with
  | .rwrite w => some (w.off.toNat + (w.words.length - 1) * 2 ^ 13, w.peg.toNat + w.inc.toNat * 2 ^ 6)
  | .nak _ _ => some (0, 0)
  | .psig _ _ job => some (job.toNat * 2 ^ 16, 0)
  | .fadd _ delta job => some (delta.toNat + job.toNat * 2 ^ 16, 0)
  | .faddReply _ old => some (old.toNat, 0)
  | .mread r => some (tier r false false)
  | .mlookup _ _ _ _ => some (2 ^ 31, 0)
  | .plane r => some (tier r true false)
  | .mresp _ status nw off fd _ => some (status.toNat + nw.toNat * 2 ^ 2 + off.toNat * 2 ^ 8, fd.toNat)
  | .mwrite r unit _ _ => some (tier r unit false)
  | .mack _ status => some (status.toNat, 0)
  | .scaf _ c =>
    (match c with
     | .regWrite off val => some (off.toNat, val.toNat)
     | .regRead off => some (off.toNat, 0)
     | .readReply err val => some (b2n err, val.toNat)
     | .bcastDone count => some (count % 2 ^ 32, 0)
     | .loadDone status => some (status.toNat, 0)
     | .saveDone status => some (status.toNat, 0)
     | .report word job event => some (word.toNat, job.toNat + b2n event * 2 ^ 16)
     | .bcast _ _ _ => some (0, 0)
     | .mason _ => some (0, 0)
     | .loadOrder _ _ _ _ _ => none
     | .saveOrder _ _ _ _ _ => none)
  | _ => none

/-- The payload of a head flit: DEST in [16:0], SRC in [48:32], then words 2 and 3. -/
def headPayload (p : Packet) (w : Nat × Nat) : BitVec 128 :=
  BitVec.ofNat 128 (p.dest.toNat + p.src.toNat * 2 ^ 32 + w.1 * 2 ^ 64 + w.2 * 2 ^ 96)

/-- Body flits of 64-bit words, two each, the first in [63:0]. -/
def bodyFlits : List DWord → List (BitVec 128)
  | [] => []
  | [a] => [a.zeroExtend 128]
  | a :: b :: r => (b ++ a) :: bodyFlits r

/-- The body words of a scaffold packet (R603). -/
def scafWords (c : Scaf) : List DWord :=
  let order := fun (fd : Word) (off : BitVec 21) (len : BitVec 17) (crc : Word) (context : Bool) =>
    [fd.setWidth 64, BitVec.ofNat 64 (off.toNat + len.toNat * 2 ^ 21), crc.setWidth 64, BitVec.ofNat 64 (b2n context)]
  match c with
  | .bcast rect off val => [rect.setWidth 64, off.setWidth 64, val.setWidth 64]
  | .loadOrder fd off len crc context => order fd off len crc context
  | .saveOrder fd off len crc context => order fd off len crc context
  | .mason body => body
  | _ => []

/-- The body flits of a packet: data words, of a lookup its three 32-bit words (R405), of a BCAST likewise (R603; DESIGN CHOICE, log
186). The four words of an order, the second of them 64 bits wide, have no place in the one body flit that R603 gives it. -/
def bodyOf (b : Body) : List (BitVec 128) :=
  match b with
  | .rwrite w => bodyFlits w.words
  | .mresp _ _ _ _ _ data => bodyFlits data
  | .mwrite _ _ data _ => bodyFlits data
  | .mlookup _ handle seg job => [BitVec.ofNat 128 (handle.toNat + seg.toNat * 2 ^ 32 + job.toNat * 2 ^ 64)]
  | .scaf _ (.bcast rect off val) => [BitVec.ofNat 128 (rect.toNat + off.toNat * 2 ^ 32 + val.toNat * 2 ^ 64)]
  | .scaf _ c => bodyFlits (match c with
    | .mason body => body
    | _ => [])
  | _ => []

/-- The flits of a packet, sideband and payload; none where the spec does not lay its head out. -/
def flitList (p : Packet) : Option (List (BitVec 24 × BitVec 128)) :=
  match p.body with
  | .chan _ payload _ => some [(sideband p 1 0, payload)]
  | b =>
    (headWords b).map fun w =>
      ((headPayload p w :: bodyOf b).zipIdx).map fun x => (sideband p (flitsOf b) x.2, x.1)

end Sys2Proof.Machine
end

