-- ==== Sys2Proof/Machine/Frames.lean ====
section
/-! DEFINITION. Jeham frames byte by byte (R547 to R549, R565): slots, the control slot and its CRC, the Reed-Solomon blocks of the
lanes.

The machine moves frames whole. This file says how one that it sends looks on the lanes, as far as Flits.lean lays its packets
out. -/

namespace Sys2Proof.Machine

/-! ### The code of a block (R547) -/

/-- A product in GF(2^8) with the field polynomial x^8 + x^4 + x^3 + x^2 + 1, over n bits of the second factor. -/
def gfMulBits (a b : Byte) : Nat → Byte
  | 0 => 0
  | n + 1 =>
    let r := gfMulBits a b n
    let twice := (r <<< 1) ^^^ (if r.getLsbD 7 then 0x1D else 0)
    twice ^^^ (if b.getLsbD (7 - n) then a else 0)

def gfMul (a b : Byte) : Byte := gfMulBits a b 8

/-- α^n, α being the element 2. -/
def gfPow : Nat → Byte
  | 0 => 1
  | n + 1 => gfMul (gfPow n) 2

/-- A polynomial, highest coefficient first, times (x − r). -/
def gfTimesRoot (p : List Byte) (r : Byte) : List Byte := ((p ++ [0]).zip (0 :: p)).map fun (x : Byte × Byte) => x.1 ^^^ gfMul x.2 r

/-- The generator polynomial with roots α^0 to α^23, without its leading 1. -/
def rsGenerator : List Byte := ((List.range 24).foldl (fun p i => gfTimesRoot p (gfPow i)) [1]).drop 1

/-- One data byte divided in: the remainder goes on. -/
def rsStep (rem : List Byte) (b : Byte) : List Byte :=
  match rem with
  | [] => []
  | h :: r => ((r ++ [0]).zip rsGenerator).map fun (x : Byte × Byte) => x.1 ^^^ gfMul (b ^^^ h) x.2

/-- The 24 check bytes of a block's 200. -/
def rsCheck (bs : List Byte) : List Byte := bs.foldl rsStep (List.replicate 24 0)

/-- A block on its lane: 200 bytes of the frame, then their check bytes (DESIGN CHOICE, log 217: the order within a block). -/
def rsBlock (bs : List Byte) : List Byte := bs ++ rsCheck bs

/-- A block, highest coefficient first, as a polynomial at x. -/
def gfEval (p : List Byte) (x : Byte) : Byte := p.foldl (fun v c => gfMul v x ^^^ c) 0

/-! ### Slots (R548, R549) -/

/-- A flit slot's 20 bytes: payload, sideband, header. -/
def slotBytes (flit : BitVec 24 × BitVec 128) (header : Nat) : List Byte :=
  toLe (flit.2.toNat + flit.1.toNat * 2 ^ 128 + header * 2 ^ 152) 20

/-- The flits of a reduction segment: a head with k, and 32 of data; their sideband says VC2 and which is the last (R310,
R562). -/
def segFlits (k : BitVec 24) (vals : List Word) : List (BitVec 24 × BitVec 128) :=
  let l := k.zeroExtend 128 :: bodyFlits (valueWords vals)
  l.zipIdx.map fun f => (BitVec.ofNat 24 (2 * 2 ^ 22 + (if f.2 + 1 = l.length then 2 ^ 20 else 0)), f.1)

/-- The slots of a unit; none where its packet has no layout. -/
def unitSlots (u : JUnit) : Option (List (List Byte)) :=
  match u with
  | .pkt p => (flitList p).map fun l => l.map fun f => slotBytes f (1 + b2n p.poisoned * 2)
  | .seg bcast ctx k vals poisoned =>
    some ((segFlits k vals).map fun f => slotBytes f (1 + b2n poisoned * 2 + 4 + b2n bcast * 8 + ctx.toNat * 16))

/-- The control slot with a CRC. -/
def controlSlot (f : JFrame) (crc : Nat) : List Byte :=
  let credit := (List.range 6).foldl (fun v l => v + f.credit.getD l 0 % 256 * 2 ^ (32 + 8 * l)) 0
  toLe (f.seq.toNat + f.ack.toNat * 2 ^ 12 + b2n f.nak * 2 ^ 24 + credit + f.lm.toNat * 2 ^ 80 + crc * 2 ^ 128) 20

/-- The bytes of a frame that carries the slots given: 39 flit slots at full rate and 9 in keep-alive, the rest empty; its CRC is
taken with its own bits 0. -/
def frameBytes (alive : Bool) (f : JFrame) (slots : List (List Byte)) : List Byte :=
  let body := ((slots ++ List.replicate (frameRoom alive - slots.length) (List.replicate 20 0)).take (frameRoom alive)).flatten
  controlSlot f (crc32 (controlSlot f 0 ++ body)).toNat ++ body

/-- The blocks of a frame, lane i carrying bytes 200i to 200i + 199; in keep-alive lane 0 alone (R547, R565). -/
def frameBlocks (bs : List Byte) : List (List Byte) := (List.range (bs.length / 200)).map fun i => rsBlock (slice bs (200 * i) 200)

/-- What a frame puts on the lanes; none where a packet of it has no layout. The slots of a unit that takes several frames fill
them in order, so that a frame shows the last of its units' slots. -/
def frameOnLanes (alive : Bool) (f : JFrame) : Option (List (List Byte)) :=
  ((f.units.map unitSlots).foldr (fun u r => u.bind fun x => r.map fun y => x ++ y) (some [])).map fun l =>
    let full := (l.length - 1) / frameRoom alive * frameRoom alive
    frameBlocks (frameBytes alive f (l.drop full))

end Sys2Proof.Machine
end

