-- ==== Sys2Proof/Tests/Slice0.lean ====
section
/-! SUPPORT. Tests: the smoke test of well-formedness, the words of Joiner instructions written out, one step on small states,
and for every statement a concrete state that meets its hypotheses. -/

namespace Sys2Proof.Tests

open Sys2Proof Sys2Proof.Machine

set_option Elab.async false

/-! ### Small states -/

def a0 : Ash := ⟨0, 0, 0⟩

/-- Die 0 runs; all else is as at reset. -/
def onState : State := State.reset.setDie 0 { Die.reset with run := .running }

def withAsh (f : Ashlar → Ashlar) : State := onState.onAsh a0 f

def withDie (f : Die → Die) : State := onState.setDie 0 (f (onState.die 0))

/-- A Joiner that runs with w at its first instruction. -/
def jWith (w : Word) : Joiner := { Joiner.reset with state := .running, bank0 := halfStore [] 0 w.toNat }

def withJ (f : Joiner → Joiner) : State := onState.onJ a0 f

def withWord (w : Word) : State := withJ fun _ => jWith w

/-- What an outcome leaves, where it is a next state. -/
def after (o : Host.Outcome State Fault Refusal) : Option State :=
  match o with
  | .next t => some t
  | _ => none

/-- Register r of the Joiner after a command. -/
def regAfter (c : Instr) (s : State) (r : Reg) : Option Word := (after (exec c s)).map fun t => t.jr a0 r

/-! ### Ill-formed commands, one for each check of WellFormed -/

/-- Words that differ at an illegal command: off the part, or not of its row's shape. -/
theorem test_refuses_ashlar : (Instr.tend ⟨8, 0, 0⟩).wellFormed .td8At110 = false := by decide
theorem test_refuses_column : (Instr.tend ⟨0, 128, 0⟩).wellFormed .td8At110 = false := by decide
theorem test_refuses_row : (Instr.tend ⟨0, 0, 98⟩).wellFormed .td8At110 = false := by decide
theorem test_refuses_die : (Instr.keystoneAdmit 2).wellFormed .td2At110 = false := by decide
theorem test_refuses_port : (Instr.heartbeatSend 0 2).wellFormed .td8At110 = false := by decide
theorem test_refuses_body : (Instr.cret ⟨0, 0, 0, false, .psig 0 1 0⟩).wellFormed .td8At110 = false := by decide +kernel
theorem test_refuses_window : (Instr.doOpen a0 16).wellFormed .td8At110 = false := by decide
theorem test_refuses_peg : (Instr.pegValueWrite a0 48 0).wellFormed .td8At110 = false := by decide
theorem test_accepts_tend : (Instr.tend a0).wellFormed .td8At110 = true := by decide

/-! ### Joiner words, bit by bit from R100 to R103 -/

/-- ADD s3, s1, s2: opcode 000000, rd 00011, rs1 00001, rs2 00010, FUNC 00000000000. -/
theorem test_word_add : joinerInstr a0 0b000000_00011_00001_00010_00000000000 = some (.add a0 3 1 2) := by decide +kernel
/-- ADDI s5, s6, −1: opcode 000001, rd 00101, rs1 00110, an immediate of sixteen ones. -/
theorem test_word_addi : joinerInstr a0 0b000001_00101_00110_1111111111111111 = some (.addi a0 5 6 0xFFFF) := by decide +kernel
/-- SW s2 at s1 + 4: opcode 010101 with the register that is stored in [25:21]. -/
theorem test_word_sw : joinerInstr a0 0b010101_00010_00001_0000000000000100 = some (.sw a0 2 1 4) := by decide +kernel
/-- BNE s1, s2, −2: opcode 011001. -/
theorem test_word_bne : joinerInstr a0 0b011001_00001_00010_1111111111111110 = some (.bne a0 1 2 0xFFFE) := by decide +kernel
/-- TEND: opcode 111001 and every other bit 0; one reserved bit set is no instruction. -/
theorem test_word_tend : joinerInstr a0 0xE4000000 = some (.tend a0) ∧ joinerInstr a0 0xE4000001 = none := by decide +kernel

/-! ### The Joiner -/

def turnB (s : State) (a : Ash) (w : Word) (uses : List Reg) (c : Bool) : Bool :=
  ashExists s a && !dieAsleep s a.die && decide (fetch (s.ash a) = .word w c) && jLegal w &&
    decide ((s.ash a).joiner.held = []) && !(uses.any fun r => (s.ash a).joiner.isPending r)

theorem turn_of {s : State} {a : Ash} {w : Word} {uses : List Reg} {c : Bool} (h : turnB s a w uses c = true) :
    Turn s a w uses c := by
  simp only [turnB, Bool.and_eq_true, decide_eq_true_eq, Bool.not_eq_true'] at h
  obtain ⟨⟨⟨⟨⟨h1, h2⟩, h3⟩, h4⟩, h5⟩, h6⟩ := h
  exact ⟨⟨h1, h2⟩, h3, h4, h5, h6⟩

/-- The functions of the ALU group, and the words of the other instructions of JoinerAlu, each at its turn. -/
theorem witness_JoinerAlu :
    (∀ f ∈ [0, 1, 2, 3, 4, 5, 6, 7, 8, 9, 0xA, 0xB, 0xC, 0xD, 0x10, 0x11, 0x12, 0x20, 0x21, 0x22],
      Turn (withWord (encAlu f 3 1 2)) a0 (encAlu f 3 1 2) [3, 1, 2] false) ∧
    (∀ o ∈ [1, 2, 3, 4, 8, 9], Turn (withWord (encI o 3 1 0x8000)) a0 (encI o 3 1 0x8000) [3, 1] false) ∧
    (∀ o ∈ [5, 6, 7], Turn (withWord (encShift o 3 1 31)) a0 (encShift o 3 1 31) [3, 1] false) ∧
    Turn (withWord (encI 0xA 3 0 7)) a0 (encI 0xA 3 0 7) [3] false ∧
    (∀ f ∈ [0x23, 0x24], Turn (withWord (encAlu f 0 1 0)) a0 (encAlu f 0 1 0) [0, 1] false) := by
  refine ⟨fun f h => turn_of ?_, fun f h => turn_of ?_, fun f h => turn_of ?_, turn_of ?_, fun f h => turn_of ?_⟩
  all_goals first | (revert f; decide +kernel) | decide +kernel

/-- R102: a result wraps to 32 bits, signed and unsigned comparisons differ, a shift takes the low five bits. -/
theorem test_alu :
    let s := withJ fun _ => { jWith (encAlu 0 3 1 2) with regs := (Vector.replicate 32 0xFFFFFFFF).set 2 33 }
    let go := fun (f : Nat) (c : Instr) => regAfter c (s.onJ a0 fun j => { j with bank0 := halfStore [] 0 (encAlu f 3 1 2).toNat }) 3
    go 0 (.add a0 3 1 2) = some 32 ∧ go 5 (.sll a0 3 1 2) = some 0xFFFFFFFE ∧ go 8 (.slt a0 3 1 2) = some 1 ∧
    go 9 (.sltu a0 3 1 2) = some 0 ∧ go 0x12 (.mulh a0 3 1 2) = some 0xFFFFFFFF ∧ go 0x11 (.mulhu a0 3 1 2) = some 32 := by
  decide +kernel

/-- R97: register 0 takes no write, and the instruction retires all the same. -/
theorem test_register_zero :
    (after (exec (.addi a0 0 0 5) (withWord (encI 1 0 0 5)))).map (fun t => ((t.ash a0).joiner.rd 0, (t.ash a0).joiner.pc)) =
      some (0, 1) := by decide +kernel

/-- A turn whose word was corrected. -/
theorem witness_corrected :
    Turn (withJ fun _ => { jWith 0 with bank0 := halfPut [] 0 (2 ^ 5) (checkBits cols39 0) }) a0 0 [0, 0, 0] true :=
  turn_of (by decide +kernel)

/-- Loads and stores at 0 and at the end of data memory, of a clean half and of a corrected one. -/
theorem witness_JoinerMemory :
    (∀ o ∈ [0x10, 0x11, 0x12, 0x13, 0x14], Turn (withWord (encI o 3 1 0xFFC)) a0 (encI o 3 1 0xFFC) [3, 1] false) ∧
    (∀ o ∈ [0x15, 0x16, 0x17], Turn (withWord (encI o 3 1 0)) a0 (encI o 3 1 0) [1, 3] false) ∧
    (let m := halfPut [] 1023 (7 + 2 ^ 5) (checkBits cols39 7)
     readHalf m (0xFFC / 4) = (7, .corrected 7) ∧ readHalf m 0 = (0, .clean)) := by
  refine ⟨fun f h => turn_of ?_, fun f h => turn_of ?_, by decide +kernel⟩
  all_goals (revert f; decide +kernel)

/-- R105: a byte of a half comes from its place, and SB changes that byte alone. -/
theorem test_bytes :
    let s := withJ fun _ => { jWith (encI 0x13 3 0 6) with dmem := halfStore [] 1 0x11F32233 }
    regAfter (.lb a0 3 0 6) s 3 = some 0xFFFFFFF3 ∧
    (after (exec (.sb a0 0 0 6) (s.onJ a0 fun j => { j with bank0 := halfStore [] 0 (encI 0x17 0 0 6).toNat }))).map
      (fun t => readHalf (t.ash a0).joiner.dmem 1) = some (0x11002233, .clean) := by decide +kernel

/-- Addresses past data memory, unaligned inside it, and of a half that cannot be corrected. -/
theorem witness_JoinerMemoryTraps :
    let s := withJ fun _ => { jWith (encI 0x10 3 0 0x1000) with dmem := halfPut [] 0 3 0 }
    Turn s a0 (encI 0x10 3 0 0x1000) [3, 0] false ∧ 0xFFF < ((0 : Word) + (0x1000 : Half).signExtend 32).toNat ∧
    Turn (withWord (encI 0x10 3 0 2)) a0 (encI 0x10 3 0 2) [3, 0] false ∧
    Turn (withWord (encI 0x16 3 0 1)) a0 (encI 0x16 3 0 1) [0, 3] false ∧
    (readHalf (s.ash a0).joiner.dmem (0 / 4)).2 = .ue := by
  refine ⟨turn_of ?_, ?_, turn_of ?_, turn_of ?_, ?_⟩ <;> decide +kernel

/-- A branch taken and not taken, to a legal target and out of range; JAL and JALR; an endpoint empty and not. -/
theorem witness_JoinerFlow :
    Turn (withWord (encI 0x18 1 2 1)) a0 (encI 0x18 1 2 1) [1, 2] false ∧
    Turn (withWord (encI 0x19 1 2 0xFFFF)) a0 (encI 0x19 1 2 0xFFFF) [1, 2] false ∧
    2047 < ((0 : BitVec 11).zeroExtend 32 + (0xFFFF : Half).signExtend 32 : Word).toNat ∧
    Turn (withWord (encBep 0x32 7 2047)) a0 (encBep 0x32 7 2047) [] false ∧
    Turn (withWord (encI 0x1E 3 0 2047)) a0 (encI 0x1E 3 0 2047) [3] false ∧
    Turn (withWord (encI 0x1F 3 1 2)) a0 (encI 0x1F 3 1 2) [3, 1] false := by
  refine ⟨turn_of ?_, turn_of ?_, ?_, turn_of ?_, turn_of ?_, turn_of ?_⟩ <;> decide +kernel

/-- R106: JAL links and jumps; JALR reads its base before it writes rd. -/
theorem test_jumps :
    (after (exec (.jal a0 3 5) (withWord (encI 0x1E 3 0 5)))).map (fun t => ((t.ash a0).joiner.rd 3, (t.ash a0).joiner.pc)) =
      some (1, 5) ∧
    (after (exec (.jalr a0 3 3 5) (withJ fun _ => { jWith (encI 0x1F 3 3 5) with regs := Vector.replicate 32 9 }))).map
      (fun t => ((t.ash a0).joiner.rd 3, (t.ash a0).joiner.pc)) = some (1, 14) := by decide +kernel

/-- A loop level at its end with passes left, with none left, and an instruction at the end of memory. -/
def loopState (lidx : Word) : State := withJ fun j => { j with
  depth := 1, pc := 4, loops := j.loops.set 0 ⟨2, 4, 3, lidx, false, 0, 0⟩ }

theorem witness_JoinerSequence :
    (let j := ((loopState 0).ash a0).joiner
     j.handler = false ∧ j.depth = 1 ∧ j.pc = (j.loops[ix 4 0 (by decide)]).lend) ∧
    (let j := ((loopState 2).ash a0).joiner
     j.handler = false ∧ j.depth = 1 ∧ j.pc = (j.loops[ix 4 0 (by decide)]).lend) ∧
    (0 : Word).toNat + 1 < (3 : Word).toNat ∧ (3 : Word).toNat ≤ (2 : Word).toNat + 1 ∧
    (let j := ((withJ fun j => { j with pc := 2047 }).ash a0).joiner
     (loopEnd j.loops j.pc.toNat j.depth).2.2 = none ∧ (loopEnd j.loops j.pc.toNat j.depth).1 = j.loops ∧
       (loopEnd j.loops j.pc.toNat j.depth).2.1 = j.depth) := by decide +kernel

/-- A loop of one instruction with a count and one without, and a tile loop, inside an enclosing body. -/
def loopWord (w : Word) (r : Word) : State := withJ fun _ => { jWith w with
  regs := Vector.replicate 32 r, depth := 1, loops := (Vector.replicate 4 LoopLevel.reset).set 0 ⟨0, 2047, 1, 0, false, 0, 0⟩ }

theorem witness_JoinerLoops :
    Turn (loopWord (encLoop 1 1) 0) a0 (encLoop 1 1) [1] false ∧ Turn (loopWord (encLoopi 4095 0) 0) a0 (encLoopi 4095 0) [] false ∧
    Turn (loopWord (encLoopt 1 2 3 31 255) 5) a0 (encLoopt 1 2 3 31 255) [2, 1] false ∧
    (let j := ((loopWord 0 0).ash a0).joiner
     j.depth < 4 ∧ j.handler = false ∧ (j.loops[0]).lstart.toNat ≤ 1 ∧ 256 ≤ (j.loops[0]).lend.toNat) := by
  refine ⟨turn_of ?_, turn_of ?_, turn_of ?_, ?_⟩ <;> decide +kernel

/-- Each peg instruction at its turn: a wait that holds and one that does not, and a fetch-and-add whose destination is there. -/
theorem witness_JoinerPegs :
    Turn (withWord (encPsig 255 47)) a0 (encPsig 255 47) [] false ∧
    Turn (withWord (encPwait 1 2 47)) a0 (encPwait 1 2 47) [1] false ∧
    passes ((withWord 0).ash a0) [⟨false, 47, 0, false⟩] 4 = true ∧
    passes ((withWord 0).ash a0) [⟨true, 47, 0x7FFF, false⟩] 4 = false ∧ engCandidates ((withWord 0).ash a0) = [] ∧
    Turn (withWord (encPtest 3 1 0)) a0 (encPtest 3 1 0) [3, 1] false ∧ Turn (withWord (encPrd 3 0)) a0 (encPrd 3 0) [3] false ∧
    Turn (withWord (encR 0x2C 3 1 2 0)) a0 (encR 0x2C 3 1 2 0) [3, 1, 2] false ∧
    targetBroken 0 = false ∧ targetDest ((withWord 0).ash a0) 0 = some 0 ∧ destMissing (withWord 0) 0 = false := by
  refine ⟨turn_of ?_, turn_of ?_, ?_, ?_, ?_, turn_of ?_, turn_of ?_, turn_of ?_, ?_, ?_, ?_⟩ <;> decide +kernel

/-- An endpoint that holds a flit, and one that is empty. -/
theorem witness_JoinerReads :
    let full := fun (w : Word) => (withWord w).onAsh a0 fun v => v.setEp 7 { v.ep 7 with valid := true, flits := [5] }
    Turn (full (encEprd 3 3 7)) a0 (encEprd 3 3 7) [3] false ∧ 0 < epCount ((full 0).ash a0) 7 ∧
    epCount ((withWord 0).ash a0) 7 = 0 ∧ Turn (full (encEppop 7)) a0 (encEppop 7) [] false ∧
    ringInUse ((full 0).ash a0) 7 = false ∧ Turn (withWord (encCsrr 3 0x30)) a0 (encCsrr 3 0x30) [3] false ∧
    (csrRead (withWord 0) a0 0x30).isSome = true ∧ csrRead (withWord 0) a0 0xFF = none ∧
    Turn (withWord (encCsrw 1 0x13)) a0 (encCsrw 1 0x13) [1] false := by
  refine ⟨turn_of ?_, ?_, ?_, turn_of ?_, ?_, turn_of ?_, ?_, ?_, turn_of ?_⟩ <;> decide +kernel

/-- R124: word 1 of a flit is its bits 63 to 32. -/
theorem test_eprd :
    regAfter (.eprd a0 3 1 7) ((withWord (encEprd 3 1 7)).onAsh a0 fun v =>
      v.setEp 7 { v.ep 7 with valid := true, tlen := 1, flits := [0x0123456789ABCDEF00000000] }) 3 = some 0x89ABCDEF := by decide +kernel

theorem witness_JoinerEnds :
    Turn (withWord (encI 0x38 0 1 0)) a0 (encI 0x38 0 1 0) [1] false ∧ ((withWord 0).ash a0).joiner.msg = none ∧
    Turn (withWord (encFence 15)) a0 (encFence 15) [] false ∧ ((withWord 0).ash a0).joiner.pending = 0 ∧
    queuesEmpty ((withWord 0).ash a0) 15 = true ∧ Turn (withWord (encI 0x39 0 0 0)) a0 (encI 0x39 0 0 0) [] false ∧
    Turn (withWord (encI 0x3D 0 0 0)) a0 (encI 0x3D 0 0 0) [] false ∧
    Turn (withJ fun _ => { jWith (encI 0x3B 0 0 0) with handler := true }) a0 (encI 0x3B 0 0 0) [] false ∧
    Turn (withWord (encI 0x3A 0 0 7)) a0 (encI 0x3A 0 0 7) [] false := by
  refine ⟨turn_of ?_, ?_, turn_of ?_, ?_, ?_, turn_of ?_, turn_of ?_, turn_of ?_, turn_of ?_⟩ <;> decide +kernel

/-- R135: a trap outside the handler goes to HENTRY; inside it, it is a double trap and the Joiner stops. -/
theorem test_traps :
    let go := fun (h : Bool) => (after (exec (.trap a0 7) (withJ fun _ => { jWith (encI 0x3A 0 0 7) with
      handler := h, handlerEn := true, hentry := 9 }))).map fun t =>
        ((t.ash a0).joiner.pc, (t.ash a0).joiner.lastCause, (t.ash a0).joiner.double, (t.ash a0).joiner.state)
    go false = some (9, 0x0C, false, .running) ∧ go true = some (0, 0x0C, true, .faulted) := by decide +kernel

/-- A breakpoint at PC, an ended task at its boundary, a result on its way, and the handler's three cases. -/
theorem witness_JoinerEvents :
    AshRuns onState a0 ∧
    fetch ((withJ fun _ => { jWith 0 with bkpt0En := true }).ash a0) = .breakpoint ∧
    (let v := (withJ fun j => { j with state := .ended, taskEnd := true, armed := true }).ash a0
     v.joiner.taskEnd = true ∧ v.joiner.state = .ended ∧ atBoundary v = true ∧ v.frozen = false) ∧
    ((withJ fun j => { j with results := [(31, 5)] }).ash a0).joiner.results = [(31, 5)] := by
  refine ⟨⟨?_, ?_⟩, ?_, ?_, ?_⟩ <;> decide +kernel

/-- R129: an armed swap is taken at the task boundary, and PC goes to ENTRY. -/
theorem test_boundary :
    (after (exec (.taskBoundary a0) (withJ fun j => { j with
      state := .ended, taskEnd := true, armed := true, entry := 77 }))).map
      (fun t => ((t.ash a0).joiner.active, (t.ash a0).joiner.armed, (t.ash a0).joiner.pc)) = some (true, false, 77) := by
  decide +kernel

/-- An illegal word under a Joiner's PC, and a legal one that is another's. -/
theorem witness_JoinerIllegal :
    joinerWord (.tend a0) = some (a0, 0xE4000000) ∧ fetch ((withWord 0xE4000001).ash a0) = .word 0xE4000001 false ∧
    joinerInstr a0 0xE4000001 = none ∧ joinerInstr a0 0 = some (.add a0 0 0 0) ∧
    ((withWord 0).ash a0).joiner.held = [] := by decide +kernel

/-- R103: an illegal word traps with cause ILLEGAL, and the trap value is the word. -/
theorem test_illegal :
    (after (exec (.tend a0) (withWord 0xE4000001))).map (fun t => ((t.ash a0).joiner.lastCause, (t.ash a0).joiner.lastVal)) =
      some (1, 0xE4000001) := by decide +kernel


/-- An instruction whose source is pending, and one that overwrites a pending register. -/
theorem witness_Blocked :
    let s := withJ fun _ => { jWith (encAlu 0 3 1 2) with pending := 0x2 }
    Blocked s a0 (encAlu 0 3 1 2) [3, 1, 2] false ∧
    Blocked (s.onJ a0 fun j => { j with bank0 := halfStore [] 0 (encI 0xA 1 0 7).toNat }) a0 (encI 0xA 1 0 7) [1] false := by
  refine ⟨⟨⟨?_, ?_⟩, ?_, ?_, ?_, ?_⟩, ⟨⟨?_, ?_⟩, ?_, ?_, ?_, ?_⟩⟩ <;> decide +kernel

/-- The words of the forms that trap or stall, each at its turn. -/
theorem witness_JoinerForms_words :
    Turn (withWord (encPsig 0 5)) a0 (encPsig 0 5) [] false ∧
    Turn (withWord (encPwait 1 1 0)) a0 (encPwait 1 1 0) [1] false ∧
    Turn (withWord (encPwait 1 2 48)) a0 (encPwait 1 2 48) [1] false ∧
    Turn (withWord (encPtest 3 1 63)) a0 (encPtest 3 1 63) [3, 1] false ∧
    Turn (withWord (encPrd 3 48)) a0 (encPrd 3 48) [3] false ∧
    Turn (withWord (encR 0x2C 3 1 2 0)) a0 (encR 0x2C 3 1 2 0) [3, 1, 2] false ∧
    Turn (withWord (encLoop 1 0)) a0 (encLoop 1 0) [1] false ∧
    Turn (withWord (encLoopi 4095 255)) a0 (encLoopi 4095 255) [] false ∧
    Turn (withWord (encLoopt 2 1 3 31 1)) a0 (encLoopt 2 1 3 31 1) [1, 2] false := by
  refine ⟨turn_of ?_, turn_of ?_, turn_of ?_, turn_of ?_, turn_of ?_, turn_of ?_, turn_of ?_, turn_of ?_, turn_of ?_⟩ <;>
    decide +kernel

theorem witness_JoinerForms_ends :
    Turn (withJ fun _ => { jWith (encFence 0) with pending := 2 }) a0 (encFence 0) [] false ∧
    Turn (withJ fun _ => { jWith (encI 0x39 0 0 0) with pending := 2 }) a0 (encI 0x39 0 0 0) [] false ∧
    Turn (withWord (encI 0x3B 0 0 0)) a0 (encI 0x3B 0 0 0) [] false ∧
    Turn (withWord (encIssue 0 1 0 0 0)) a0 (encIssue 0 1 0 0 0) [1] false ∧
    Turn (withWord (encEppop 7)) a0 (encEppop 7) [] false := by
  refine ⟨turn_of ?_, turn_of ?_, turn_of ?_, turn_of ?_, turn_of ?_⟩ <;> decide +kernel

/-- Targets broken, beyond the grid, and absent; a ring whose head is in use. -/
theorem witness_JoinerForms_states :
    targetBroken 0x01000000 = true ∧ targetBroken 0x00FFFFC0 = true ∧ targetBroken (0x800000 + 511 * 64) = false ∧
    targetDest ((withJ fun j => { j with bayX := 1 }).ash a0) (0x800000 + 511 * 64) = none ∧
    (let s := { onState with part := .td2At110 }
     targetBroken (95 * 2 ^ 15) = false ∧ targetBroken (96 * 2 ^ 15) = false ∧
     (targetDest (s.ash a0) (96 * 2 ^ 15)).map (destMissing s) = some true ∧
     (targetDest (s.ash a0) (95 * 2 ^ 15)).map (destMissing s) = some false) := by decide +kernel

/-- R111, R113: without a context the address does not matter; with one it must be a multiple of 16 in data memory. -/
theorem test_issue_form :
    let go := fun (valid : Bool) (x : Word) =>
      let s := (withJ fun _ => { jWith (encIssue 0 1 0 0 0) with regs := (Vector.replicate 32 0).set 1 x }).onAsh a0 fun v =>
        { v with ctxValid := valid }
      (after (exec (.issue a0 0 1 0 0 0) s)).map fun t => ((t.ash a0).joiner.tcause, (t.ash a0).joiner.tval)
    go false 8 = some (9, 0) ∧ go true 8 = some (10, 8) ∧ go true 0x1000 = some (10, 0x1000) := by decide +kernel
/-! ### The engines -/

/-- An instruction of an engine without waits, signals or ranges. -/
def engI (e : Engine) (op : Nat) (body : List Word) (phase : Phase) : EngInstr where
  engine := e
  seq := 0
  order := 0
  words := [BitVec.ofNat 32 ((engineIx e).val * 2 ^ 30 + op * 2 ^ 24 + body.length * 2 ^ 20), 0, 0, 0, 0, 0] ++ body
  pc := 0
  phase := phase
  faulted := false
  reads := []
  write := none
  slotA := 0
  slotB := 0
  slotW := 0
  popped := false
  sent := 0
  wait := .none
  early := false

def withEng (i : EngInstr) : State := withAsh fun v => v.setEng i.engine ⟨[i], false⟩

/-- The instruction ready at the head of its queue. -/
def readyI (e : Engine) (op : Nat) (body : List Word) : EngInstr := engI e op body .ready

theorem ash_on : AshRuns onState a0 := ⟨by decide +kernel, by decide +kernel⟩

theorem die_on : DieRuns onState 0 := ⟨by decide +kernel, by decide +kernel⟩

def startsB (s : State) (a : Ash) (i : EngInstr) : Bool :=
  ashExists s a && !dieAsleep s a.die && decide (headOf (s.ash a) i.engine = some i) &&
    !ringOverflow (s.ash a) i && decide (startable (s.ash a) i.engine = some i)

theorem starts_of {s : State} {a : Ash} {e : Engine} {i : EngInstr} (hi : i.engine = e) (h : startsB s a i = true) :
    Starts s a e i := by
  subst hi
  simp only [startsB, Bool.and_eq_true, decide_eq_true_eq, Bool.not_eq_true'] at h
  exact ⟨⟨h.1.1.1.1, h.1.1.1.2⟩, rfl, h.1.1.2, h.1.2, h.2⟩

/-- An ISSUE of a descriptor of eight clean words at address 0, whose word 6 it replaces; the same words decoded, and words
that fail their check; instructions whose reads and writes are done. -/
def issueState : State := (withJ fun _ => { jWith (encIssue 2 1 6 0 0) with
  dmem := (List.range 8).foldl (fun m k => halfStore m k (if k = 0 then 0x47200000 else 0)) [] }).onAsh a0 fun v =>
    { v with ctxValid := true }

theorem witness_EngineIssue :
    Turn issueState a0 (encIssue 2 1 6 0 0) [1, 2] false ∧
    (let v := issueState.ash a0
     v.transfer = none ∧ v.ctxValid = true ∧ 6 + bits (readHalf v.joiner.dmem 0).1 20 4 = 8 ∧
     (∀ k < 8, (readHalf v.joiner.dmem k).2 = .clean) ∧ engDepth v .vector < 4) ∧
    decodeFault (onState.ash a0) (engI .stream 6 [0, 0] .transferred) = some evDescFault ∧
    (issueState.ash a0).joiner.isPending (rdstOf .vector (List.replicate 8 0)) = false ∧
    (let v := { issueState.ash a0 with engines := (issueState.ash a0).engines.map fun e =>
       { e with queue := List.replicate 4 (engI .vector 6 [0, 0] .ready) } }
     4 ≤ engDepth v .vector) := by
  refine ⟨turn_of ?_, ?_, ?_, ?_, ?_⟩ <;> decide +kernel

theorem witness_EngineRetires :
    let i := engI .vector 0x26 [0, 0, 0, 0] .executed
    findSeq ((withEng i).ash a0) 0 (readsDone ((withEng i).ash a0)) = some i ∧
    findSeq ((withEng i).ash a0) 0 (workDone ((withEng i).ash a0)) = some i ∧ ((withEng i).ash a0).frozen = false := by
  decide +kernel

/-- Every opcode and FUNC of the vector engine starts with no range and no wait. -/
theorem witness_VectorEngine :
    (∀ c ∈ vecCommands a0, Starts (withEng (readyI .vector c.2.1 [BitVec.ofNat 32 (c.2.2 * 16), 0, 0, 0])) a0 .vector
      (readyI .vector c.2.1 [BitVec.ofNat 32 (c.2.2 * 16), 0, 0, 0])) ∧
    (∀ c ∈ optCommands a0, Starts (withEng (readyI .vector 0x30 [BitVec.ofNat 32 c.2, 0, 0, 0])) a0 .vector
      (readyI .vector 0x30 [BitVec.ofNat 32 c.2, 0, 0, 0])) := by
  refine ⟨fun c h => starts_of rfl ?_, fun c h => starts_of rfl ?_⟩ <;> (revert c; decide +kernel)

/-- R240: MLOGIC SET fills its mask buffer. -/
theorem test_mlogic_set :
    (after (exec (.mlogicSet a0) (withEng (readyI .vector 0x26 [0x20050, 0, 0, 0])))).map
      (fun t => ((t.ash a0).masks[2], (t.ash a0).masks[0])) = some (BitVec.allOnes 4096, 0) := by decide +kernel

theorem witness_MatrixTurns :
    (∀ op ∈ [1, 2, 3], Starts (withEng (readyI .matrix op [0, 0, 0, 0, 0, 0])) a0 .matrix (readyI .matrix op [0, 0, 0, 0, 0, 0])) ∧
    preloaded ((withEng (readyI .matrix 1 [0, 0, 0, 0, 0, 0])).ash a0) = none ∧
    (∀ op ∈ [1, 2], let i := engI .matrix op [0, 0, 0, 0, 0, 0] .running
      preloaded ((withAsh fun v => { v.setEng .matrix ⟨[i], false⟩ with shadowFor := some 0 }).ash a0) = some i) := by
  refine ⟨fun c h => starts_of rfl ?_, ?_, fun c h => ?_⟩
  · revert c; decide +kernel
  · decide +kernel
  · revert c; decide +kernel

theorem witness_StreamTurns :
    (∀ op ∈ [1, 2, 3, 4, 5], Starts (withEng (readyI .stream op [0, 0, 0, 0])) a0 .stream (readyI .stream op [0, 0, 0, 0])) ∧
    (∀ act ∈ [0, 1, 2], Starts (withEng (readyI .stream 6 [BitVec.ofNat 32 (act * 16), 0])) a0 .stream
      (readyI .stream 6 [BitVec.ofNat 32 (act * 16), 0])) := by
  refine ⟨fun c h => starts_of rfl ?_, fun c h => starts_of rfl ?_⟩ <;> (revert c; decide +kernel)

theorem witness_StreamPrograms :
    (∀ op ∈ [1, 2], let i := engI .stream op [0, 0, 0, 0] .running
      progInstr ((withAsh fun v => (v.setEng .stream ⟨[i], false⟩).setProg 3 { Prog.reset with running := true }).ash a0) 3 =
        some i) ∧
    (onState.setReg (.ash a0) 0x3A8 1).fld (.ash a0) 0x3A8 0 1 = 1 ∧
    ((withAsh fun v => { v with writeBacks := [⟨0, 0⟩] }).ash a0).writeBacks = [⟨0, 0⟩] := by decide +kernel

/-- A connected tuple channel. -/
def withChan (i : EngInstr) : State := withAsh fun v => (v.setEng i.engine ⟨[i], false⟩).setChan 0
  { OutEntry.reset with valid := true, conn := true, credit := 4, size := 4 }

theorem witness_SendTurns :
    (∀ op ∈ [1, 2, 3, 4, 5, 6], Starts (withChan (readyI .send op [0, 0])) a0 .send (readyI .send op [0, 0])) ∧
    (let s := withChan (readyI .send 1 [0, 0])
     let t := startedState s a0 (readyI .send 1 [0, 0])
     chanRefusal t ((t.ash a0).chan 0) = none ∧ targetDest (t.ash a0) 0 = some 0 ∧ destMissing t 0 = false ∧
       portBusy (signalEarly t a0 (readyI .send 1 [0, 0])) a0 1 = false) ∧
    Starts (withEng { readyI .send 7 [0, 0, 0] with wait := .grant }) a0 .send { readyI .send 7 [0, 0, 0] with wait := .grant } := by
  refine ⟨fun c h => starts_of rfl ?_, ?_, starts_of rfl ?_⟩
  · revert c; decide +kernel
  · decide +kernel
  · decide +kernel

theorem witness_SendResumes :
    (∀ w ∈ [SendWait.connRetry, .grantRetry, .grant], let i := { engI .send 6 [0, 0] .running with wait := w }
      sendRunning ((withEng i).ash a0) = some i) ∧
    (inFlight ((withEng { engI .send 7 [0, 0, 0] .running with wait := .grantRetry }).ash a0)).find?
      (fun i => decide (i.engine = .send ∧ i.wait = .grantRetry)) =
        some { engI .send 7 [0, 0, 0] .running with wait := .grantRetry } ∧
    (((withEng (readyI .send 7 [0, 0, 0])).ash a0).eng .send).queue.head? = some (readyI .send 7 [0, 0, 0]) := by decide +kernel

/-! ### Ashlars -/

theorem witness_AshlarStops :
    (withAsh fun v => { v with frozen := true }).ash a0 = { Ashlar.reset with frozen := true } ∧
    (.matrix : Engine) ∈ enginesOf 1 ∧ (.vector : Engine) ∉ enginesOf 1 := by decide +kernel

/-- R383: the end of a freeze adds what came for a peg meanwhile. -/
theorem test_deferred :
    (after (exec (.freezeClear a0) (withAsh fun v => { v.setPeg 47 { Peg.reset with value := 1, deferred := 3 } with
      frozen := true }))).map (fun t => ((t.ash a0).frozen, ((t.ash a0).peg 47).value)) = some (false, 4) := by decide +kernel

theorem witness_AshlarControls :
    (onState.ash a0).joiner.state = .halted ∧ ((withJ fun j => { j with state := .ended }).ash a0).joiner.state = .ended ∧
    ((withJ fun j => { j with state := .stalled }).ash a0).joiner.state = .stalled ∧
    (((withJ fun j => { j with state := .stalled }).onAsh a0 fun v => { v with won := [4] }).ash a0).won.contains 4 = true ∧
    jRuns (onState.ash a0) = false ∧ onState.fld (.ash a0) 0x134 0 9 < 32 ∧ contextWritable (onState.ash a0) = true ∧
    (let s := withJ fun _ => { jWith (encPwait 0 2 0) with state := .stalled, stall := 3 }
     onState.fld (.ash a0) 0x700 31 1 = 1 ∧ dogWait s a0 4 = none) ∧
    (let s := withJ fun _ => { jWith (encPwait 1 1 0) with
       state := .stalled, stall := 3, regs := (Vector.replicate 32 0).set 1 1 }
     dogWait s a0 4 = some ⟨true, 0, 1, false⟩) := by decide +kernel

theorem witness_AshlarContext :
    (onState.setReg (.ash a0) 0xB0 (0x40000000 + 511)).fld (.ash a0) 0xB0 30 2 = 1 ∧
    (onState.setReg (.ash a0) 0xB0 (0x8000 + 6143)).fld (.ash a0) 0xB0 0 13 = 6143 ∧
    (onState.setReg (.ash a0) 0xB0 (0x8000 + 6143)).fld (.ash a0) 0xB0 14 2 = 2 ∧
    contextWritable (onState.ash a0) = true ∧
    windowBroken (onState.ash a0) 15 { Window.reset with base := 6143, size := 1, valid := true } = false ∧
    (let o := { Window.reset with base := 0, size := 6, kind := 1, valid := true, ring := 0x23 }
     o.isRing = true ∧ windowBroken ((withAsh fun v => v.setWin 15 o).ash a0) 15 o = false) := by decide +kernel

/-- R76: a soft reset leaves a register of the Joiner and clears a peg. -/
theorem test_soft_reset :
    (after (exec (.softReset a0) (withAsh fun v => { v.setPeg 3 { Peg.reset with value := 9 } with
      joiner := v.joiner.wr 5 7 }))).map (fun t => (t.jr a0 5, ((t.ash a0).peg 3).value)) = some (7, 0) := by decide +kernel

theorem witness_Plumb :
    (let x := slotSample (onState.slot 0 32) (List.replicate 16 0) 0
     x.alarmCount = 0) ∧ 20 ≤ satPlace .nan ∧ (onState.slot 0 32).satEn = false ∧
    bit ((withAsh fun v => { v with sdBlock := 1 }).ash a0).sdBlock 0 = true ∧
    (onState.fld (.plb 0) 0x40 0 6 = 0 ∧ (onState.slot 0 0).busy = false) ∧
    ((withDie fun d => { d with plb := d.plb.set 0 { PlumbSlot.reset with busy := true } }).slot 0 0).busy = true := by
  decide +kernel

/-! ### Packets -/

/-- A packet between ashlars of die 0. -/
def pkt (b : Body) : Packet := ⟨1, 0, 0, false, b⟩

/-- A packet to a block of die 0. -/
def bpkt (code inst : Nat) (b : Body) : Packet := ⟨1, blockDest code 0 inst, 0, false, b⟩

def arrivesB (s : State) (p : Packet) (a : Ash) : Bool :=
  decide (ashOf s p.dest = some a) && routeUp s p && !fencedOff s p && !p.poisoned

theorem arrives_of {s : State} {p : Packet} {a : Ash} (h : arrivesB s p a = true) : Arrives s p a := by
  simp only [arrivesB, Bool.and_eq_true, decide_eq_true_eq, Bool.not_eq_true'] at h
  exact ⟨h.1.1.1, h.1.1.2, h.1.2, h.2⟩

def blockB (s : State) (p : Packet) (code die inst : Nat) : Bool :=
  isBlock p.dest && decide (blockOf p.dest = (code, die, inst)) && blockExists s.part p.dest && routeUp s p && !p.poisoned

theorem block_of {s : State} {p : Packet} {code die inst : Nat} (h : blockB s p code die inst = true) :
    ArrivesBlock s p code die inst := by
  simp only [blockB, Bool.and_eq_true, decide_eq_true_eq, Bool.not_eq_true'] at h
  exact ⟨h.1.1.1.1, h.1.1.1.2, h.1.1.2, h.1.2, h.2⟩

theorem witness_PacketArrivals :
    let s := withAsh fun v => v.setEp 7 { Endpoint.reset with valid := true, flits := [1, 2, 3] }
    Arrives s (pkt (.chan 7 5 false)) a0 ∧ ((s.ash a0).ep 7).flits.length < 4 ∧ ((s.ash a0).ep 7).valid = true := by
  refine ⟨arrives_of ?_, ?_, ?_⟩ <;> decide +kernel

/-- R334: a credit that would pass 0xFFFF stays there. -/
theorem test_cret :
    (after (exec (.cret (pkt (.cret 15 0xFFFF))) (withAsh fun v => v.setChan 15 { OutEntry.reset with credit := 2 }))).map
      (fun t => ((t.ash a0).chan 15).credit) = some 0xFFFF := by decide +kernel

theorem witness_PacketEffects :
    let s := withAsh fun v => { v with
      windows := v.windows.set 0 { Window.reset with
        base := 6142, size := 2, valid := true, remote := true, isOpen := true, epoch := 3 }
      ctxValid := true
      job := 9
      joiner := { v.joiner with fadds := [(31, 47, 0, 0)] } }
    Arrives s (pkt (.psig 47 255 9)) a0 ∧ (s.ash a0).ctxValid = true ∧ (s.ash a0).job = 9 ∧ (s.ash a0).frozen = false ∧
    (onState.ash a0).ctxValid = false ∧ findFadd (s.ash a0).joiner 47 0 = some (31, 47, 0, 0) ∧
    isBlock 0 = false ∧ ((s.ash a0).win 0).isOpen = true ∧ ((s.ash a0).win 0).epoch = 3 ∧ ((s.ash a0).win 0).kind = 0 := by
  refine ⟨arrives_of ?_, ?_⟩ <;> decide +kernel

theorem witness_PacketConnections :
    let s := withAsh fun v => { v.setEp 7 { Endpoint.reset with valid := true, dyn := true } with ctxValid := true, job := 9 }
    Arrives s (pkt (.connect false 0 7 0 0 15 9)) a0 ∧ connectStatus (s.ash a0) 0 7 0 0 9 = 0 ∧
    (let i := { engI .send 6 [15, 0] .running with wait := .connReply }
     sendRunning ((withEng i).ash a0) = some i ∧ bits (iw i 6) 0 4 = 15) := by
  refine ⟨arrives_of ?_, ?_⟩ <;> decide +kernel

theorem witness_FencesAndRouters :
    (let s := withDie fun d => { d with fences := d.fences.set 15 0x81010000 }
     let p : Packet := ⟨1, 0, 8 * 256, false, .psig 0 1 0⟩
     ashOf s p.dest = some a0 ∧ routeUp s p = true ∧ fencedOff s p = true) ∧
    raccTarget (onState.setReg (.mor 0) 0x60 (0x3F * 16384)) 0 = some (a0, 0x3F) ∧
    raccTarget (onState.setReg (.mor 0) 0x60 (0x43 * 16384)) 0 = none ∧ raccLate onState 0 = false ∧
    (retiredRows onState 0).contains 0 = false := by decide +kernel

/-! ### The Keystone and the tiers -/

def keyReq0 : KeyReq := ⟨0, 0, 2, 4, ⟨0, 0, false, 0, 0, 0⟩, 0, 0⟩

theorem witness_Keystone :
    let s := withDie fun d => { d with key := { d.key with ctxs := d.key.ctxs.set 63 { KeyCtx.reset with
      used := true, granted := true, req := { keyReq0 with nelem := 8, tag := 5 } } } }
    ArrivesBlock s (bpkt 7 0 (.kreq keyReq0)) 7 0 0 ∧ ArrivesBlock s (bpkt 7 63 (.chan 0 0 false)) 7 0 63 ∧
    ctxOf (s.key 0) keyReq0 = none ∧ freeCtx (s.key 0) = some 0 ∧
    (s.kctx 0 63).used = true ∧ (s.kctx 0 63).granted = true ∧ s.fld (.key 0) 0x64 12 1 = 0 ∧
    (keyCombine (s.kctx 0 63) [0, 0, 0, 0]).got < 8 := by
  refine ⟨block_of ?_, block_of ?_, ?_⟩ <;> decide +kernel

/-- R174: 1.0 + 2.0 = 3.0, in rank order. -/
theorem test_keystone_sum :
    (keyCombine { KeyCtx.reset with next := 1, sums := [0x3F800000], req := { keyReq0 with nelem := 1 } } [0x40000000]).sums =
      [0x40400000] := by decide +kernel

theorem witness_TierRequests :
    let s := withDie fun d => { d with frames := [((1, 0), { Frame.reset with gen := 5, use := .seg 9 1 0 })] }
    let p := bpkt 0 0 (.mread ⟨0, 0, 0, 0⟩)
    tierTarget s p = some (0, .stack0) ∧ routeUp s p = true ∧ p.poisoned = false := by decide +kernel

def stackB (s : State) (p : Packet) (die : Nat) (c : Ctl) : Bool :=
  decide (tierTarget s p = some (die, c)) && routeUp s p && !p.poisoned

theorem tier_of {s : State} {p : Packet} {die : Nat} {c : Ctl} (h : stackB s p die c = true) : ArrivesTier s p die c := by
  simp only [stackB, Bool.and_eq_true, decide_eq_true_eq, Bool.not_eq_true'] at h
  exact ⟨h.1.1, h.1.2, h.2⟩

/-- Tables that give job 0 the tensor 0 of one segment in frame 0 of tier 1: the directory in frame 100, the tensor table in
frame 101, the segment list in frame 102. -/
def tabState : State :=
  (((((onState.setReg (.hod 0) 0x4C (mkFd 1 0 100 0)).tierStore 0 1 100 0 (mkFd 1 0 101 0).toNat).tierStore 0 1 101 0
    (2 ^ 21 + 2 ^ 40 + 3 * 2 ^ 42 + 2 ^ 63)).tierStore 0 1 101 1 (mkFd 1 0 102 0).toNat).tierStore 0 1 102 0
    (mkFd 1 0 0 0).toNat).setFrame 0 1 0 { Frame.reset with use := .seg 0 0 0 }

theorem witness_TierRequests2 :
    requestStatus tabState 0 .stack0 (mkFd 1 0 0 0) (2 ^ 21 - 512) 64 = .refused ∧
    requestStatus tabState 0 .stack0 (mkFd 1 0 0 0) 0 64 = .ok ∧
    (tabState.lookup 0 0 0 0).1 = .found (mkFd 1 0 0 0) ∧
    blockB tabState (bpkt 3 0 (.mlookup 0 0 0 0)) 3 0 0 = true := by decide +kernel

/-- R404: a lookup beyond the tensor finds nothing. -/
theorem test_lookup_beyond : (tabState.lookup 0 0 0 1).1 = .missing := by decide +kernel

theorem witness_TierMoves :
    (onState.setReg (ctlPage 0 .dimm) 0x44 1).fld (ctlPage 0 .dimm) 0x44 0 1 = 1 ∧ 0 < patrolWords onState 0 .stack1 ∧
    (∀ t ∈ [1, 3], ((onState.setFrame 0 t 9 { Frame.reset with use := .cooling }).frame 0 t 9).use = .cooling) ∧
    (let s := withDie fun d => { d with hod := { d.hod with moves := [⟨0, 0, false⟩] } }
     (s.die 0).hod.moves[0]? = some ⟨0, 0, false⟩) ∧
    (let s := tabState.setReg (.hod 0) 0x50 (mkFd 1 0 0 0)
     s.fld (.hod 0) 0x54 7 1 = 0 ∧ fdTier (s.reg (.hod 0) 0x50) = 1 ∧
       (s.frame 0 1 0).use = .seg 0 0 0 ∧ s.tensor 0 0 0 = .found ⟨2 ^ 21, 1, 3, false, 0, mkFd 1 0 102 0⟩ ∧
       freeFrames s 0 1 ≠ 0) := by decide +kernel

/-- A move from tier 1 to tier 2 that HOD.CMD orders, or a die's own choice. -/
theorem witness_MigrationStart :
    let s := (tabState.setReg (.hod 0) 0x50 (mkFd 1 0 0 0)).onMas fun m => { m with ready := true }
    (after (exec (.hodCmdGo 0 0x42) s)).map (fun t => (t.fld (.hod 0) 0x54 7 1, (nextMove t 0).isSome, roomFor t 1 0 2 0,
      decide ((t.die 0).hod.moves.length < maxMig t 0) && t.mas.ready)) = some (1, true, true, true) := by decide +kernel

def dimm0 : Dimm := ⟨1, false, false, 5600, true⟩

def socketState (v : Svc) : State := withDie fun d => { d with socket := { d.socket with svc := v, dimm := some dimm0 } }

theorem witness_SocketService :
    Watched onState 0 ∧ (onState.die 0).socket.svc = .absent ∧
    (∀ v ∈ [Svc.present, .training, .init, .online, .evacuating, .empty, .safe], ((socketState v).die 0).socket.svc = v ∧
      ((socketState v).die 0).socket.dimm = some dimm0) ∧ dimm0.ecc = true ∧ dimm0.cap ≠ 0 := by
  refine ⟨⟨?_, ?_, ?_⟩, ?_⟩ <;> decide +kernel

/-- R432: a DIMM slower than 5,600 is rejected. -/
theorem test_slow_dimm :
    (after (exec (.dimmTrainingDone 0 true) (withDie fun d => { d with socket := { d.socket with
      svc := .training, dimm := some { dimm0 with rate := 5599 } } }))).map (fun t => (t.die 0).socket.svc) = some .rejected := by
  decide +kernel

def planeState : State := withDie fun d => { d with planes := d.planes.set 0 { Plane.reset with
  descs := Plane.reset.descs.set 47 { PlaneDesc.reset with regs := PlaneDesc.reset.regs.set 0 0x80000009 }
  queue := [47]
  items := [bpkt 0 0 (.plane ⟨0, 511, 47, 0⟩)] } }

theorem witness_Planes :
    (let p := bpkt 0 0 (.psig 47 255 9)
     tierTarget planeState p = some (0, .stack0) ∧ routeUp planeState p = true) ∧
    (planeState.plane 0 .stack0).queue ≠ [] ∧ (511 : BitVec 21).toNat % 512 ≠ 0 ∧
    (planeState.plane 0 .stack0).busy 0 = false ∧ descBad PlaneDesc.reset = false := by decide +kernel

/-! ### Ports -/

/-- Port 0 of die 0 in use with four logical ports, all up, and its ingress and egress enabled. -/
def ethState : State :=
  ((((onState.setReg (.eth 0) 0x08 1).setReg (.eth 0) 0x40 3).setReg (.eth 0) 0x44 0xF).setReg (.ing 0) 0x08 1).setReg
    (.egr 0) 0x08 1

def zeroFrame : List Byte := List.replicate 60 0 ++ toLe (crc32 (List.replicate 60 0)).toNat 4

theorem witness_IngressEvents :
    let s := ethState.onIng 0 fun g => { g with
      table := [⟨0, 5, 7⟩], groups := g.groups.set 7 { en := true, nflit := 3, queue := [], ovf := false, delivered := none } }
    lportUp s 0 3 = true ∧ macDrop zeroFrame = none ∧ macDrop [] = some 3 ∧ enabled s (.ing 0) = true ∧
    parseFrame s 0 3 (zeroFrame.take 60) = .ok ⟨0, [], [], false⟩ ∧ rangeFail s 0 ⟨0, [], [], false⟩ = none ∧
    (s.die 0).ing.find (lookupKey s 0 []) = some ⟨0, 5, 7⟩ ∧ mayCrowd s 0 zeroFrame = false ∧
    mayCrowd ((s.setReg (.eth 0) 0x44 1).setReg (.eth 0) 0x40 0x41) 0 zeroFrame = true := by decide +kernel

/-- R36, R507, R515: the event of a frame carries its slot, its number and the time base when it began. -/
theorem test_frame :
    let s := ethState.onIng 0 fun g => { g with
      table := [⟨0, 5, 7⟩], groups := g.groups.set 7 { en := true, nflit := 3, queue := [], ovf := false, delivered := none } }
    (after (exec (.frameReceive 0 3 zeroFrame 77) { s with time := 100 })).map (fun t => (((t.die 0).ing.group 7).queue.map fun e =>
      (e.slot, e.seq, e.stamp), (t.die 0).ing.seq)) = some ([(5, 0, 23)], 1) := by decide +kernel

def event0 : Event := ⟨5, 9, 77, [], []⟩

theorem witness_EventRoutes :
    let s := ethState.onIng 0 fun g => { g with
      groups := g.groups.set 0 { en := true, nflit := 3, queue := [event0], ovf := false, delivered := none }
      routes := g.routes.set 15 ⟨{ OutEntry.reset with valid := true, credit := 4 }, 0, 0, 0, true⟩ }
    let g := (s.die 0).ing
    (g.group 0).queue.find? (fun q => !q.taken.contains 15) = some event0 ∧ (g.route 15).live = true ∧
    1 + (g.group 0).nflit.toNat ≤ (g.route 15).entry.credit.toNat ∧ destMissing s 0 = false ∧
    (g.group 0).queue.find? (fun q => q.taken.isEmpty) = some event0 ∧
    (s.setReg (.ing 0) 0x2C 1).reg (.ing 0) 0x2C ≠ 0 := by decide +kernel

theorem witness_Capture :
    ((ethState.onIng 0 fun g => { g with capWait := [[1]] }).die 0).ing.capWait = [[1]] ∧
    blockB ethState (bpkt 4 0 (.psig 0 255 9)) 4 0 0 = true ∧ (9 : Half).toNat ≠ ethState.fld (.ing 0) 0xA4 0 16 := by
  decide +kernel

theorem witness_IngressTables :
    let s := ethState.onIng 0 fun g => { g with table := [⟨0, 5, 7⟩] }
    lkKey s 0 = 0 ∧ (s.die 0).ing.find 0 = some ⟨0, 5, 7⟩ ∧ (ethState.die 0).ing.find 0 = none ∧
    lportOn s 0 3 = true ∧ (ethState.setReg (.eth 0) 0x44 0).fld (.eth 0) 0x44 3 1 = 0 ∧
    (s.setReg (.eth 0) 0x2C 1).reg (.eth 0) 0x2C ≠ 0 ∧ (s.die 0).eth.idle[lpIx 3] = false := by decide +kernel

/-- R513: four entries of one bucket fill it. -/
theorem test_insert :
    (after (exec (.lkInsert 0) ((ethState.setReg (.ing 0) 0x70 0x70005)))).map (fun t => (t.die 0).ing.find 0) =
      some (some ⟨0, 5, 7⟩) := by decide +kernel

theorem witness_EgressFrames :
    let s := (ethState.onEgr 0 fun g => { g with
      ins := g.ins.set 7 ⟨true, 0, 0, 0, 0, 0, true, [(0x100, 1), (0, 1)]⟩
      groups := g.groups.set 7 { (g.groups[7]) with written := 0x00010010 } }).onEth 0 fun e => { e with
        tx := e.tx.set 3 [[1]], mgmt := some ⟨0, [1], false⟩ }
    ((s.die 0).egr.input 7).flits.length = 2 ∧ ((s.die 0).egr.group 7).mode = modeSilent ∧
    bit ((s.die 0).egr.group 7).written 4 = true ∧ bits ((s.die 0).egr.group 7).written 16 16 ≠ 0 ∧
    (s.die 0).eth.tx[lpIx 3] = [[1]] ∧ lportOn s 0 3 = true ∧ (s.die 0).eth.tx[lpIx 0] = [] ∧
    bits ((s.setReg (.eth 0) 0x6C 2032).reg (.eth 0) 0x6C) 0 14 = 2032 := by decide +kernel

theorem witness_EgressCompare :
    let e : EgrEvent := ⟨9, modeCompare, 0, .waiting, [⟨1, 0, [5]⟩]⟩
    let s := ethState.onEgr 0 fun g => { g with groups := g.groups.set 7 { (g.groups[7]) with events := [e] } }
    e.mode = modeCompare ∧ e.phase = .waiting ∧ ((s.die 0).egr.group 7).events.find? (fun y => y.seq == e.seq) = some e ∧
    bit ((s.die 0).egr.group 7).written 11 = false := by decide +kernel

theorem witness_TimeBase :
    powered State.reset = true ∧ (1000 : Word).toInt.natAbs ≤ 1000 ∧ 1000 < (1001 : Word).toInt.natAbs ∧
    (-1000 : Word).toInt.natAbs = 1000 ∧ (State.reset.setFld .tim 0x60 4 1 1).fld .tim 0x60 4 1 = 1 ∧
    State.reset.fld .pin 0x68 2 1 = 0 ∧ (State.reset.setFld .tim 0x60 1 1 0).fld .tim 0x60 1 1 = 0 := by decide +kernel

/-- R536: a slew of −1,000 ns ends 1,023,000 ns later: the time does not run backward. -/
theorem test_slew :
    ((after (exec (.timAdj (-1000)) { State.reset with time := 5000 })).bind fun t => (after (exec .slewComplete t)).map
      fun u => u.time) = some 1028000 := by decide +kernel

def linkOn : State := onState.setReg (.jhl 0 1) 0x40 2

def frame0 : JFrame := ⟨0, 0, false, [0, 0, 0, 0, 0, 0], 0, []⟩

/-- R547: the blocks of the code are the multiples of its generator, whose roots are α^0 to α^23. -/
theorem test_rs_roots : ((List.range 24).all fun i => gfEval (rsBlock [1, 0, 0x80, 0xFF]) (gfPow i) == 0) = true ∧
    gfMul 0x80 2 = 0x1D := by decide +kernel

/-- R549: SEQ, ACK, NAK, the second credit return and LM in the control slot. -/
theorem test_control_slot :
    controlSlot ⟨0x123, 0x456, true, [0, 0xAB, 0, 0, 0, 0], 5, []⟩ 0x01020304 =
      [0x23, 0x61, 0x45, 0x01, 0, 0xAB, 0, 0, 0, 0, 5, 0, 0, 0, 0, 0, 4, 3, 2, 1] := by decide +kernel

theorem port_on : PortRuns linkOn 0 1 := ⟨by decide +kernel, by decide +kernel, by decide +kernel⟩

theorem witness_JehamLinks :
    jhlOpen linkOn 0 1 = true ∧ frame0.seq = (linkOn.jhl 0 1).rxSeq ∧ (linkOn.jhl 0 1).lost = false ∧
    (let s := linkOn.onJhl 0 1 fun x => { x with replay := [frame0] }
     (s.jhl 0 1).replay ≠ [] ∧ (s.jhl 0 1).replayed ≠ some true ∧ (s.jhl 0 1).barren < max 1 (s.fld (.jhl 0 1) 0x50 12 4)) ∧
    (((linkOn.onJhl 0 1 fun x => { x with replay := [frame0], replayed := some true }).jhl 0 1).replayed = some true) ∧
    (let s := linkOn.onJhl 0 1 fun x => { x with trainedAt := some 0 }
     jhlJustUp s 0 1 = true) ∧ (([0, 12, 0, 0] : List Nat).all fun e => decide (e ≤ 12)) = true ∧
    ((linkOn.onJhl 0 1 fun x => { x with retrains := true }).jhl 0 1).retrains = true ∧
    jhlState (onState.setReg (.jhl 0 1) 0x40 4) 0 1 = 4 ∧ jhlState (onState.setReg (.jhl 0 1) 0x40 1) 0 1 = 1 := by decide +kernel

def tunnel0 : Tunnel where
  valid := true
  lepoch := 1
  rcredit := 4
  job := 9
  rdest := 0
  ridx := 0
  repoch := 0
  size := 4
  rjob := 0
  flits := []
  peer := 0
  pchan := 0
  peerValid := false

theorem witness_JehamTunnels :
    let s := linkOn.onJhl 0 1 fun x => { x with tunnels := [((0, 15), tunnel0), ((1, 7), tunnel0), ((2, 47), tunnel0)] }
    ArrivesBlock s (bpkt 5 1 (.psig 63 1 9)) 5 0 1 ∧ ((s.jhl 0 1).tunnel 0 15).valid = true ∧
    ((s.jhl 0 1).tunnel 1 7).valid = true ∧ ((s.jhl 0 1).tunnel 2 47).valid = true ∧
    ((s.jhl 0 1).tunnel 0 14).valid = false := by
  refine ⟨block_of ?_, ?_⟩ <;> decide +kernel

theorem witness_JehamReductions :
    let c := { RedCtx.reset with
      regs := ⟨#[(1 + 1 * 2 + 3 * 64 : Word), 9, 0, 0x01000000, 0, 1], by decide⟩, tcount := 1 }
    let s := (linkOn.setRed 0 15 c).onJhl 0 0 fun x => { x with rx := [.seg false 15 1 [] false] }
    (s.red 0 15).running = false ∧ (s.red 0 15).faulted = false ∧ (s.red 0 15).valid = true ∧ (s.red 0 15).rank = 1 ∧
    (s.red 0 15).nrank = 3 ∧ holds (s.red 0 15).tcount.toNat (s.red 0 15).thresh = true ∧
    (let t := s.setRed 0 15 { c with running := true }
     redNext t 0 0 false = some ⟨15, 1, [], false, .seg false 15 1 [] false⟩ ∧ 1 ≠ (t.red 0 15).nextUp) ∧
    (let t := (s.setRed 0 15 { c with running := true }).onJhl 0 1 fun x => { x with rx := [.seg true 15 0 [] false] }
     redNext t 0 1 true = some ⟨15, 0, [], false, .seg true 15 0 [] false⟩) := by decide +kernel

/-- A reduction whose tensors are there: the segment that comes is summed with the rank's own line. -/
theorem witness_ReduceSegment :
    let c := { RedCtx.reset with
      regs := ⟨#[(1 + 1 * 2 + 3 * 64 : Word), 0, 0, 0x01000000, 0, 1], by decide⟩, running := true }
    let s := ((tabState.setReg (.jhl 0 1) 0x40 2).setRed 0 15 c).onJhl 0 0 fun x => { x with rx := [.seg false 15 0 [] false] }
    (match redRead (takeRx s 0 0 (.seg false 15 0 [] false)) 0 c 0 with
     | (.data ws, _) => ws.length == 64
     | _ => false) = true ∧ (redFinish s 0 15 0 (List.replicate 128 0)).isSome = true := by decide +kernel

/-! ### PCIe -/

/-- Endpoint 0 up with Bus Master Enable, and home. -/
def hostState : State := (tabState.setReg (.pci 0) 0x40 0x600).setReg (.pci 0) 0x44 1

theorem witness_Aperture :
    let s := { hostState with aperture := [(3, ⟨0, true, true, 0, 0⟩)] }
    powered s = true ∧ linkUp s 0 = true ∧ inAperture (3 * 2 ^ 21 + 4088) 8 = true ∧ tiersOpen s 0 = true ∧
    (apEntry s ((3 * 2 ^ 21 + 4088) / 2 ^ 21)).valid = true ∧ (apEntry s 32767).valid = false ∧
    (match accessWords s (pciAgent s 0) 0 0 511 1 with
     | (.data ws, _) => ws.length == 1
     | _ => false) = true ∧
    (match accessPut (pciAgent s 0) 0 0 2 511 (wholeWords (List.replicate 8 1)) s with
     | (.data _, n, _) => n == 1
     | _ => false) = true ∧ (s.pci 0).waiting = [] ∧
    (let t := s.setFrame 0 1 0 { Frame.reset with gen := 1, use := .seg 0 0 0 }
     (match accessWords t (pciAgent t 0) 0 0 511 1 with
      | (.wait, _) => true
      | _ => false) = true) := by decide +kernel

/-- R570: what is written through the aperture is read back through it. -/
theorem test_aperture :
    let s := { hostState with aperture := [(3, ⟨0, true, true, 0, 0⟩)] }
    ((after (exec (.apertureWrite 0 (3 * 2 ^ 21 + 8) [1, 2, 3, 4, 5, 6, 7, 8]) s)).bind fun t =>
      (after (exec (.apertureRead 0 (3 * 2 ^ 21 + 10) 2) t)).map fun u => u.out.getLast?) =
        some (some (.aperture 0 [3, 4] false)) := by decide +kernel

def desc0 (op : Half) : DmaDesc := ⟨op, 0, 16, 0, 0, 0, 8, false⟩

def dmaState : State := hostState.setDq 0 15 { DmaQueue.reset with cfg := 0x80000004, tail := 1 }

theorem dma_on (op : Half) : DmaRuns dmaState 0 15 (desc0 op) op.toNat :=
  ⟨by decide +kernel, by decide +kernel, by decide +kernel, by decide +kernel, by decide +kernel, by decide +kernel, rfl, rfl⟩

theorem witness_DmaQueues :
    dmaFieldsOk (desc0 1) = true ∧ dmaFieldsOk { desc0 2 with length := 0 } = false ∧
    (match accessPut (pciAgent dmaState 0) 0 0 2 1 [5, 6] dmaState with
     | (.data _, n, _) => n == 2
     | _ => false) = true ∧
    (match dmaLines (pciAgent dmaState 0) 0 0 2 1 2 dmaState with
     | (.data _, ws, _) => ws == [0, 0]
     | _ => false) = true ∧ bits (0x80000010 : Word) 0 5 = 16 ∧ bit (0x80000010 : Word) 31 = true := by decide +kernel

theorem witness_HostLinks :
    (let s := hostState.setPci 0 { hostState.pci 0 with ready := true }
     mayTrain s 0 = true ∧ (s.pci 0).ready = true) ∧ (hostState.pci 0).ready = false ∧
    { hostState with mas := { hostState.mas with ready := true } }.mas.ready = true ∧ linkUp hostState 0 = true := by
  decide +kernel

/-! ### The Mason -/

/-- A module at work: die 0 runs, the Mason is ready and its fabrics too, its rings are on and hold one command. -/
def workState : State :=
  (((((hostState.onMas fun m => { m with ready := true }).setFld .mas 0x84 0 3 1).setReg .mas 0x48 0x80000004).setReg .mas 0x4C
    1).setReg .mas 0x5C 0x80000004)

def cmd0 (op : Half) : HostCmd := ⟨op, 3, 1, [], false⟩

def takenB (s : State) (c : HostCmd) (op : Nat) : Bool := fetches s && c.opcode.toNat == op && !c.spare && awake s

theorem taken_of {s : State} {c : HostCmd} {op : Nat} (h : takenB s c op = true) : Taken s c op := by
  simp only [takenB, Bool.and_eq_true, Bool.not_eq_true', beq_iff_eq] at h
  exact ⟨h.1.1.1, h.1.1.2, h.1.2, h.2⟩

def hdr0 : ImgHeader := ⟨true, 2, 0, 0, 0, 0, true, false, false, false, 0⟩

def bayImg0 : BayImage where
  sec := goodSection
  formatOk := true
  w := 8
  h := 8
  members := 1
  port := 0
  group := 0
  ii := 0
  longest := 0
  nslot := 2
  routes := []
  relocs := []
  runs := []
  template := []

def img0 (clsT : Bool) : JobImage where
  hdr := hdr0
  sec := goodSection
  headerOk := true
  clsT := clsT
  modules := []
  priority := 0
  tensors := []
  planes := []
  reds := []
  bays := [{ bayImg0 with w := 128, h := 96 }]
  inits := []

theorem witness_HostQueue :
    (∀ op ∈ [0, 0xE, 0xC, 2, 3, 4, 5, 6], Taken workState (cmd0 (BitVec.ofNat 16 op)) op) ∧ workState.job 1 = none ∧
    0 < cplRoom workState ∧ homeUp workState = some 0 := by
  refine ⟨fun op h => taken_of ?_, ?_⟩
  · revert op; decide +kernel
  · decide +kernel

/-- A LOAD_JOB of host memory, one of the empty flash slot 0 and one of no slot; an image that verifies and finds its place, and
one that its TARGET refuses. -/
theorem witness_LoadJob :
    let t := fetchOne workState
    takenB workState ⟨1, 3, 1, List.replicate 8 0 ++ [1], false⟩ 1 = true ∧ argNat (List.replicate 8 0 ++ [1]) 8 8 = 1 ∧
    argNat [] 8 8 = 0 ∧ t.flash.store.toList[argNat [] 0 1]? = some none ∧ argNat [5] 8 8 = 0 ∧ argNat [5] 0 1 = 5 ∧
    verifyJob t (img0 true) = none ∧ chainUp t (img0 true) = true ∧ (placeImage t (freeJobId t) (img0 true)).isSome = true ∧
    (verifyJob t { img0 true with hdr := { hdr0 with target := 6 } }).isSome = true := by decide +kernel

/-- R496: a command of an unknown job is answered with STATUS 3. -/
theorem test_no_job :
    (after (exec (.startJob (cmd0 2)) workState)).map (fun t => (t.fld .mas 0x50 0 16, t.out.getLast?.isSome, t.mas.cplIdx)) =
      some (1, true, 1) := by decide +kernel

def member0 (v : MemberState) : Member := ⟨0, 0, 0, v, 16, none, 0, 0, true, 0, none, none⟩

def bay0 (v : MemberState) : Bay := ⟨bayImg0, [member0 v], 0, [.free, .live 0 7], []⟩

def job0 (clsT : Bool) (v : JobState) (m : MemberState) : Job where
  id := 1
  clsT := clsT
  prio := 0
  state := v
  bays := [bay0 m]
  cause := 0
  wait := none
  since := 0
  started := false
  kept := false
  step := 0
  saves := []
  records := []
  recorded := []
  frames := []
  planes := []
  reds := []
  hdr := hdr0
  seed := 0

/-- The same with a bay of a whole die. -/
def wideState (v : JobState) (m : MemberState) : State :=
  workState.onMas fun x => { x with jobs := [{ job0 true v m with
    bays := [{ bay0 m with img := { bayImg0 with w := 128, h := 96 } }] }] }

def jobState (clsT : Bool) (v : JobState) (m : MemberState) : State :=
  workState.onMas fun x => { x with jobs := [job0 clsT v m] }

theorem witness_JobCommands :
    (∀ op ∈ [2, 3, 4, 5, 6, 0xB, 0xC], Taken (jobState true .running .serving) (cmd0 (BitVec.ofNat 16 op)) op) ∧
    (jobState true .waiting .unplaced).job 1 = some (job0 true .waiting .unplaced) ∧
    (jobState false .stopped .stopped).job 1 = some (job0 false .stopped .stopped) ∧
    (job0 false .running .serving).bays[0]? = some (bay0 .serving) ∧ 7 < (bay0 .serving).img.w ∧ 7 < (bay0 .serving).img.h ∧
    (bay0 .serving).members.any (fun m => m.placed) = true := by
  refine ⟨fun op h => taken_of ?_, ?_⟩
  · revert op; decide +kernel
  · decide +kernel

/-- Starting, stopping and resuming take a job through its states. -/
theorem test_job_states :
    let go := fun (i : Instr) (s : State) => ((after (exec i s)).bind fun t => t.job 1).map fun j => j.state
    go (.startJob (cmd0 2)) (jobState false .loaded .loaded) = some .running ∧
    go (.stopJob (cmd0 3)) (jobState false .running .serving) = some .stopped ∧
    go (.resumeJob (cmd0 4)) (jobState false .stopped .stopped) = some .running ∧
    go (.stopJob (cmd0 3)) (jobState true .running .serving) = some .preempting := by decide +kernel

/-- SLOT_ADD and SLOT_REMOVE of port 0, bay 0, in a bay whose one member serves; a slot that drains. -/
def slotCmd (op : Half) (key : Byte) : HostCmd := ⟨op, 3, 1, 0 :: key :: List.replicate 16 0, false⟩

theorem witness_StreamSlots :
    let s := jobState false .running .serving
    let r := (s.die 0).ing.insert (slotKey (slotCmd 7 5)) 0 0
    slotBay (slotCmd 7 5) = 0 ∧ slotPort (slotCmd 7 5) = 0 ∧ (bay0 .serving).allServe = true ∧ (bay0 .serving).unsettled = false ∧
    jobBusy s 1 = false ∧ (bay0 .serving).portDie s = some 0 ∧ (s.die 0).ing.find 5 = none ∧ r.1 = 0 ∧
    liveSlot s 0 (slotKey (slotCmd 8 7)) = some (1, 0, bay0 .serving, 1) ∧ drainedBefore s 0 0 0 = true ∧
    s.mas.publish = none ∧ takenB s (slotCmd 7 5) 7 = true := by decide +kernel

/-- A publish of no tensor, and one of a tensor that the training job does not have; the members in their order. -/
theorem witness_Publish :
    let s := jobState false .running .serving
    (deriveAll 1 1 [] (fetchOne s)).1.isSome = true ∧ (deriveAll 1 1 [⟨0, true, a0, [], 5, 0⟩] (fetchOne s)).1.isNone = true ∧
    takenB s (slotCmd 9 5) 9 = true ∧ installNext { bay0 .serving with members := [member0 .serving, member0 .serving] } [1, 0] =
      some 1 ∧ installNext (bay0 .serving) [] = none := by decide +kernel

theorem witness_MasonService :
    let s := workState.setDie 0 (((socketState .online).die 0))
    takenB s (cmd0 0xA) 0xA = true ∧ serviceReason s 0 = 0 ∧ (s.die 0).socket.svc = .online ∧
    (verifyFirmware workState ⟨{ hdr0 with kind := 3, target := 7 }, goodSection⟩) = none ∧
    workState.flash.firmware[(1 : Fin 2)] = some ⟨{ hdr0 with kind := 3, target := 7 }, goodSection⟩ ∧
    (bootFirmware workState).isSome = true ∧ (State.reset.setFld .clk 0x40 16 1 1).fld .clk 0x40 16 1 = 1 ∧
    steady workState = true ∧ workState.mas.autostarted = false ∧ (workState.setFld .cfg 0x74 0 1 1).fld .cfg 0x74 0 1 = 1 ∧ socketsStarting workState = false := by
  decide +kernel

/-- A socket whose service the Mason refuses. -/
theorem witness_ServiceRefused :
    serviceReason (workState.setDie 1 ((socketState .present).die 0)) 0 = 1 := by decide +kernel

theorem witness_MasonEvents :
    let s := jobState true .running .serving
    powered s = true ∧ s.mas.ready = true ∧ summaryRow s 0 = [] ∧ dieInbox s 0 = [] ∧
    (summaryRow (s.onMas fun m => { m with summary := [a0] }) 0 = [a0]) ∧ (0x3000 : Word).toNat / 4096 = 3 ∧
    badPlace a0 ⟨.ash a0, 0, 0x3000, 1, true, 0, 0⟩ = none ∧ raccLate s 0 = false ∧ s.heldEvents = [] ∧ (noteLink (s.onMas fun m => { m with linkUes := [(a0, s.time), (a0, s.time)] }) a0
      (evCode (.ash a0) evLinkUe)).1 = true ∧
    s.job 1 = some (job0 true .running .serving) ∧ s.member 1 0 0 = some (member0 .serving) ∧ jobBusy s 1 = false ∧
    (member0 .serving).placed = true ∧ sameCycle (keptProbe s a0).2 (probeCycle s a0) = false := by decide +kernel

/-- Two ashlars that wait for each other. -/
theorem witness_Preemption :
    (let s := wideState .waiting .unplaced
     steady s = true ∧ (runQueue s).length = 1 ∧ (placeJob s 1).isSome = true ∧ s.mas.heldLoads = []) ∧
    (let s := jobState true .preempting .serving
     (job0 true .preempting .serving).step ≠ 6 ∧ planesIdle s 1 = true ∧ drained s (job0 true .preempting .serving) = true) ∧
    (placeJob (wideState .preempted .unplaced) 1).isSome = true := by decide +kernel

theorem witness_Recovery :
    (let s := jobState false .running .rebuilt
     (bay0 .rebuilt).serving = [] ∧ (bay0 .rebuilt).membersIn .rebuilt = [0] ∧ s.bay 1 0 = some (bay0 .rebuilt)) ∧
    (bay0 .faulted).serving = [] ∧ (bay0 .faulted).membersIn .rebuilt = [] ∧
    (bay0 .serving).serving = [0] ∧ (member0 .faulted).toRecover = true ∧
    degraded onState 0 = false ∧ degraded (onState.setReg (.cfgDie 0) 0x50 0x10000) 0 = true ∧
    (let q : LoadReq := ⟨0, 1, 0, 0, false, false, false, false, [], false, false, 0, 0⟩
     let s := (jobState false .loading .loading).onMas fun m => { m with loads := [q] }
     (s.mas.jobs.filter fun j => displaced s j) = [] ∧ askedFor s q = true ∧ loadReady s q = true) ∧
    (let s := jobState false .running .faulted
     dueRecoveries s = [(1, 0, 0, 0)] ∧ ∀ k ∈ dueRecoveries s, k.1 = 1 ∧ k.2.1 = 0) := by decide +kernel

/-- A survivor held, its channel balanced, beside a member just rebuilt. -/
theorem witness_SurvivorHeld :
    let b : Bay := ⟨{ bayImg0 with members := 2 }, [{ member0 .serving with hold := some 0 }, { member0 .rebuilt with die := 1, asked := some 0 }], 0, [], []⟩
    let s := workState.onMas fun x => { x with jobs := [{ job0 false .running .serving with bays := [b] }] }
    b.serving = [0] ∧ entryBalanced s b 0 = true ∧ s.member 1 0 1 = some { member0 .rebuilt with die := 1, asked := some 0 } ∧
    held s b 0 none = true ∧ (member0 .rebuilt).asked ≠ some 0 := by decide +kernel

theorem witness_CourseRows :
    let s := onState.setReg (.cfgDie 0) 0x50 (0x8080 + 97 + 96 * 256)
    (retiredRows s 0) = [97, 96] ∧ (retiredRows s 0).contains 97 = true ∧ (retiredRows s 0).contains 0 = false ∧
    (retiredRows onState 0).length < 2 ∧ logicalRow onState 0 0 = some 0 ∧ bit (0x80 + 97 : Word) 7 = true ∧
    bits (0x80 + 97 : Word) 0 7 < 98 := by decide +kernel

/-! ### Start-up, flash, fuses, registers -/

/-- R582: a write cut short leaves the copy that was read, a whole one is read from then on. -/
theorem test_two_copies :
    let c : Vector (FlashCopy Nat) 2 := ⟨#[⟨4, true, 7⟩, ⟨5, true, 8⟩], rfl⟩
    readCopy c 0 = 8 ∧ readCopy (writeCopy c 9 false) 0 = 8 ∧ readCopy (writeCopy c 9 true) 0 = 9 := by decide

theorem witness_StartUp :
    (workState.mas.ready = true ∧ stage workState = 0) ∧
    checkHeader State.reset State.reset.flash.cornerstone.hdr 1 true = none ∧
    (∀ n ∈ [1, 2, 3, 4], stage (setStage workState n) = n) ∧ (workState.die 7).doneOut = false ∧
    hostUp workState 0 = true ∧ pinChatters workState 3 = false := by decide +kernel

/-- R591: with the clocks locked the cornerstone image, where slot A is empty, releases every die. -/
theorem witness_Configure :
    ((after (exec .powerOn State.reset)).bind fun s => (after (exec .configStart (s.onMas fun m => { m with ready := true }))).map
      fun t => (stage t, allReleased t)) = some (2, true) := by decide +kernel

theorem witness_FlashWrites :
    flashProtected false 0x10000000 = true ∧ flashProtected true 0 = true ∧ flashProtected false 0 = false ∧
    (flashSlot false 0).isSome = true ∧ flashSlot true 0x4800000 = none ∧ flashProtected true 0x4800000 = false ∧
    newerCopy State.reset.flash.autostart = some 0 ∧
    (homeUp workState).isSome = true ∧ verifyFlash workState .autostart (dataUpTo (.autostart [(true, 0)]) 16) = none ∧
    flashSlot false 0xFF00000 = some (.autostart, 0xFF00000, 0x80000) ∧
    (verifyFlash workState .slotA (dataUpTo (.autostart []) 16)).isSome = true := by
  decide +kernel

theorem witness_Fuses :
    fuseBusy workState = false ∧ workState.fuses.rollback < 64 ∧
    workState.flash.cornerstone.hdr.keyIdx.toNat ≠ 3 ∧ workState.fuses.revoked.getLsbD 3 = false ∧
    fuseBusy (workState.setReg .fus 0x7C 0x802) = true ∧
    workState.fuses.rollback + 1 < (workState.setReg .fus 0x7C 0x802).fld .fus 0x7C 0 7 := by decide +kernel

/-- R590: a counter of 0 advances to 2 in two steps. -/
theorem test_fuses :
    (after (exec .fuseStep (workState.setReg .fus 0x7C 0x802))).map (fun t => (t.fuses.rollback, fuseBusy t)) =
      some (1, true) := by decide +kernel

theorem witness_ScaffoldAccess :
    Arrives workState (pkt (.scaf 0 (.regRead 0xFFC))) a0 ∧ (0xFFE : BitVec 12).toNat % 4 ≠ 0 ∧
    ArrivesBlock workState (bpkt 8 0 (.scaf 0 (.bcast 0 0 0))) 8 0 0 ∧ ashOf workState 0 = some a0 ∧
    (let o : PortLoad := ⟨pkt (.scaf 0 (.regRead 0)), 0, 0, 0, 65, 0, true, 2, [(5, 1)], [(0, [])], 0⟩
     o.lines = 2 ∧ o.out.find? (fun e => e.1 == 5) = some (5, 1) ∧ o.got.length + 1 = o.lines ∧
     { o with got := [] }.got.length + 1 < o.lines ∧ ((withAsh fun v => { v with frozen := true, port := some o }).ash a0).port = some o) ∧
    ((withAsh fun v => { v with frozen := true }).ash a0).port = none ∧
    (saveAtPort onState a0 0 0).isSome = true ∧ Arrives workState ⟨3, 0, 0, false, .mresp 5 0 0 0 0 []⟩ a0 := by
  refine ⟨arrives_of ?_, ?_, block_of ?_, ?_, ?_, ?_, ?_, arrives_of ?_⟩ <;> decide +kernel

/-- A report on its way to an inbox with room. -/
theorem witness_Report :
    let r : Report := ⟨.ash a0, 0, 0, 0, false, 0, 0⟩
    let s := { workState with reports := [r] }
    s.reports = [r] ∧ pageDie r.page = 0 ∧ (dieInbox s 0).length < 256 := by decide +kernel

theorem witness_RegisterAccess :
    (∀ w ∈ [Writer.pci0, .smbus, .mason], writerUp workState w = true) ∧
    busTarget workState .pci0 false 0x1000008 = .reg (.ash a0) 8 ∧ busTarget workState .mason false 0x100000A = .reg (.ash a0) 0xA := by
  decide +kernel

/-- R14: a read of one byte gives 0 and records ERR_ACCESS. -/
theorem test_byte_read :
    (after (exec (.registerRead .pci0 false 0x1000008 1) workState)).map (fun t => (t.out.getLast?, t.fld (.ash a0) 0x1C 31 1)) =
      some (some (.readData 0), 1) := by decide +kernel

theorem witness_RegisterPages :
    busTarget workState .pci0 false (8 * 0x8000000 - 4096) = .reserved ∧
    busTarget { workState with part := .td2At110 } .pci0 false 0x10000000 = .absent ∧ linkUp workState 0 = true ∧
    (∃ p, busTarget workState .smbus true workState.smbOffset.toNat = .reg p 0) ∧
    pageLive workState (.eth 0) = true ∧ workState.fld (.eth 0) 0x08 0 1 = 0 ∧ ethState.fld (.eth 0) 0x08 0 1 = 1 ∧
    hasEnable (.eth 0) = true ∧ (perfBank (.key 0)).isSome = true := by
  refine ⟨?_, ?_, ?_, ⟨.mas, ?_⟩, ?_⟩ <;> decide +kernel

/-! ### Pins, resets, power and clocks -/

theorem witness_PinsAndTest :
    State.reset.fld .pin 0x70 0 12 ≠ 0 ∧ (State.reset.setReg .pin 0x70 0x1000).fld .pin 0x70 12 4 ≠ 0 ∧
    pinChatters State.reset 3 = false ∧
    (after (exec (.pinChatter 3) (State.reset.setReg .pin 0x70 0x1000))).map (fun t => pinChatters t 3) = some true ∧
    (State.reset.setReg .pin 0x74 1).fld .pin 0x74 0 24 ≠ 0 ∧ cageExists .td8At110 23 = true ∧
    cageExists .td8At110 24 = false ∧ (23 : Nat) ∉ State.reset.cages := by decide +kernel

theorem witness_Resets :
    State.reset.supply.off = false ∧ State.reset.supply.resetLow = false ∧ powered State.reset = true ∧
    tripHeld State.reset = false ∧ pinChatters State.reset 0 = false ∧
    ({ State.reset with supply := { State.reset.supply with resetLow := true } } : State).supply.resetLow = true ∧
    State.reset.fld .thm 0x4C 16 8 = 0 := by decide +kernel

theorem witness_PowerAndTrim :
    steady State.reset = false ∧ steady workState = true ∧
    (let s := (workState.setReg .pwr 0x50 0x07D00000).setReg .pwr 0x54 0x200007CF
     s.fld .pwr 0x54 0 16 < s.fld .pwr 0x50 16 16 ∧ (s.setFld .pwr 0x54 17 1 1).fld .pwr 0x54 17 1 = 1 ∧
       ((trimOrder s).find? (fun d => decide (demanded s d < 7))).isSome = true) := by decide +kernel

theorem witness_Heat :
    dieHeld State.reset 7 = false ∧ State.reset.mas.ready = false ∧ State.reset.fld .thm 0x4C 24 1 = 0 ∧
    warnPoint State.reset < 1023 ∧ critPoint State.reset < 1023 ∧ 20 ≤ warnPoint State.reset ∧
    (let s := workState.setFld .thm 0x50 0 10 1023
     warnPoint s < s.fld .thm 0x50 0 10) ∧
    (let s := { (State.reset.setFld .thm 0x4C 16 8 1) with supply := { State.reset.supply with tripTimer := true } }
     tripHeld s = true) := by decide +kernel

theorem witness_CuringAndWakes :
    cureWhy (workState.setFld .mas 0x84 0 3 0) = 1 ∧ cureWhy workState = 0 ∧ workState.fld .pwr 0x40 2 1 = 0 ∧
    workState.pstate ≠ .curing ∧ pinHigh State.reset 1 = true ∧ pinHigh (setPin State.reset 1 false) 1 = false ∧
    (let s := { (workState.setReg (.eth 0) 0x44 1) with
       pstate := .curing, supply := { workState.supply with cured := ⟨[], [], [], [], 1, 0x88F7, 0⟩ } }
     portKept s 0 0 = true ∧ s.fld (.eth 0) 0x44 0 1 = 1 ∧
       isWakeFrame s (List.replicate 12 0 ++ [0x88, 0xF7]) = true ∧ isWakeFrame s [] = false) := by decide +kernel

theorem witness_ClocksAndLintels :
    (let s := workState.setReg .clk 0x40 0xFFFFF
     s.fld .clk 0x40 7 1 = 1 ∧ s.fld .clk 0x40 15 1 = 1 ∧ s.fld .clk 0x40 16 1 = 1 ∧ s.fld .clk 0x40 17 1 = 1 ∧
       s.fld .clk 0x40 18 1 = 1 ∧ linkUp s 0 = true ∧ lintelRuns s 0 .east = false ∧
       lintelRuns (s.setDie 1 { Die.reset with run := .running }) 0 .east = true) ∧
    workState.mas.jobs = [] ∧ (workState.die 7).stopped.contains .dimm = false ∧
    neighbour .td8At110 0 .east = some 1 ∧ pageExists .td8At110 (.lin 0 .east) = true ∧
    (workState.setReg .clk 0x40 0x20000).fld .clk 0x40 16 1 = 0 ∧ (workState.setReg .clk 0x40 0x20000).reg .clk 0x40 ≠ 0 := by
  decide +kernel

/-! ### The whole machine -/

/-- A command that a step takes, one off the part, one of the wrong shape, and memories in canonical form. -/
theorem witness_machine :
    (Instr.tend a0).onPart onState.part = true ∧ (Instr.tend ⟨8, 0, 0⟩).onPart onState.part = false ∧
    (Instr.tend ⟨8, 0, 0⟩).shaped = true ∧ tabState.memsWf = true ∧
    (after (step { onState with pending := [.freezeSet a0] })).map (fun t => (t.ash a0).frozen) = some true := by
  decide +kernel

/-- R536, R665: with tclk a cycle adds INCR, which is 2 ns at reset; 1.5 ns carries its half; without tclk it adds 100 ns. -/
theorem test_tick :
    let s := State.reset.setFld .clk 0x40 17 1 1
    (after (step s)).map (·.time) = some 2 ∧
    ((after (step (s.setReg .tim 0x58 0x60000000))).bind fun t => (after (step t)).map (·.time)) = some 3 ∧
    (after (step State.reset)).map (·.time) = some 100 := by decide +kernel

/-- The next weight tile of an MWLOAD behind an executed MMA, its words declared. -/
def preloadI : EngInstr := { readyI .matrix 2 [0, 0, 0, 0, 0, 0] with
  order := 1, seq := 1, words := (readyI .matrix 2 [0, 0, 0, 0, 0, 0]).words.set 3 0x00000400 }

def preloadState : State := withAsh fun v => (v.setEng .matrix ⟨[engI .matrix 1 [0, 0, 0, 0, 0, 0] .executed, preloadI], false⟩).setWin 0
  { Window.reset with size := 6144, valid := true }

theorem witness_WeightPreload :
    preloadable (preloadState.ash a0) = some preloadI ∧ (preloadState.ash a0).active.pair = false ∧
    (loadTile (Run.start (preloadStart (preloadState.ash a0) preloadI)) (started (preloadState.ash a0) preloadI) (mmaOf preloadI)
      (offLo preloadI 11) (mmaOf preloadI).kc (mmaOf preloadI).wtag).2.fault = none := by decide +kernel

/-- A preloaded instruction whose load has faulted. -/
theorem witness_PreloadFault :
    let i := { engI .matrix 1 [0, 0, 0, 0, 0, 0] .running with faulted := true }
    preloaded ((withAsh fun v => { v.setEng .matrix ⟨[i], true⟩ with shadowFor := some 0 }).ash a0) = some i := by decide +kernel

/-- A peer that is there, and one that is not; a port shut by a fence around it, and one that takes a flit. -/
theorem witness_PortsAndPeers :
    destMissing onState 0 = false ∧ destMissing { onState with part := .td2At110 } (mkDest 500 0) = true ∧
    (let s := withDie fun d => { d with fences := d.fences.set 15 0x81010000 }
     portBusy s a0 1 = true ∧ portBusy s a0 2 = true ∧ portShut s (pkt (.psig 0 1 0)) = true) ∧
    portBusy onState a0 1 = false ∧ portShut onState (pkt (.psig 0 1 0)) = false ∧
    (engI .send 7 [0, 0, 0] .ready).wait = .none ∧ opcodeOf (engI .send 7 [0, 0, 0] .ready) = 7 := by decide +kernel

/-- A debugger read of a clean word, of one that cannot be corrected, of a half, and of an address past the end. -/
theorem witness_DbgRead :
    let s := onState.setReg (.ash a0) 0xB0 (0x8000 + 6143)
    dbgLegal 0 2 6143 = true ∧ dbgLegal 0 3 6143 = false ∧ dbgLegal 1 0 511 = true ∧ dbgLegal 1 0 512 = false ∧
    classDecode 2 (spadRaw (s.ash a0) 6143).1 (spadRaw (s.ash a0) 6143).2 = .clean ∧
    classDecode 2 3 0 = .ue ∧ classDecode 2 1 0 = .corrected 0 ∧
    (readHalf (s.ash a0).joiner.dmem 1023).2 ≠ .ue ∧ (readHalf (halfPut [] 1023 3 0) 1023).2 = .ue := by decide +kernel

/-- R94: a read of a word with two bits in error shows it as it is, with ECC_ERR set. -/
theorem test_dbg_read :
    (after (exec (.dbgRead a0) ((onState.setReg (.ash a0) 0xB0 (0x40000000 + 511)).onJ a0 fun j =>
      { j with dmem := halfPut [] 1023 3 0 }))).map (fun t => (t.reg (.ash a0) 0xB8, t.fld (.ash a0) 0xC0 3 1)) = some (3, 1) := by
  decide +kernel

/-- A controller whose queues are empty, one whose class S queue is full, and class S within and beyond its share. -/
def queueState (l : List Packet) (used : Nat) : State :=
  onState.onTierQueue 0 .stack0 fun q =>
    { q with reqs := (l.map fun p => (p, 1)) ++ [({ bpkt 0 0 (.mread ⟨0, 1, 0, 0⟩) with vc := 2 }, 1)], slot := 1, sUsed := used }

theorem witness_TierSlots :
    let p := bpkt 0 0 (.mread ⟨0, 0, 0, 0⟩)
    (onState.tierQueue 0 .stack0).reqs = [] ∧
    queueDepth true ≤ ((queueState (List.replicate 64 p) 0).queued 0 .stack0 true).length ∧
    readyOf (queueState [p] 0) 0 .stack0 true = [p] ∧ 3 < (queueState [p] 3).fld (ctlPage 0 .stack0) 0x40 0 4 ∧
    (queueState [p] 15).fld (ctlPage 0 .stack0) 0x40 0 4 ≤ 15 ∧
    assignSlot (queueState [p] 15) 0 .stack0 = some (true, p) ∧ assignSlot onState 0 .stack0 = none := by decide +kernel

/-- R605, R609: an order for 10 lines asks for the first eight, class M; its requests are class S while its fence has LIFT. -/
theorem test_load_order :
    let s := withAsh fun v => { v with frozen := true }
    let p := { pkt (.scaf 9 (.loadOrder 0 0 5120 0 false)) with vc := 3 }
    (after (exec (.loadOrder p) { s with net := [p] })).map (fun t =>
      (t.net.map fun q => (q.vc, q.body)) == (List.range 8).map fun k =>
        ((3 : BitVec 2), Body.mread ⟨BitVec.ofNat 15 k, BitVec.ofNat 21 (512 * k), 63, 0⟩)) = some true ∧
    (let q : Packet := ⟨3, ctlDest 0 .stack0, ashDest s a0, false, .mread ⟨0, 0, 63, 0⟩⟩
     s.asS q = false ∧ ((setFence s 0 3 0x81010000).setReg (.cfgDie 0) 0x44 8).asS q = true) := by decide +kernel

/-- R413: beyond its share a class S source waits for the next in turn, here the class T request of a source above it. -/
theorem test_slot_turn :
    let p := bpkt 0 0 (.mread ⟨0, 0, 0, 0⟩)
    let q := { bpkt 0 0 (.mread ⟨0, 512, 0, 0⟩) with src := 5, vc := 2 }
    let s := fun (used : Nat) => onState.onTierQueue 0 .stack0 fun x =>
      { x with reqs := [(p, 1), (q, 1)], slot := 1, sUsed := used, turn := 3 }
    (assignSlot (s 0) 0 .stack0, assignSlot (s 15) 0 .stack0) = (some (true, p), some (false, q)) := by decide +kernel

/-- R407: a later request to the line of one that waits is not ready, and one to another line is. -/
theorem test_line_order :
    let p := bpkt 0 0 (.mread ⟨0, 0, 0, 0⟩)
    let q := { bpkt 0 0 (.mread ⟨0, 8, 0, 0⟩) with src := 5 }
    let r := { bpkt 0 0 (.mread ⟨0, 512, 0, 0⟩) with src := 5 }
    readyIn 1 true [] [p, q, r] = [p] ∧ readyIn 2 true [] [p, q, r] = [p, r] := by decide +kernel

/-- A controller that can be read and one whose DIMM has no power; a die without a move to start. -/
theorem witness_TierScrub :
    scrubbable onState 0 .stack0 = true ∧ scrubbable (socketState .safe) 0 .dimm = false ∧ nextMove onState 0 = none ∧
    (onState.die 0).hod.order = none ∧ onState.mas.ready = false ∧ frameAsked onState 0 = false ∧
    frameAsked (queueState [bpkt 0 0 (.mread ⟨0, 0, 0, 1⟩)] 0) 1 = true ∧ (onState.die 0).hod.moves.length < maxMig onState 0 := by decide +kernel

/-- A waiting request whose reduction is open, and a release under way. -/
theorem witness_KeystoneDrops :
    let s := withDie fun d => { d with key := { d.key with
      ctxs := d.key.ctxs.set 9 { KeyCtx.reset with used := true, req := keyReq0 }, fifo := [bpkt 7 0 (.kreq keyReq0)] } }
    ctxOf (s.key 0) keyReq0 = some 9 ∧ (s.key 0).fifo = [bpkt 7 0 (.kreq keyReq0)] ∧
    (s.setFld (.key 0) 0x64 12 1 1).fld (.key 0) 0x64 12 1 = 1 ∧ s.mas.loads = [] := by decide +kernel

/-- An access under way as a read stands for no write, and the other way round. -/
theorem witness_RouterAccess :
    onState.fld (.mor 0) 0x68 1 2 ≠ 3 ∧ onState.fld (.mor 0) 0x68 0 1 = 0 ∧
    (raccStart onState 0 1).fld (.mor 0) 0x68 1 2 ≠ 3 ∧ (raccStart onState 0 2).fld (.mor 0) 0x68 0 1 = 0 := by decide +kernel

/-- A fetch-and-add while nothing waits. -/
theorem witness_NoCandidates :
    candidates (onState.ash a0) (engCandidates (onState.ash a0)) (joinerWait (onState.ash a0)) = [] := by decide +kernel

/-- The Mason refuses a readmission beside another socket in service. -/
theorem witness_Readmit :
    serviceBar (workState.setDie 1 ((socketState .present).die 0)) 0 ≠ 0 ∧
    serviceBar (workState.setDie 0 ((socketState .present).die 0)) 0 = 0 ∧ takenB workState (cmd0 0xA) 0xA = true := by
  decide +kernel

/-- The timer as a wake source of a module in Curing. -/
theorem witness_TimerWake :
    let s := { (workState.setReg .pwr 0x80 0x10) with pstate := .curing }
    powered s = true ∧ s.pstate = .curing ∧ s.fld .pwr 0x80 4 1 = 1 := by decide +kernel

/-- A publish under way of one bay whose members are both to be installed. -/
theorem witness_PublishGoes :
    let s := (jobState false .running .serving).onMas fun m => { m with publish := some ⟨none, 2, 1, 0, [0]⟩ }
    s.mas.publish = some ⟨none, 2, 1, 0, [0]⟩ ∧ s.bay 1 0 = some (bay0 .serving) ∧ installNext (bay0 .serving) [0] = some 0 := by
  decide +kernel

/-- An ashlar that waits for itself: a cycle of one, found twice. -/
theorem witness_Deadlock :
    let s := workState.onAsh a0 fun v => { v with sdBlock := 1, joiner := { v.joiner with state := .stalled } }
    let t := s.onMas fun m => { m with probe := [(a0, 0, probeCycle s a0)] }
    sameCycle (keptProbe t a0).2 (probeCycle t a0) = true ∧ 10000 ≤ (({ t with time := 20000 } : State).time - (keptProbe t a0).1).toNat := by
  decide +kernel

/-- A job at its boundaries whose saves can be ordered. -/
theorem witness_Saves :
    let j := job0 true .preempting .serving
    let s0 := jobState true .preempting .serving
    let s := (j.ashlars s0).foldl (fun t a => t.onJ a fun x => { x with state := .ended }) s0
    atBoundaries s j = true ∧ (orderSaves (revokeJob s j) j).isSome = true ∧ held s (bay0 .serving) 0 none = true := by decide +kernel

/-- A job that has waited too long beside one it may displace. -/
theorem witness_Quantum :
    let w := { job0 true .waiting .unplaced with
      id := 2, bays := [{ bay0 .unplaced with img := { bayImg0 with w := 128, h := 96, members := 1 } }] }
    let v := { job0 true .running .serving with bays := [{ bay0 .serving with img := { bayImg0 with w := 128, h := 96 } }] }
    let s := { ((workState.setReg (.cfgDie 1) 0x50 0x10000).setFld .mas 0x78 0 24 1).onMas (fun x => { x with jobs := [w, v] }) with
      part := .td2At110, time := 2000 }
    placeJob s 2 = none ∧ (placeBays (withoutJobs s [1]) 2).isSome = true ∧ placeBays (withoutJobs s []) 2 = none ∧
    (runQueue s).find? (fun j => decide (1000 < (s.time - j.since).toNat)) = some w := by decide +kernel

end Sys2Proof.Tests
end

section
/-! PROOF. Registers from outside: what an access of a bus does at each target (R14, R569, R680), the SMBus offset (R690), what
the header commands do to a page's registers (R20, R92, R673, R674), and the state after reset (R99, R666). -/

namespace Sys2Proof.Machine

/-! ### Accesses over a bus -/

/-- A writer that is up makes its write. -/
theorem exec_registerWrite {s : State} {w : Writer} (bar2 : Bool) (addr size : Nat) (v : Word) (up : writerUp s w = true) :
    exec (.registerWrite w bar2 addr size v) s = .next (busWrite s w bar2 addr size v) := by
  change execRegisterWrite w bar2 addr size v s = _
  rw [execRegisterWrite, if_pos up]

/-- A writer that is up gets an answer to its read, unless the address is beyond what it reaches. -/
theorem exec_registerRead {s : State} {w : Writer} {bar2 : Bool} {addr : Nat} (size : Nat) (up : writerUp s w = true)
    (reaches : busTarget s w bar2 addr ≠ .nowhere) :
    exec (.registerRead w bar2 addr size) s = .next (busAnswer w (busRead s w bar2 addr size)) := by
  change execRegisterRead w bar2 addr size s = _
  rw [execRegisterRead, if_pos up, if_neg reaches]

/-- At a register, the size and the alignment decide between its own write and ERR_ACCESS (R14). -/
theorem busWrite_reg {s : State} {w : Writer} {bar2 : Bool} {addr off : Nat} {p : Page} (size : Nat) (v : Word)
    (place : busTarget s w bar2 addr = .reg p off) :
    busWrite s w bar2 addr size v =
      if size = 4 ∧ off % 4 = 0 then busRegWrite s w p off v else s.record p evErrAccess 0 := by
  simp only [busWrite, place]

theorem busRead_reg {s : State} {w : Writer} {bar2 : Bool} {addr off : Nat} {p : Page} (size : Nat)
    (place : busTarget s w bar2 addr = .reg p off) :
    busRead s w bar2 addr size = if size = 4 ∧ off % 4 = 0 then readReg s p off else (0, s.record p evErrAccess 0) := by
  simp only [busRead, place]

/-- Settles O49: a register takes the accesses of every writer by one rule, which the size and the alignment decide. -/
theorem registerAccess : Obligations.RegisterAccess := by
  intro s w bar2 addr size v p off up place
  have reaches : busTarget s w bar2 addr ≠ .nowhere := by simp [place]
  rw [exec_registerWrite bar2 addr size v up, exec_registerRead size up reaches, busWrite_reg size v place, busRead_reg size place]
  refine ⟨fun four aligned => ?_, fun bad => ?_⟩
  · rw [if_pos ⟨four, aligned⟩, if_pos ⟨four, aligned⟩]
    exact ⟨rfl, rfl⟩
  · have not_word : ¬(size = 4 ∧ off % 4 = 0) := by omega
    rw [if_neg not_word, if_neg not_word]
    exact ⟨rfl, rfl⟩

/-- Over PCIe a page that the part lacks reads 0 and takes no write (R569). -/
theorem pci0_absent {s : State} {bar2 : Bool} {addr : Nat} (size : Nat) (v : Word) (up : writerUp s .pci0 = true)
    (place : busTarget s .pci0 bar2 addr = .absent) :
    exec (.registerWrite .pci0 bar2 addr size v) s = .next s ∧
      exec (.registerRead .pci0 bar2 addr size) s = .next (s.emit (.readData 0)) := by
  rw [exec_registerWrite bar2 addr size v up, exec_registerRead size up (by simp [place])]
  simp only [busWrite, busRead, busAnswer, place, and_self]

/-- Over PCIe a reserved address reads 0 and records ERR_ACCESS at the endpoint (R569, R680). -/
theorem pci0_reserved {s : State} {bar2 : Bool} {addr : Nat} (size : Nat) (v : Word) (up : writerUp s .pci0 = true)
    (place : busTarget s .pci0 bar2 addr = .reserved) :
    exec (.registerWrite .pci0 bar2 addr size v) s = .next (s.record (.pci 0) evErrAccess 0) ∧
      exec (.registerRead .pci0 bar2 addr size) s = .next ((s.record (.pci 0) evErrAccess 0).emit (.readData 0)) := by
  rw [exec_registerWrite bar2 addr size v up, exec_registerRead size up (by simp [place])]
  simp only [busWrite, busRead, busAnswer, busError, place, and_self]

/-! ### The SMBus target (R690) -/

theorem supply_on_of_powered {s : State} (on : powered s = true) : s.supply.off = false := by
  simp only [powered, Bool.and_eq_true, Bool.not_eq_true'] at on
  exact on.1

/-- What a BAR2 address of a register says of the address: it lies inside the BAR, and the register at its low bits. -/
theorem bar2_of_reg {s : State} {w : Writer} {addr off : Nat} {p : Page} (place : busTarget s w true addr = .reg p off) :
    addr < 2 ^ 24 ∧ off = addr % 4096 := by
  unfold busTarget at place
  by_cases far : 2 ^ 24 ≤ addr
  · rw [if_pos (.inl far)] at place
    contradiction
  · refine ⟨Nat.not_le.mp far, ?_⟩
    rw [if_neg (by rintro (inside | ⟨-, bar0⟩) <;> contradiction)] at place
    split at place
    case h_1 => split at place <;> contradiction
    case h_2 =>
      split at place
      · contradiction
      · split at place
        · contradiction
        · exact (Target.reg.inj place).2.symm

theorem exec_smbSetOffset {s : State} (v : Word) (on : powered s = true) :
    exec (.smbSetOffset v) s = .next { s with smbOffset := v } := by
  change execSmbSetOffset v s = _
  simp [execSmbSetOffset, supply_on_of_powered on]

theorem atOffset_aligned {s : State} (go : State → State) (on : powered s = true) (aligned : s.smbOffset.toNat % 4 = 0) :
    atOffset s go = { go s with smbOffset := s.smbOffset + 4 } := by
  simp [atOffset, supply_on_of_powered on, aligned]

theorem atOffset_misaligned {s : State} (go : State → State) (on : powered s = true)
    (misaligned : s.smbOffset.toNat % 4 ≠ 0) : atOffset s go = s.record .pin evErrAccess 0 := by
  simp [atOffset, supply_on_of_powered on, misaligned]

/-- At a register a read over SMBus is the register's own, answered over SMBus. -/
theorem smbRead_reg {s : State} {p : Page} {off : Nat} (on : powered s = true) (aligned : s.smbOffset.toNat % 4 = 0)
    (place : busTarget s .smbus true s.smbOffset.toNat = .reg p off) :
    smbRead s = (readReg s p off).2.emit (.smbus (readReg s p off).1) := by
  obtain ⟨inside, low⟩ := bar2_of_reg place
  have word : off % 4 = 0 := by omega
  simp only [smbRead, on, busRead_reg 4 place, word, Nat.not_le.mpr inside, busAnswer, and_self, Bool.not_true,
    Bool.false_eq_true, if_false, if_true]

/-- At a register a write over SMBus is the register's own. -/
theorem smbWrite_reg {s : State} {p : Page} {off : Nat} (v : Word) (on : powered s = true)
    (aligned : s.smbOffset.toNat % 4 = 0) (place : busTarget s .smbus true s.smbOffset.toNat = .reg p off) :
    smbWrite s v = busRegWrite s .smbus p off v := by
  obtain ⟨inside, low⟩ := bar2_of_reg place
  have word : off % 4 = 0 := by omega
  simp only [smbWrite, on, busWrite_reg 4 v place, word, Nat.not_le.mpr inside, and_self, Bool.not_true,
    Bool.false_eq_true, if_false, if_true]

/-- SMB_READ and SMB_WRITE at an aligned offset of a register act there, and the offset advances by 4 (R690). -/
theorem smb_at_reg {s : State} {p : Page} {off : Nat} (v : Word) (on : powered s = true)
    (aligned : s.smbOffset.toNat % 4 = 0) (place : busTarget s .smbus true s.smbOffset.toNat = .reg p off) :
    (∃ u, exec .smbRead s = .next u ∧ u.smbOffset = s.smbOffset + 4 ∧
      u.out = (readReg s p off).2.out ++ [.smbus (readReg s p off).1]) ∧
    ∃ u, exec (.smbWrite v) s = .next u ∧ u.smbOffset = s.smbOffset + 4 ∧ u.regs = (busRegWrite s .smbus p off v).regs := by
  refine ⟨⟨atOffset s smbRead, rfl, ?_⟩, ⟨atOffset s fun t => smbWrite t v, rfl, ?_⟩⟩
  · rw [atOffset_aligned _ on aligned, smbRead_reg on aligned place]
    exact ⟨rfl, rfl⟩
  · rw [atOffset_aligned _ on aligned, smbWrite_reg v on aligned place]
    exact ⟨rfl, rfl⟩

/-- At an offset that is no multiple of 4 they record ERR_ACCESS and do nothing else (R690). -/
theorem smb_misaligned {s : State} (v : Word) (on : powered s = true) (misaligned : s.smbOffset.toNat % 4 ≠ 0) :
    exec .smbRead s = .next (s.record .pin evErrAccess 0) ∧ exec (.smbWrite v) s = .next (s.record .pin evErrAccess 0) := by
  change execSmbRead s = _ ∧ execSmbWrite v s = _
  rw [execSmbRead, execSmbWrite, atOffset_misaligned _ on misaligned, atOffset_misaligned _ on misaligned]
  exact ⟨rfl, rfl⟩

/-! ### Performance counters cleared (R20, R92) -/

/-- A pair set to 0 reads 0 in both halves, and every other register is left alone. -/
theorem State.reg_setPair_zero (s : State) (p q : Page) (o x : Nat) :
    (s.setPair p o 0).reg q x = if q = p ∧ (x = o ∨ x = o + 4) then 0 else s.reg q x := by
  unfold State.setPair
  by_cases hq : q = p
  · subst hq
    by_cases hi : x = o + 4
    · subst hi; simp
    · rw [State.reg_setReg_off _ _ _ hi]
      by_cases lo : x = o
      · subst lo; simp
      · rw [State.reg_setReg_off _ _ _ lo, if_neg (by simp [hi, lo])]
  · rw [State.reg_setReg_page _ _ _ _ hq, State.reg_setReg_page _ _ _ _ hq, if_neg (fun h => hq h.1)]

/-- Of a list of pairs set to 0 every half reads 0, and every other register is left alone. -/
theorem State.reg_clearPairs (l : List Nat) (s : State) (p q : Page) (x : Nat) :
    (l.foldl (fun t o => t.setPair p o 0) s).reg q x =
      if q = p ∧ ∃ o ∈ l, x = o ∨ x = o + 4 then 0 else s.reg q x := by
  induction l generalizing s with
  | nil => simp
  | cons o l ih =>
    rw [List.foldl_cons, ih, State.reg_setPair_zero]
    by_cases hq : q = p
    · by_cases here : x = o ∨ x = o + 4
      · rw [if_pos (c := q = p ∧ (x = o ∨ x = o + 4)) ⟨hq, here⟩, ite_self,
          if_pos ⟨hq, o, List.mem_cons_self, here⟩]
      · simp [hq, here]
    · simp [hq]

theorem clearPairs_frame (s : State) (p : Page) (l : List Nat) :
    let u := l.foldl (fun t o => t.setPair p o 0) s
    (∀ o ∈ l, u.reg p o = 0 ∧ u.reg p (o + 4) = 0) ∧ (∀ o, o ∉ l → (∀ q ∈ l, o ≠ q + 4) → u.reg p o = s.reg p o) ∧
      ∀ q o, q ≠ p → u.reg q o = s.reg q o := by
  dsimp only
  refine ⟨fun o mem => ⟨?_, ?_⟩, fun o out high => ?_, fun q o other => ?_⟩
  · rw [State.reg_clearPairs, if_pos ⟨rfl, o, mem, .inl rfl⟩]
  · rw [State.reg_clearPairs, if_pos ⟨rfl, o, mem, .inr rfl⟩]
  · rw [State.reg_clearPairs, if_neg]
    rintro ⟨-, r, mem, rfl | rfl⟩
    · exact out mem
    · exact high r mem rfl
  · rw [State.reg_clearPairs, if_neg (fun h => other h.1)]

theorem pageExists_of_live {s : State} {p : Page} (live : pageLive s p = true) : pageExists s.part p = true := by
  simp only [pageLive, Bool.and_eq_true] at live
  exact live.1.1

theorem exec_perfClear {s : State} {p : Page} (live : pageLive s p = true) : exec (.perfClear p) s = .next (perfClear s p) := by
  change execPerfClear p s = _
  simp [execPerfClear, live, pageExists_of_live live]

theorem perfClear_bank {s : State} {p : Page} {ctl : Nat} {l : List Nat} (bank : perfBank p = some (ctl, l)) :
    perfClear s p = l.foldl (fun t o => t.setPair p o 0) s := by
  simp only [perfClear, bank]

/-! ### INT_FORCE (R673) -/

theorem exec_intForce {s : State} {p : Page} (v : Word) (live : pageLive s p = true) :
    exec (.intForce p v) s = .next (intForce s p v) := by
  change execIntForce p v s = _
  simp [execIntForce, live, pageExists_of_live live]

/-- INT_STATUS takes the bits forced; the interrupt they may cause touches no register. -/
theorem intForce_status (s : State) (p : Page) (v : Word) :
    (intForce s p v).reg p 0x10 = s.reg p 0x10 ||| (v &&& 7) := by
  have regs := pciIrq_regs s (s.setReg p 0x10 (s.reg p 0x10 ||| (v &&& 7))) p
  rw [intForce, State.reg, regs]
  exact State.reg_setReg_same s p 0x10 _

/-! ### The soft reset of a page (R674) -/

theorem exec_pageSoftReset {s : State} {p : Page} (live : pageLive s p = true) :
    exec (.pageSoftReset p) s = .next (pageSoftReset s p) := by
  change execPageSoftReset p s = _
  simp [execPageSoftReset, live, pageExists_of_live live]

/-- Of a page with ENABLE, which no ashlar's has, the soft reset is judged on ENABLE. -/
theorem pageSoftReset_hasEnable {s : State} {p : Page} (has : hasEnable p = true) :
    pageSoftReset s p =
      if s.fld p 0x08 0 1 = 1 then s.record p evErrAccess 0 else resetBlock (resetRegs s p) p := by
  unfold pageSoftReset
  split
  · simp [hasEnable] at has
  · simp [has]

/-- A key that no entry kept has reads the default. -/
theorem tget_filter_dropped {κ α : Type} [DecidableEq κ] (t : Table κ α) (f : κ × α → Bool) (k : κ) (d : α)
    (dropped : ∀ v, f (k, v) = false) : tget (t.filter f) k d = d := by
  induction t with
  | nil => rfl
  | cons e r ih =>
    obtain ⟨j, v⟩ := e
    by_cases same : j = k
    · subst same
      rw [List.filter_cons_of_neg (by simp [dropped]), ih]
    · by_cases kept : f (j, v) = true
      · rw [List.filter_cons_of_pos kept, tget, if_neg same, ih]
      · rw [List.filter_cons_of_neg kept, ih]

/-- From 0x040 on the registers of the page read their reset values. -/
theorem resetRegs_reg (s : State) (p : Page) {off : Nat} (high : 0x40 ≤ off) :
    (resetRegs s p).reg p off = resetWord p off := by
  rw [State.reg, resetRegs, tget_tset_same]
  exact tget_filter_dropped _ _ off _ fun _ => decide_eq_false (by omega)

/-- Putting the block at reset touches registers of a Jeham port alone, which counts what it discards. -/
theorem resetBlock_reg (s : State) {p : Page} (q : Page) (off : Nat) (notJhl : ∀ d k, p ≠ .jhl d k) :
    (resetBlock s p).reg q off = s.reg q off := by
  unfold resetBlock
  split
  case h_4 d k => exact absurd rfl (notJhl d k)
  all_goals rfl

@[simp] theorem State.jhl_setJhl_same (s : State) (d k : Nat) (x : Jhl) : (s.setJhl d k x).jhl d k = x := by
  simp [State.jhl, State.setJhl]

theorem resetBlock_eth (s : State) (d : Nat) : ((resetBlock s (.eth d)).die d).eth = Eth.reset := by
  simp [resetBlock, State.onEth]

theorem resetBlock_ing (s : State) (d : Nat) : ((resetBlock s (.ing d)).die d).ing = Ing.reset := by
  simp [resetBlock, State.onIng]

theorem resetBlock_egr (s : State) (d : Nat) : ((resetBlock s (.egr d)).die d).egr = Egr.reset := by
  simp [resetBlock, State.onEgr]

/-- The reductions of port 0's die are reset beside the port, which stays at reset. -/
theorem resetBlock_jhl (s : State) (d k : Nat) : (resetBlock s (.jhl d k)).jhl d k = Jhl.reset := by
  have port := State.jhl_setJhl_same (jhlDiscard s d k) d k Jhl.reset
  simp only [resetBlock]
  split
  · rw [State.jhl, State.die_setDie_same]
    exact port
  · exact port

/-- The soft reset of a disabled page: its registers from 0x040 on and its block are at reset (R674). -/
theorem pageSoftReset_disabled {s : State} {p : Page} (live : pageLive s p = true) (has : hasEnable p = true)
    (idle : s.fld p 0x08 0 1 = 0) :
    ∃ u, exec (.pageSoftReset p) s = .next u ∧
      (∀ off, 0x40 ≤ off → (∀ d k, p ≠ .jhl d k) → u.reg p off = resetWord p off) ∧
      (∀ d, p = .eth d → (u.die d).eth = Eth.reset) ∧ (∀ d, p = .ing d → (u.die d).ing = Ing.reset) ∧
      (∀ d, p = .egr d → (u.die d).egr = Egr.reset) ∧ (∀ d k, p = .jhl d k → u.jhl d k = Jhl.reset) := by
  refine ⟨resetBlock (resetRegs s p) p, ?_, fun off high notJhl => ?_, ?_, ?_, ?_, ?_⟩
  · rw [exec_pageSoftReset live, pageSoftReset_hasEnable has, if_neg (by omega)]
  · rw [resetBlock_reg _ _ _ notJhl, resetRegs_reg s p high]
  · rintro d rfl; exact resetBlock_eth _ d
  · rintro d rfl; exact resetBlock_ing _ d
  · rintro d rfl; exact resetBlock_egr _ d
  · rintro d k rfl; exact resetBlock_jhl _ d k

/-- The soft reset of an enabled page records ERR_ACCESS instead (R674). -/
theorem pageSoftReset_enabled {s : State} {p : Page} (live : pageLive s p = true) (has : hasEnable p = true)
    (on : s.fld p 0x08 0 1 = 1) : exec (.pageSoftReset p) s = .next (s.record p evErrAccess 0) := by
  rw [exec_pageSoftReset live, pageSoftReset_hasEnable has, if_pos on]

/-- Settles O50, target by target for the buses and command by command for the pages. -/
theorem registerPages : Obligations.RegisterPages := by
  refine ⟨fun s addr size v bar2 on => ?_, fun s p v live => ?_⟩
  · have up (link : linkUp s 0 = true) : writerUp s .pci0 = true := by simp [writerUp, on, link]
    exact ⟨fun link place => pci0_absent size v (up link) place, fun link place => pci0_reserved size v (up link) place,
      exec_smbSetOffset v on, fun p off aligned place => smb_at_reg v on aligned place, smb_misaligned v on, rfl⟩
  · refine ⟨fun ctl l bank => ?_, clearPairs_frame s p, ⟨_, exec_intForce v live, intForce_status s p v⟩, fun has _ => ?_⟩
    · rw [exec_perfClear live, perfClear_bank bank]
    · exact ⟨pageSoftReset_disabled live has, pageSoftReset_enabled live has⟩

/-! ### The state after reset (R99, R666) -/

/-- After reset no ashlar is listed, so each is as the reset ashlar. -/
@[simp] theorem State.reset_ash (a : Ash) : State.reset.ash a = Ashlar.reset := rfl

/-- After reset no register is listed, so each reads its reset value. -/
@[simp] theorem State.reset_reg (p : Page) (off : Nat) : State.reset.reg p off = resetWord p off := rfl

theorem Joiner.reset_rd (r : Reg) : Joiner.reset.rd r = 0 := by
  simp [Joiner.rd, Joiner.reset]

theorem Joiner.reset_al (k : Fin 4) : Joiner.reset.al[k] = 0 := by
  simp [Joiner.reset]

/-- The engines' queues of a reset ashlar are empty. -/
theorem inFlight_reset : inFlight Ashlar.reset = [] := rfl

/-- A reset ashlar stands at a task boundary: halted, nothing in flight, no transfer and no program running (R74). -/
theorem atBoundary_reset : atBoundary Ashlar.reset = true := by decide

theorem Die.reset_memsWf : Die.reset.memsWf = true := by decide

/-- Every memory of the module is empty after reset. -/
theorem State.reset_memsWf : State.reset.memsWf = true := by
  simp [State.memsWf, State.reset, Die.reset_memsWf]

/-- Settles O57: every ashlar is the reset ashlar, and no memory, packet, report or register is listed. -/
theorem resetState : Obligations.ResetState := by
  refine ⟨fun a r => ?_, rfl, rfl, rfl, rfl, State.reset_reg, State.reset_memsWf⟩
  rw [State.reset_ash]
  exact ⟨rfl, rfl, rfl, rfl, Joiner.reset_rd r, Joiner.reset_al, rfl, rfl, rfl, rfl, rfl, inFlight_reset, atBoundary_reset⟩

end Sys2Proof.Machine
end

section
/-! PROOF. ISSUE, the decode of an engine instruction, its reads retired and its completion (R54, R56, R62, R66, R111,
R112). -/

namespace Sys2Proof.Machine

/-- A command of an ashlar that runs does what the ashlar does. -/
theorem atAsh_runs {s : State} {a : Ash} (runs : AshRuns s a) (go : Host.Outcome State Fault Refusal) :
    atAsh s a go = go := by
  simp [atAsh, atAshIf, runs.onPart, runs.awake]

/-! ### ISSUE -/

@[simp] theorem Joiner.setPending_held (j : Joiner) (r : Reg) : (j.setPending r).held = j.held := by
  unfold Joiner.setPending; split <;> rfl

/-- A descriptor word that is replaced or reads clean joins the words read, and nothing is counted (R112, R113). -/
theorem descWord_clean {m : Mem} {addr k : Nat} {sub : Option Word} (d : DescRead) (aligned : addr % 16 = 0)
    (clean : sub = none → (readHalf m (addr / 4 + k)).2 = .clean) :
    descWord m addr k sub d = { d with words := d.words ++ [sub.getD (readHalf m (addr / 4 + k)).1] } := by
  have place : (addr + 4 * k) / 4 = addr / 4 + k := by omega
  cases sub with
  | some w => rfl
  | none => simp only [descWord, place, clean rfl, Option.getD_none]

/-- So the words of a clean descriptor are read in order, with no error. -/
theorem descWords_clean {m : Mem} {addr : Nat} (sub : Nat → Option Word) (aligned : addr % 16 = 0) (n : Nat) (d : DescRead)
    (clean : ∀ k, k < n + 1 → sub k = none → (readHalf m (addr / 4 + k)).2 = .clean) :
    (List.range n).foldl (fun d k => descWord m addr (k + 1) (sub (k + 1)) d) d =
      { d with words := d.words ++ (List.range n).map fun k => (sub (k + 1)).getD (readHalf m (addr / 4 + (k + 1))).1 } := by
  induction n with
  | zero => simp
  | succ n ih =>
    rw [List.range_succ, List.foldl_append, ih fun k hk => clean k (by omega)]
    simp [descWord_clean _ aligned (clean (n + 1) (by omega))]

/-- A half of the descriptor that an ISSUE of rs1 names. -/
def descHalf (s : State) (a : Ash) (rs1 : Reg) (k : Nat) : Word × Ecc :=
  readHalf (s.ash a).joiner.dmem ((s.jr a rs1).toNat / 4 + k)

/-- How many words that descriptor has (R58). -/
def descLen (s : State) (a : Ash) (rs1 : Reg) : Nat := 6 + bits (descHalf s a rs1 0).1 20 4

/-- The words an ISSUE hands over, under a replacement of words (R112). -/
def issueWords (s : State) (a : Ash) (rs1 : Reg) (sub : Nat → Option Word) : List Word :=
  (List.range (descLen s a rs1)).map fun k => (sub k).getD (descHalf s a rs1 k).1

/-- Word 0 is never replaced (R112). -/
@[simp] theorem replaced_zero (s : State) (a : Ash) (rsA : Reg) (widxA : BitVec 4) (rsB : Reg) (widxB : BitVec 4) :
    replaced s a rsA widxA rsB widxB 0 = none := rfl

/-- A legal ISSUE of a clean descriptor: it waits for the register of its reduction or for room in the queue, or hands its
words over (R53, R110 to R112). -/
theorem issueBody_clean {s : State} {a : Ash} {rsA rs1 rsB : Reg} {widxA widxB : BitVec 4}
    (port : (s.ash a).transfer = none) (ctx : (s.ash a).ctxValid = true) (aligned : (s.jr a rs1).toNat % 16 = 0)
    (fits : (s.jr a rs1).toNat + 4 * descLen s a rs1 ≤ 0x1000) (inA : widxA.toNat < descLen s a rs1)
    (inB : widxB.toNat < descLen s a rs1)
    (clean : ∀ k, k < descLen s a rs1 → replaced s a rsA widxA rsB widxB k = none → (descHalf s a rs1 k).2 = .clean) :
    issueBody rsA rs1 widxA rsB widxB a s =
      let words := issueWords s a rs1 (replaced s a rsA widxA rsB widxB)
      let e := engineOf (bits (descHalf s a rs1 0).1 30 2)
      if (s.ash a).joiner.isPending (rdstOf e words) then .stall 1
      else if 4 ≤ engDepth (s.ash a) e then .stall 2
      else .done (endTransfer s a words) .seq := by
  let sub := replaced s a rsA widxA rsB widxB
  obtain ⟨n, len⟩ : ∃ n, descLen s a rs1 = n + 1 := ⟨5 + bits (descHalf s a rs1 0).1 20 4, by rw [descLen]; omega⟩
  have len6 : 6 + bits (descHalf s a rs1 0).1 20 4 = n + 1 := len
  have words : [(descHalf s a rs1 0).1] ++ (List.range n).map (fun k => (sub (k + 1)).getD (descHalf s a rs1 (k + 1)).1) =
      issueWords s a rs1 sub := by
    rw [issueWords, len, List.range_succ_eq_map]
    simp [sub]
  have word0 : (issueWords s a rs1 sub).getD 0 0 = (descHalf s a rs1 0).1 := by rw [← words]; rfl
  have first : descWord (s.ash a).joiner.dmem (s.jr a rs1).toNat 0 none ⟨[], 0, none⟩ = ⟨[(descHalf s a rs1 0).1], 0, none⟩ :=
    descWord_clean _ aligned fun _ => clean 0 (by omega) rfl
  have rest : (List.range n).foldl (fun d k => descWord (s.ash a).joiner.dmem (s.jr a rs1).toNat (k + 1) (sub (k + 1)) d)
      ⟨[(descHalf s a rs1 0).1], 0, none⟩ = ⟨issueWords s a rs1 sub, 0, none⟩ := by
    rw [descWords_clean sub aligned n _ fun k hk => clean k (by omega), ← words]
    rfl
  have legal : ¬((s.jr a rs1).toNat % 16 ≠ 0 ∨ 0xFFF < (s.jr a rs1).toNat) := by omega
  have inside : ¬(0x1000 < (s.jr a rs1).toNat + 4 * (n + 1) ∨ n + 1 ≤ widxA.toNat ∨ n + 1 ≤ widxB.toNat) := by omega
  simp only [issueBody, port, ctx, if_neg legal, first, List.getD_cons_zero, len6, if_neg inside, Nat.add_sub_cancel, rest, word0,
    Option.isSome_none, Bool.not_true, Bool.false_eq_true, if_false, List.range_zero, List.foldl_nil, sub]

@[simp] theorem endTransfer_ash (s : State) (a : Ash) (words : List Word) :
    (endTransfer s a words).ash a = { s.ash a with
      transfer := some (transferred (s.ash a) words)
      joiner := { (s.ash a).joiner.setPending (rdstOf (transferred (s.ash a) words).engine words) with
        issued := (s.ash a).joiner.issued + 1 } } := State.ash_onAsh_same s a _

theorem exec_engineDecode {s : State} {a : Ash} (runs : AshRuns s a) : exec (.engineDecode a) s = .next (engineDecode s a) :=
  atAsh_runs runs _

theorem engineDecode_legal {s : State} {a : Ash} {i : EngInstr} (waits : (s.ash a).transfer = some i)
    (ok : decodeFault (s.ash a) i = none) : engineDecode s a = s.onAsh a fun v => placeInstr v i := by
  simp only [engineDecode, waits, ok]

theorem engineDecode_illegal {s : State} {a : Ash} {i : EngInstr} {ev : Ev} (waits : (s.ash a).transfer = some i)
    (bad : decodeFault (s.ash a) i = some ev) : engineDecode s a = failDecode s a i ev := by
  simp only [engineDecode, waits, bad]

theorem exec_readsRetired {s : State} {a : Ash} {seq : BitVec 5} {i : EngInstr} (runs : AshRuns s a)
    (thawed : (s.ash a).frozen = false) (found : findSeq (s.ash a) seq (readsDone (s.ash a)) = some i) :
    exec (.readsRetired a seq) s = .next (retireReads s a i) := by
  change execReadsRetired a seq s = _
  simp [execReadsRetired, atAsh_runs runs, found, thawed]

theorem exec_instrComplete {s : State} {a : Ash} {seq : BitVec 5} {i : EngInstr} (runs : AshRuns s a)
    (thawed : (s.ash a).frozen = false) (found : findSeq (s.ash a) seq (workDone (s.ash a)) = some i) :
    exec (.instrComplete a seq) s = .next (finishInstr s a i) := by
  change execInstrComplete a seq s = _
  simp [execInstrComplete, atAsh_runs runs, found, thawed]

/-- Settles O13: an ISSUE by the words it reads, the others by the rule of their command. -/
theorem engineIssue : Obligations.EngineIssue := by
  refine ⟨⟨?_, fun s a words => ?_, fun s a i runs waits => ?_⟩, fun s a seq i runs thawed => ?_⟩
  · intro s a rsA rs1 widxA rsB widxB c t v addr read len sub words e turn port ctx aligned fits inA inB clean
    have body := issueBody_clean (s := t) port ctx aligned fits inA inB clean
    refine ⟨fun pending => jExec_stall turn ?_, fun free full => jExec_stall turn ?_, fun free room => jExec_done turn ?_ ?_⟩
    · exact body.trans (if_pos pending)
    · exact body.trans ((if_neg (Bool.eq_false_iff.1 free)).trans (if_pos full))
    · exact body.trans ((if_neg (Bool.eq_false_iff.1 free)).trans (if_neg (Nat.not_le_of_lt room)))
    · rw [endTransfer_ash]; simp [t, turn.held]
  · rw [endTransfer_ash]
    exact ⟨rfl, rfl, rfl⟩
  · rw [exec_engineDecode runs]
    exact ⟨fun ok => by rw [engineDecode_legal waits ok], fun ev bad => by rw [engineDecode_illegal waits bad]⟩
  · exact ⟨exec_readsRetired runs thawed, exec_instrComplete runs thawed⟩

end Sys2Proof.Machine
end

section
/-! PROOF. An instruction at its engine's turn: the vector engine's commands and MLOGIC (R58 to R66, R229, R240, R251), the
matrix engine's instructions and the weight preload (R78, R158 to R162). -/

namespace Sys2Proof.Machine

/-! ### Turns -/

/-- The head that starts does its work in the state in which it has started (R60). -/
theorem startHead_starts {s : State} {a : Ash} {e : Engine} {i : EngInstr} (h : Starts s a e i) {want : EngInstr → Bool}
    (wanted : want i = true) (body : State → EngInstr → State) :
    startHead s a e want body = body (startedState s a i) (started (s.ash a) i) := by
  simp only [startHead, h.head, wanted, h.slots, h.now, Bool.not_true, Bool.false_and, Bool.false_eq_true, if_false]
  rfl

@[simp] theorem startedState_ash (s : State) (a : Ash) (i : EngInstr) : (startedState s a i).ash a = startIn (s.ash a) i :=
  State.ash_setAsh_same s a _

/-- The error counts of a run leave the ashlars as they are. -/
@[simp] theorem State.countRun_ash (s : State) (a b : Ash) (ce ue extra : Nat) : (s.countRun a ce ue extra).ash b = s.ash b := by
  have counts (n : Nat) (t : State) : ((List.range n).foldl (fun u _ => u.countErr (.ash a)) t).ash b = t.ash b := by
    induction n with
    | zero => rfl
    | succ n ih => rw [List.range_succ, List.foldl_append]; simpa using ih
  rw [State.countRun, counts]
  simp [State.ash]

/-- A run without a fault leaves its ashlar, the instruction executed. -/
theorem State.commitRun_ash {s : State} {a : Ash} {i : EngInstr} {r : Run} (clean : r.fault = none) :
    (s.commitRun a i r).ash a = updInstr r.v i.engine i.order fun j => { j with phase := .executed } := by
  simp [State.commitRun, clean]

/-! ### The vector engine -/

theorem vecTurn_starts {s : State} {a : Ash} {i : EngInstr} {op func : Nat} (h : Starts s a .vector i)
    (opcode : opcodeOf i = op) (function : bits (iw i 6) 4 4 = func) :
    vecTurn s a op func = .next ((startedState s a i).commitVec a (started (s.ash a) i)
      (runVec ((startedState s a i).ash a) (started (s.ash a) i))) := by
  rw [vecTurn, atAsh_runs h.runs, startHead_starts h (by simp [opcode, function])]

theorem optTurn_starts {s : State} {a : Ash} {i : EngInstr} {rule : Nat} (h : Starts s a .vector i)
    (opcode : opcodeOf i = 0x30) (isRule : bits (iw i 6) 0 4 = rule) :
    optTurn s a rule = .next ((startedState s a i).commitRun a (started (s.ash a) i)
      (runOptupd ((startedState s a i).ash a) (started (s.ash a) i))) := by
  rw [optTurn, atAsh_runs h.runs, startHead_starts h (by simp [opcode, isRule])]

/-- Each vector command is the turn of its opcode and FUNC (R233). -/
theorem exec_vecCommand (s : State) (a : Ash) : ∀ c ∈ vecCommands a, exec c.1 s = vecTurn s a c.2.1 c.2.2 := by
  simp only [vecCommands, List.cons_append, List.nil_append, List.forall_mem_cons, List.not_mem_nil, false_implies, implies_true, and_true]
  and_intros <;> rfl

/-- Each OPTUPD command is the turn of its rule (R251). -/
theorem exec_optCommand (s : State) (a : Ash) : ∀ c ∈ optCommands a, exec c.1 s = optTurn s a c.2 := by
  simp only [optCommands, List.forall_mem_cons, List.not_mem_nil, false_implies, implies_true, and_true]
  and_intros <;> rfl

/-! ### MLOGIC (R240) -/

/-- The takes of a waiter change pegs alone (R374). -/
theorem takeAll_only (ws : List Wait) (v : Ashlar) : ∃ pegs, takeAll v ws = { v with pegs := pegs } := by
  induction ws generalizing v with
  | nil => exact ⟨v.pegs, rfl⟩
  | cons w ws ih =>
    obtain ⟨pegs, e⟩ := ih (takeAll v [w])
    refine ⟨pegs, e.trans ?_⟩
    simp only [takeAll, List.foldl_cons, List.foldl_nil]
    split <;> rfl

/-- A cycle's decision changes pegs, and marks who starts (R376). -/
theorem decideCycle_only (v : Ashlar) (cands : List (Nat × List Wait)) :
    ∃ pegs won, decideCycle v cands = { v with pegs := pegs, won := won } := by
  have folded (l : List (Nat × List Wait)) (u : Ashlar) : ∃ pegs, l.foldl (fun u c => takeAll u c.2) u = { u with pegs := pegs } := by
    induction l generalizing u with
    | nil => exact ⟨u.pegs, rfl⟩
    | cons c l ih =>
      obtain ⟨p, e⟩ := takeAll_only c.2 u
      obtain ⟨q, f⟩ := ih (takeAll u c.2)
      exact ⟨q, f.trans (by rw [e])⟩
  obtain ⟨pegs, e⟩ := folded _ v
  exact ⟨pegs, _, by rw [decideCycle, e]⟩

/-- A start changes pegs, the engines' queues, the watchdogs and who is marked as started (R60, R374, R376, R386). -/
theorem startIn_only (v : Ashlar) (i : EngInstr) :
    ∃ pegs engines won dogs, startIn v i = { v with pegs := pegs, engines := engines, won := won, watchdogs := dogs } := by
  unfold startIn passWaiter decideNow
  dsimp only
  split
  · exact ⟨_, _, _, _, rfl⟩
  · obtain ⟨pegs, won, e⟩ := decideCycle_only v (candidates v (engCandidates v) (joinerWait v))
    rw [e]
    exact ⟨_, _, _, _, rfl⟩

@[simp] theorem startIn_masks (v : Ashlar) (i : EngInstr) : (startIn v i).masks = v.masks := by
  obtain ⟨_, _, _, _, e⟩ := startIn_only v i
  rw [e]

@[simp] theorem startIn_spad (v : Ashlar) (i : EngInstr) : (startIn v i).spad = v.spad := by
  obtain ⟨_, _, _, _, e⟩ := startIn_only v i
  rw [e]

/-- MLOGIC runs without a fault and leaves its operation's result in MDST. -/
theorem runVec_mlogic {v : Ashlar} {i : EngInstr} (vector : i.engine = .vector) (opcode : opcodeOf i = 0x26) :
    (runVec v i).r = Run.start (v.setMask (vecOf i).mdst (vecLogic v (vecOf i))) := by
  have op : (vecOf i).op = 0x26 := opcode
  have writes : masksWritten i = [(vecOf i).mdst] := by simp [masksWritten, vector, opcode, vecOf]
  simp [runVec, op, writes, VRun.settle, VRun.start, Run.note, Run.start, Ashlar.setMask]

/-- What a vector run commits to mask buffers and scratchpad is what it leaves there. -/
theorem commitVec_clean {s : State} {a : Ash} {i : EngInstr} {x : VRun} (clean : x.r.fault = none) :
    ((s.commitVec a i x).ash a).masks = x.r.v.masks ∧ ((s.commitVec a i x).ash a).spad = x.r.v.spad := by
  unfold State.commitVec
  dsimp only
  split <;> simp [State.commitRun_ash clean, updInstr, Ashlar.setEng]

theorem vecTurn_mlogic {s : State} {a : Ash} {i : EngInstr} {func : Nat} (h : Starts s a .vector i)
    (opcode : opcodeOf i = 0x26) (function : (vecOf i).func = func) :
    ∃ u, vecTurn s a 0x26 func = .next u ∧
      (u.ash a).masks = (s.ash a).masks.set (ix 4 (vecOf i).mdst (by decide)) (vecLogic (s.ash a) (vecOf i)) ∧
      (u.ash a).spad = (s.ash a).spad := by
  have run := runVec_mlogic (v := startIn (s.ash a) i) (i := started (s.ash a) i) h.engine opcode
  obtain ⟨masks, spad⟩ := commitVec_clean (s := startedState s a i) (a := a) (i := started (s.ash a) i)
    (x := runVec (startIn (s.ash a) i) (started (s.ash a) i)) (by rw [run]; rfl)
  refine ⟨_, vecTurn_starts h opcode function, ?_, ?_⟩
  · rw [startedState_ash, masks, run]
    simp only [Run.start, Ashlar.setMask, startIn_masks, vecLogic]
    rfl
  · rw [startedState_ash, spad, run]
    exact startIn_spad _ _

/-- Settles O14, command by command, and for MLOGIC operation by operation. -/
theorem vectorEngine : Obligations.VectorEngine := by
  refine ⟨fun s a i h => ⟨fun c mem opcode function => ?_, fun c mem opcode rule => ?_⟩, fun s a i h opcode => ?_⟩
  · rw [exec_vecCommand s a c mem, vecTurn_starts h opcode function]
  · rw [exec_optCommand s a c mem, optTurn_starts h opcode rule]
  · intro m p q gives
    have op {c : Instr} {func : Nat} {x : BitVec 4096} (turn : exec c s = vecTurn s a 0x26 func)
        (result : m.func = func → vecLogic (s.ash a) m = x) : gives c func x := fun function => by
      rw [turn, ← result function]
      exact vecTurn_mlogic h opcode function
    have result {func : Nat} (function : m.func = func) : vecLogic (s.ash a) m = vecLogic (s.ash a) { m with func := func } := by
      rw [← function]
    exact ⟨op rfl result, op rfl result, op rfl result, op rfl result, op rfl result, op rfl result, op rfl result⟩

/-! ### The matrix engine -/

theorem exec_mma {s : State} {a : Ash} (runs : AshRuns s a) : exec (.mma a) s = .next (matrixTurn s a 1 runMma) :=
  atAsh_runs runs _

theorem exec_mwload {s : State} {a : Ash} (runs : AshRuns s a) : exec (.mwload a) s = .next (matrixTurn s a 2 runMwload) :=
  atAsh_runs runs _

/-- With no instruction preloaded the head of the queue loads its own tiles (R158). -/
theorem matrixTurn_starts {s : State} {a : Ash} {i : EngInstr} {opc : Nat} (h : Starts s a .matrix i)
    (fresh : preloaded (s.ash a) = none) (opcode : opcodeOf i = opc) (run : Ashlar → EngInstr → Bool → Run) :
    matrixTurn s a opc run = (startedState s a i).commitRun a (started (s.ash a) i)
      (settleTiles (run ((startedState s a i).ash a) (started (s.ash a) i) false)) := by
  simp only [matrixTurn, fresh]
  exact startHead_starts h (by simp [opcode]) _

/-- A preloaded instruction has its tile in the shadow buffer, or loads it anew (R161). -/
theorem matrixTurn_preloaded {s : State} {a : Ash} {i : EngInstr} {opc : Nat} (pre : preloaded (s.ash a) = some i)
    (opcode : opcodeOf i = opc) (run : Ashlar → EngInstr → Bool → Run) :
    matrixTurn s a opc run = commitPreloaded s a i
      (if (s.ash a).shadowFor = some (BitVec.ofNat 5 i.order) then run (swapTiles (s.ash a)) i true else run (s.ash a) i false) := by
  simp only [matrixTurn, pre, opcode, if_true]

theorem exec_mwdrop {s : State} {a : Ash} {i : EngInstr} (h : Starts s a .matrix i) (opcode : opcodeOf i = 3) :
    exec (.mwdrop a) s = .next ((startedState s a i).commitRun a (started (s.ash a) i)
      (Run.start (dropTiles ((startedState s a i).ash a)))) := by
  rw [← startHead_starts h (want := fun i => opcodeOf i == 3) (by simp [opcode])
    fun t i => t.commitRun a i (Run.start (dropTiles (t.ash a)))]
  exact atAsh_runs h.runs _

/-- Pops change windows alone (R271). -/
theorem popRanges_only (v : Ashlar) (i : EngInstr) (writesToo : Bool) :
    ∃ windows, popRanges v i writesToo = { v with windows := windows } := by
  have folded (due : Nat → Prop) [DecidablePred due] (slots : Nat → Nat) (l : List Nat) (u : Ashlar) : ∃ windows,
      l.foldl (fun u n => if due n then popRing u n (slots n) else u) u = { u with windows := windows } := by
    induction l generalizing u with
    | nil => exact ⟨u.windows, rfl⟩
    | cons n l ih =>
      obtain ⟨windows, e⟩ := ih (if due n then popRing u n (slots n) else u)
      refine ⟨windows, e.trans ?_⟩
      split <;> rfl
  exact folded (fun n => namesWin i 2 n = writesToo) _ _ v

/-- A faulted instruction's end changes windows and its queue alone (R78). -/
theorem ranToEnd_only (v : Ashlar) (i : EngInstr) :
    ∃ windows engines, ranToEnd v i = { v with windows := windows, engines := engines } := by
  have popped : ∃ windows, (if i.popped then v else popRanges v i false) = { v with windows := windows } := by
    split
    · exact ⟨v.windows, rfl⟩
    · exact popRanges_only v i false
  obtain ⟨w, e⟩ := popped
  obtain ⟨x, f⟩ := popRanges_only { v with windows := w } i true
  unfold ranToEnd completeRings
  rw [e, f]
  dsimp only
  split <;> exact ⟨_, _, rfl⟩

/-- An instruction whose preload has faulted leaves no tile (R78, R160). -/
theorem commitPreloaded_faulted {s : State} {a : Ash} {i : EngInstr} (r : Run) (faulted : i.faulted = true) :
    ((commitPreloaded s a i r).ash a).active = Tile.reset ∧ ((commitPreloaded s a i r).ash a).shadow = Tile.reset := by
  obtain ⟨w, q, e⟩ := ranToEnd_only (dropTiles r.v) i
  simp only [commitPreloaded, faulted, if_true, State.ash_onAsh_same, State.countRun_ash, State.ash_setAsh_same, e]
  exact ⟨rfl, rfl⟩

/-- A preload without a fault puts its tile into the shadow buffer (R161). -/
theorem exec_weightPreload {s : State} {a : Ash} {i : EngInstr} {t : Tile} {r : Run} (runs : AshRuns s a)
    (single : (s.ash a).active.pair = false) (next : preloadable (s.ash a) = some i)
    (load : loadTile (Run.start (preloadStart (s.ash a) i)) (started (s.ash a) i) (mmaOf i) (offLo i 11)
      (if opcodeOf i = 1 ∧ (mmaOf i).wMode = 0 then (mmaOf i).ext ((mmaOf i).kcnt == 1) else (mmaOf i).kc)
      (if opcodeOf i = 1 ∧ (mmaOf i).wMode = 0 then 0 else (mmaOf i).wtag) = (t, r))
    (clean : r.fault = none) : exec (.weightPreload a) s =
      .next ((s.setAsh a { r.v with shadow := t, shadowFor := some (i.order : BitVec 5) }).countRun a r.ce r.ue 0) := by
  change execWeightPreload a s = _
  simp [execWeightPreload, atAsh_runs runs, weightPreload, single, next, load, clean]

/-- Settles O15, by whether the instruction at its turn has been preloaded. -/
theorem matrixTurns : Obligations.MatrixTurns := by
  intro s a i t j
  refine ⟨fun h fresh => ⟨?_, ?_, ?_⟩, fun runs pre clean => ⟨?_, ?_⟩, fun runs pre faulted => ?_, fun runs single next => ?_⟩
  · intro op
    rw [exec_mma h.runs, matrixTurn_starts h fresh op]
  · intro op
    rw [exec_mwload h.runs, matrixTurn_starts h fresh op]
  · intro op
    refine ⟨_, exec_mwdrop h op, ?_⟩
    rw [State.commitRun_ash rfl]
    exact ⟨rfl, rfl⟩
  · intro op
    rw [exec_mma runs, matrixTurn_preloaded pre op, commitPreloaded, clean]
    rfl
  · intro op
    rw [exec_mwload runs, matrixTurn_preloaded pre op, commitPreloaded, clean]
    rfl
  · refine ⟨matrixTurn s a (opcodeOf i) (if opcodeOf i = 1 then runMma else runMwload), fun op => ?_, fun op => ?_, fun _ => ?_⟩
    · rw [exec_mma runs, op, if_pos rfl]
    · rw [exec_mwload runs, op, if_neg (by decide)]
    · rw [matrixTurn_preloaded pre rfl]
      exact commitPreloaded_faulted _ faulted
  · intro m l clean
    refine ⟨_, exec_weightPreload runs single next rfl clean, ?_⟩
    rw [State.countRun_ash, State.ash_setAsh_same]
    exact ⟨rfl, rfl, rfl⟩

end Sys2Proof.Machine
end

section
/-! PROOF. The stops of an ashlar: freeze and its end, soft reset, RESUME and FLUSH (R75 to R79, R139, R383). -/

namespace Sys2Proof.Machine

/-! ### Engines as they are set -/

theorem engineIx_injective {e f : Engine} (h : engineIx e = engineIx f) : e = f := by
  revert h; cases e <;> cases f <;> decide

/-- An engine reads as it was last set. -/
theorem Ashlar.eng_setEng (v : Ashlar) (e f : Engine) (q : EngineState) :
    (v.setEng e q).eng f = if f = e then q else v.eng f := by
  by_cases h : f = e
  · subst h; simp [Ashlar.eng, Ashlar.setEng]
  · have other : (engineIx e : Nat) ≠ engineIx f := fun x => h (engineIx_injective (Fin.ext x)).symm
    rw [if_neg h]
    exact Vector.getElem_set_ne (engineIx e).isLt (engineIx f).isLt other

/-- What each step of a fold leaves alone, the fold does. -/
theorem foldl_keeps {α β γ : Type} {step : α → β → α} (x : α → γ) (keeps : ∀ v e, x (step v e) = x v) (l : List β) (v : α) :
    x (l.foldl step v) = x v := by
  induction l generalizing v with
  | nil => rfl
  | cons e l ih => exact (ih _).trans (keeps v e)

/-- A step made once for each engine of a list changes just those engines. -/
theorem foldl_eng {step : Ashlar → Engine → Ashlar} {g : EngineState → EngineState}
    (one : ∀ v e f, (step v e).eng f = if f = e then g (v.eng e) else v.eng f) {l : List Engine} (once : l.Nodup) (v : Ashlar)
    (f : Engine) : (l.foldl step v).eng f = if f ∈ l then g (v.eng f) else v.eng f := by
  induction l generalizing v with
  | nil => rfl
  | cons e l ih =>
    obtain ⟨notIn, once⟩ := List.nodup_cons.1 once
    rw [List.foldl_cons, ih once, one]
    by_cases h : f = e
    · subst h; simp [notIn]
    · simp [h]

theorem enginesOf_nodup (mask : BitVec 4) : (enginesOf mask).Nodup := List.Pairwise.filter _ (by decide)

/-! ### Freeze (R75, R383) -/

/-- Keeping the waiter masks changes no peg's value or deferred sum, and nothing but pegs (R388). -/
theorem keepMasks_only (v : Ashlar) : ∃ pegs : Vector Peg 48, keepMasks v = { v with pegs := pegs } ∧
    ∀ k : Fin 48, pegs[k].value = v.pegs[k].value ∧ pegs[k].deferred = v.pegs[k].deferred := by
  have folded (take watch : Nat → BitVec 5) (l : List Nat) (u : Ashlar) : ∃ pegs : Vector Peg 48,
      l.foldl (fun u p => u.setPeg p { u.peg p with take := take p, watch := watch p }) u = { u with pegs := pegs } ∧
        ∀ k : Fin 48, pegs[k].value = u.pegs[k].value ∧ pegs[k].deferred = u.pegs[k].deferred := by
    induction l generalizing u with
    | nil => exact ⟨u.pegs, rfl, fun k => ⟨rfl, rfl⟩⟩
    | cons p l ih =>
      obtain ⟨pegs, e, same⟩ := ih (u.setPeg p { u.peg p with take := take p, watch := watch p })
      refine ⟨pegs, e, fun k => ?_⟩
      rw [(same k).1, (same k).2]
      by_cases h : pegIx p = k
      · subst h; simp [Ashlar.setPeg, Ashlar.peg]
      · have other : (pegIx p : Nat) ≠ k := fun x => h (Fin.ext x)
        simp [Ashlar.setPeg, other]
  exact folded _ _ _ v

theorem exec_freezeSet {s : State} {a : Ash} (runs : AshRuns s a) : exec (.freezeSet a) s = .next (freezeOn s a) :=
  atAsh_runs runs _

theorem exec_freezeClear {s : State} {a : Ash} (runs : AshRuns s a) : exec (.freezeClear a) s = .next (freezeOff s a) :=
  atAsh_runs runs _

/-- The end of a freeze while nothing waits for it adds the deferred sums (R383). -/
theorem freezeOff_ash {s : State} {a : Ash} (frozen : (s.ash a).frozen = true) (noFadds : (s.ash a).faddQueue = [])
    (noTrap : (s.ash a).joiner.held = []) (noHalt : (s.ash a).joiner.haltReq = false) :
    (freezeOff s a).ash a = { addDeferred { s.ash a with frozen := false } with
      pegs := (addDeferred (s.ash a)).pegs.map fun q => { q with take := 0, watch := 0 }, faddQueue := [] } := by
  simp only [freezeOff, drainFadds, frozen, Bool.not_true, Bool.false_eq_true, if_false, State.ash_onAsh_same, addDeferred, noFadds,
    List.foldl_nil, noHalt]
  rw [takeHeld_none _ _ (by simp [noTrap])]
  simp

/-! ### Soft reset (R76, R139) -/

theorem exec_softReset {s : State} {a : Ash} (runs : AshRuns s a) : exec (.softReset a) s = .next (softReset s a) :=
  atAsh_runs runs _

@[simp] theorem State.send_ash (s : State) (p : Packet) (a : Ash) : (s.send p).ash a = s.ash a := by
  simp [State.ash]

/-- A soft reset resets the ashlar, whose configuration port has ended its order. -/
theorem softReset_ash (s : State) (a : Ash) : ∃ port, (softReset s a).ash a = softResetAsh { s.ash a with port := port } := by
  have answers (l : List Packet) (t : State) : (l.foldl (fun t p => t.nak p 5) t).ash a = t.ash a :=
    foldl_keeps (fun t : State => t.ash a) (fun t p => State.send_ash t _ a) l t
  have ended : ∃ port, (portEnd s a 4).ash a = { s.ash a with port := port } := by
    unfold portEnd
    split
    · exact ⟨(s.ash a).port, rfl⟩
    · exact ⟨none, by simp⟩
  obtain ⟨port, e⟩ := ended
  exact ⟨port, by rw [softReset, answers, State.ash_onAsh_same, e]⟩

/-! ### RESUME (R79) -/

/-- An engine after RESUME: a faulted one without its faulted instructions, going on. -/
def resumed (q : EngineState) : EngineState := if q.faulted then ⟨q.queue.filter fun i => !i.faulted, false⟩ else q

theorem resumed_faulted (q : EngineState) : (resumed q).faulted = false := by
  unfold resumed; split
  · rfl
  · next h => exact Bool.eq_false_iff.2 h

theorem resumed_queue (q : EngineState) :
    (resumed q).queue = if q.faulted then q.queue.filter (fun i => !i.faulted) else q.queue := by
  unfold resumed; split <;> rfl

theorem resumeEngine_eng (v : Ashlar) (e f : Engine) :
    (resumeEngine v e).eng f = if f = e then resumed (v.eng e) else v.eng f := by
  by_cases h : (v.eng e).faulted
  · have engines : (resumeEngine v e).engines = (v.setEng e (resumed (v.eng e))).engines := by
      simp only [resumeEngine, resumed, h, Bool.not_true, Bool.false_eq_true, if_false, if_true]
      split <;> split <;> rfl
    rw [← Ashlar.eng_setEng]
    exact congrArg (·[engineIx f]) engines
  · have still : resumeEngine v e = v := by simp [resumeEngine, h]
    rw [still, resumed, if_neg h]
    split
    · next e => rw [e]
    · rfl

theorem resumeEngine_keeps (v : Ashlar) (e : Engine) :
    ((resumeEngine v e).joiner, (resumeEngine v e).spad) = (v.joiner, v.spad) := by
  unfold resumeEngine
  dsimp only
  split
  · rfl
  · split <;> split <;> rfl

theorem exec_resume {s : State} {a : Ash} (runs : AshRuns s a) (mask : BitVec 4) :
    exec (.resume a mask) s = .next (s.onAsh a fun v => (enginesOf mask).foldl resumeEngine v) := atAsh_runs runs _

/-! ### FLUSH (R77) -/

/-- The end of programs changes program slots and windows alone (R286). -/
theorem endProgs_only (l : List EngInstr) (v : Ashlar) :
    ∃ progs windows, l.foldl (fun w i => endProg w i false) v = { v with progs := progs, windows := windows } := by
  induction l generalizing v with
  | nil => exact ⟨v.progs, v.windows, rfl⟩
  | cons i l ih =>
    obtain ⟨progs, windows, e⟩ := ih (endProg v i false)
    refine ⟨progs, windows, e.trans ?_⟩
    unfold endProg
    dsimp only
    split <;> split <;> rfl

/-- A flush empties its engine's queue, and leaves the other engines, the pegs and the scratchpad. -/
theorem flushEngine_keeps (v : Ashlar) (e : Engine) :
    (flushEngine v e).engines = (v.setEng e { v.eng e with queue := [] }).engines ∧
      ((flushEngine v e).pegs, (flushEngine v e).spad) = (v.pegs, v.spad) := by
  cases e with
  | matrix => exact ⟨rfl, rfl⟩
  | vector => exact ⟨rfl, rfl⟩
  | send => exact ⟨rfl, rfl⟩
  | stream =>
    unfold flushEngine
    dsimp only
    obtain ⟨progs, windows, e⟩ := endProgs_only (v.eng .stream).queue _
    rw [e]
    exact ⟨rfl, rfl⟩

theorem flushEngine_eng (v : Ashlar) (e f : Engine) :
    (flushEngine v e).eng f = if f = e then { v.eng e with queue := [] } else v.eng f := by
  rw [← Ashlar.eng_setEng]
  exact congrArg (·[engineIx f]) (flushEngine_keeps v e).1

theorem exec_flush {s : State} {a : Ash} (runs : AshRuns s a) (mask : BitVec 4) (frozen : (s.ash a).frozen = true) :
    exec (.flush a mask) s = .next (s.onAsh a fun v => (enginesOf mask).foldl flushEngine v) := by
  exact (atAsh_runs runs _).trans (congrArg _ (if_pos frozen))

/-- Settles O18: the freeze and the soft reset by the ashlar they leave, RESUME and FLUSH engine by engine. -/
theorem ashlarStops : Obligations.AshlarStops := by
  refine ⟨fun s a runs => ⟨?_, fun frozen noFadds noTrap noHalt => ?_⟩, fun s a runs => ?_, fun s a mask runs => ⟨?_, fun frozen => ?_⟩⟩
  · refine ⟨_, exec_freezeSet runs, ?_⟩
    rw [freezeOn, State.ash_onAsh_same]
    split
    · next frozen => exact ⟨frozen, rfl, rfl, rfl, rfl, fun p => ⟨rfl, rfl⟩⟩
    · obtain ⟨pegs, e, same⟩ := keepMasks_only (s.ash a)
      rw [e]
      exact ⟨rfl, rfl, rfl, rfl, rfl, fun p => same (pegIx p)⟩
  · refine ⟨_, exec_freezeClear runs, ?_⟩
    rw [freezeOff_ash frozen noFadds noTrap noHalt]
    refine ⟨rfl, rfl, rfl, fun p => ?_⟩
    simp [addDeferred, Ashlar.peg]
  · obtain ⟨port, e⟩ := softReset_ash s a
    refine ⟨_, exec_softReset runs, ?_⟩
    rw [e]
    have pegs (p : Nat) : ((softResetAsh { s.ash a with port := port }).peg p).value = 0 := by
      simp [softResetAsh, Ashlar.peg, resetPeg, Peg.reset]
    exact ⟨rfl, rfl, rfl, rfl, rfl, rfl, rfl, pegs, rfl, rfl, rfl, rfl, rfl, rfl, rfl, rfl, rfl, rfl, rfl⟩
  · refine ⟨_, exec_resume runs mask, ?_⟩
    rw [State.ash_onAsh_same]
    have engines := foldl_eng resumeEngine_eng (enginesOf_nodup mask) (s.ash a)
    have kept := foldl_keeps (fun v : Ashlar => (v.joiner, v.spad)) resumeEngine_keeps (enginesOf mask) (s.ash a)
    obtain ⟨joiner, spad⟩ := Prod.mk.inj kept
    refine ⟨fun e mem => ?_, fun e mem => ?_, joiner, spad⟩
    · rw [engines, if_pos mem]
      exact ⟨resumed_faulted _, resumed_queue _⟩
    · rw [engines, if_neg mem]
  · refine ⟨_, exec_flush runs mask frozen, ?_⟩
    rw [State.ash_onAsh_same]
    have engines := foldl_eng (g := fun q => { q with queue := [] }) flushEngine_eng (enginesOf_nodup mask) (s.ash a)
    have kept := foldl_keeps (fun v : Ashlar => (v.pegs, v.spad)) (fun v e => (flushEngine_keeps v e).2) (enginesOf mask) (s.ash a)
    obtain ⟨pegs, spad⟩ := Prod.mk.inj kept
    refine ⟨fun e mem => ?_, fun e mem => ?_, pegs, spad⟩
    · rw [engines, if_pos mem]
      exact ⟨rfl, rfl⟩
    · rw [engines, if_neg mem]

end Sys2Proof.Machine
end

section
/-! PROOF. Two statements that fail as they stand, each with the state that refutes it: a KREQ that goes again (R349, R356) and a
debugger write over a memory outside canonical form (R95). -/

namespace Sys2Proof.Machine

/-- The module as after reset, with the fabric of die 0 running. -/
def dieZeroRuns : State := State.reset.setDie 0 { Die.reset with run := .running }

/-- Its first ashlar. -/
def firstAsh : Ash := ⟨0, 0, 0⟩

/-! ### A KREQ that goes again -/

theorem exec_kreqRetry {s : State} {a : Ash} {i : EngInstr} (runs : AshRuns s a) (thawed : (s.ash a).frozen = false)
    (waits : (inFlight (s.ash a)).find? (fun i => decide (i.engine = .send ∧ i.wait = .grantRetry)) = some i)
    (port : portBusy s a (ashVc (s.ash a)) = false) : exec (.kreqRetry a) s = .next (keySend s a i) := by
  change execKreqRetry a s = _
  simp only [execKreqRetry, atAsh_runs runs, waits]
  rw [if_neg (by simp [thawed, port])]

/-- A KSEND whose request has been answered RETRY. -/
def ksendToRetry : EngInstr where
  engine := .send
  seq := 0
  order := 0
  words := []
  pc := 0
  phase := .running
  faulted := false
  reads := []
  write := none
  slotA := 0
  slotB := 0
  slotW := 0
  popped := false
  sent := 0
  wait := .grantRetry
  early := false

/-- An ashlar whose send engine holds it, not yet blocked. -/
def retryState : State := dieZeroRuns.onAsh firstAsh fun v => v.setEng .send ⟨[ksendToRetry], false⟩

/-- Refutes O17: with its KREQ sent again the engine is blocked on its grant, cause 3 in SD_BLOCK (R356), which the statement's
answer to KREQ_RETRY leaves as it was. -/
theorem not_sendEngine : ¬ Obligations.SendEngine := by
  rintro ⟨-, resumes, -⟩
  have runs : AshRuns retryState firstAsh := ⟨by decide +kernel, by decide +kernel⟩
  have thawed : (retryState.ash firstAsh).frozen = false := by decide +kernel
  have waits : (inFlight (retryState.ash firstAsh)).find? (fun i => decide (i.engine = .send ∧ i.wait = .grantRetry)) =
      some ksendToRetry := by decide +kernel
  have port : portBusy retryState firstAsh (ashVc (retryState.ash firstAsh)) = false := by decide +kernel
  obtain ⟨-, retries, -⟩ := (resumes retryState firstAsh ksendToRetry).1 runs thawed
  have claimed := retries waits port
  rw [exec_kreqRetry runs thawed waits port] at claimed
  have same := congrArg (fun u : State => (u.ash firstAsh).sdBlock) (Host.Outcome.next.inj claimed)
  have blocked : ((keySend retryState firstAsh ksendToRetry).ash firstAsh).sdBlock ≠ 0 := by decide +kernel
  exact blocked (same.trans (by decide +kernel))

/-! ### A debugger write over a memory outside canonical form -/

theorem exec_dbgWrite {s : State} {a : Ash} (runs : AshRuns s a) : exec (.dbgWrite a) s = .next (dbgWrite s a) :=
  atAsh_runs runs _

/-- A debugger about to write 0 to word 0 of a data memory that lists two bytes at address 0. -/
def twiceListed : State :=
  (dieZeroRuns.setReg (.ash firstAsh) 0xB0 0x40000000).onJ firstAsh fun j => { j with dmem := [(0, 1), (0, 2)] }

/-- Refutes O20: the statement takes every state, and where a memory is not in canonical form (`memWf`) the byte 0 written takes
the first of two bytes listed at its address away, so that the second reads back and the half is no longer clean. -/
theorem not_ashlarContext : ¬ Obligations.AshlarContext := by
  rintro ⟨writes, -⟩
  have runs : AshRuns twiceListed firstAsh := ⟨by decide +kernel, by decide +kernel⟩
  obtain ⟨u, written, low, -⟩ := (writes twiceListed firstAsh runs).1 (by decide +kernel) (by decide +kernel)
  obtain rfl := Host.Outcome.next.inj ((exec_dbgWrite runs).symm.trans written)
  have corrected : (readHalf ((dbgWrite twiceListed firstAsh).ash firstAsh).joiner.dmem
      (2 * twiceListed.fld (.ash firstAsh) 0xB0 0 13)).2 = .corrected 0 := by decide +kernel
  rw [low] at corrected
  exact absurd corrected (by decide)

end Sys2Proof.Machine
end

section
/-! PROOF. The Keystone: contexts and grants (R175, R176, R178), the sums in rank order (R174), releases and their drain
(R187). -/

namespace Sys2Proof.Machine

/-! ### Commands of a die, packets at a block -/

/-- A command of a die whose fabric runs does what the die does. -/
theorem atDie_runs {s : State} {die : Nat} (runs : DieRuns s die) (go : Host.Outcome State Fault Refusal) :
    atDie s die go = go := by
  simp [atDie, atDieIf, runs.onPart, runs.awake]

theorem atDieIf_runs {s : State} {die : Nat} {ok : Bool} (runs : DieRuns s die) (legal : ok = true)
    (go : Host.Outcome State Fault Refusal) : atDieIf s die ok go = go := by
  simp [atDieIf, runs.onPart, runs.awake, legal]

/-- A clean packet that reaches its block is taken off the Mortar and acts there. -/
theorem toBlock_arrives {s : State} {p : Packet} {code die inst : Nat} (h : ArrivesBlock s p code die inst)
    (go : Nat → Nat → State → State) : toBlock s p code go = .next (go die inst (s.take p)) := by
  simp [toBlock, h.block, h.code, h.onPart, h.route, h.clean]

/-! ### A die's Keystone -/

theorem State.key_congr {s t : State} (same : t.dies = s.dies) (die : Nat) : t.key die = s.key die := by
  simp only [State.key, State.die, same]

theorem State.kctx_congr {s t : State} {die : Nat} (same : t.key die = s.key die) (c : Nat) :
    t.kctx die c = s.kctx die c := by
  simp only [State.kctx, same]

@[simp] theorem State.key_setKey_same (s : State) (die : Nat) (k : Keystone) : (s.setKey die k).key die = k := by
  simp [State.key, State.setKey]

@[simp] theorem State.setKctx_mas (s : State) (die c : Nat) (x : KeyCtx) : (s.setKctx die c x).mas = s.mas := rfl

@[simp] theorem State.kctx_setKctx_same (s : State) (die c : Nat) (x : KeyCtx) : (s.setKctx die c x).kctx die c = x := by
  simp [State.kctx, State.setKctx]

/-- A change of a die beside its Keystone leaves every Keystone as it was. -/
theorem State.key_setDie {s : State} {d : Nat} {v : Die} (same : v.key = s.key d) (e : Nat) :
    (s.setDie d v).key e = s.key e := by
  by_cases h : e % 8 = d % 8
  · have place : dieIdx e = dieIdx d := Fin.ext h
    simp [State.key, State.die, State.setDie, place, same]
  · rw [State.key, State.die_setDie_ne s v h, State.key]

theorem State.key_onEdge (s : State) (d : Nat) (side : Side) (n e : Nat) : (s.onEdge d side n).key e = s.key e :=
  State.key_setDie (by rfl) e

theorem State.perfAdd_dies (s : State) (p : Page) (off k : Nat) : (s.perfAdd p off k).dies = s.dies := by
  simp only [State.perfAdd]; split <;> simp

theorem State.key_countCrossings (s : State) (p : Packet) (e : Nat) : (s.countCrossings p).key e = s.key e := by
  unfold State.countCrossings
  refine (foldl_keeps (fun t : State => t.key e) (fun t c => ?_) _ _).trans (State.key_setDie (by rfl) e)
  have counted := State.key_congr (State.perfAdd_dies t (.lin c.1 c.2) 0x50 (flitsOf p.body)) e
  dsimp only
  split
  · exact (State.key_onEdge _ _ _ _ e).trans ((State.key_congr (State.perfAdd_dies _ _ _ _) e).trans counted)
  · exact counted

theorem State.countUe_dies (s : State) (p : Packet) : (s.countUe p).dies = s.dies := by
  unfold State.countUe
  dsimp only
  split
  · rfl
  · split
    · rfl
    · split
      · exact State.count16_dies _ _ _ _ _
      · rfl

/-- A packet taken off the Mortar leaves every Keystone as it was. -/
@[simp] theorem State.key_take (s : State) (p : Packet) (e : Nat) : (s.take p).key e = s.key e :=
  (State.key_congr (State.countUe_dies (s.countCrossings p) p) e).trans (State.key_countCrossings s p e)

@[simp] theorem State.kctx_take (s : State) (p : Packet) (e c : Nat) : (s.take p).kctx e c = s.kctx e c :=
  State.kctx_congr (State.key_take s p e) c

/-! ### Admission (R175, R176, R178) -/

/-- A KREQ that reaches the Keystone is judged there. -/
theorem exec_kreq {s : State} {p : Packet} {die inst : Nat} {r : KeyReq} (h : ArrivesBlock s p 7 die inst)
    (body : p.body = .kreq r) : exec (.kreq p) s = .next (keyRequested (s.take p) die p r) := by
  change execKreq p s = _
  simp [execKreq, body, h.code, toBlock_arrives h]

/-- Rank 0 of a reduction that is not open takes the lowest free context, where nothing waits before it. -/
theorem keyRequested_free {s : State} {die c : Nat} {p : Packet} {r : KeyReq} (rank : r.rank = 0)
    (closed : ctxOf (s.key die) r = none) (first : (s.key die).fifo = []) (free : freeCtx (s.key die) = some c) :
    keyRequested s die p r = keyAdmit s die c p r := by
  simp only [keyRequested, rank, closed, first, free, if_true]

theorem exec_keystoneAdmit {s : State} {die : Nat} (runs : DieRuns s die) :
    exec (.keystoneAdmit die) s = .next (keyOldest s die) := atDie_runs runs _

theorem keyOldest_free {s : State} {die c : Nat} {p : Packet} {rest : List Packet} {r : KeyReq}
    (oldest : (s.key die).fifo = p :: rest) (body : p.body = .kreq r) (closed : ctxOf (s.key die) r = none)
    (free : freeCtx (s.key die) = some c) :
    keyOldest s die = keyAdmit (s.setKey die { s.key die with fifo := rest }) die c p r := by
  simp only [keyOldest, oldest, body, closed, free]

theorem keyOldest_open {s : State} {die c : Nat} {p : Packet} {rest : List Packet} {r : KeyReq}
    (oldest : (s.key die).fifo = p :: rest) (body : p.body = .kreq r) (isOpen : ctxOf (s.key die) r = some c) :
    keyOldest s die = keyDrop0 (s.setKey die { s.key die with fifo := rest }) die c p r := by
  simp only [keyOldest, oldest, body, isOpen]

/-! ### Combination (R174) -/

/-- The four FP32 values of a flit. -/
def flitValues (payload : BitVec 128) : List Word := [0, 1, 2, 3].map fun j => BitVec.ofNat 32 (payload.toNat / 2 ^ (32 * j))

theorem exec_keystonePartial {s : State} {p : Packet} {die c : Nat} {ep : BitVec 3} {payload : BitVec 128} {yx : Bool}
    (h : ArrivesBlock s p 7 die c) (body : p.body = .chan ep payload yx) :
    exec (.keystonePartial p) s = .next (keyData (s.take p) die c payload) := by
  change execKeystonePartial p s = _
  simp only [execKeystonePartial, body, toBlock_arrives h]

/-- A flit of the granted rank that does not complete it is combined, and nothing else happens. -/
theorem keyData_partial {s : State} {die c : Nat} {payload : BitVec 128} (used : (s.kctx die c).used = true)
    (granted : (s.kctx die c).granted = true)
    (more : (keyCombine (s.kctx die c) (flitValues payload)).got < (s.kctx die c).req.nelem.toNat) :
    keyData s die c payload = s.setKctx die c (keyCombine (s.kctx die c) (flitValues payload)) := by
  unfold keyData
  rw [if_neg (by simp [used, granted])]
  exact if_pos more

/-- How many elements a flit brings: four, or those that are left. -/
def flitElems (x : KeyCtx) : Nat := min 4 (x.req.nelem.toNat - x.got)

/-- Rank 0's values join the sums as they are. -/
theorem keyCombine_first {x : KeyCtx} (vals : List Word) (first : x.next = 0) :
    (keyCombine x vals).sums = x.sums ++ (List.range (flitElems x)).map fun j => vals.getD j 0 := by
  simp only [keyCombine, first, if_true]
  rw [List.foldl_append_eq_append, ← List.flatMap_def, ← List.map_eq_flatMap]
  rfl

/-- An update of n elements of a list from a place on, one after the other. -/
def updateFrom (f : Nat → Word → Word) (lo n : Nat) (l : List Word) : List Word :=
  (List.range n).foldl (fun acc j => acc.set (lo + j) (f j (acc.getD (lo + j) 0))) l

theorem updateFrom_succ (f : Nat → Word → Word) (lo n : Nat) (l : List Word) :
    updateFrom f lo (n + 1) l = (updateFrom f lo n l).set (lo + n) (f n ((updateFrom f lo n l).getD (lo + n) 0)) := by
  simp [updateFrom, List.range_succ]

@[simp] theorem updateFrom_length (f : Nat → Word → Word) (lo n : Nat) (l : List Word) :
    (updateFrom f lo n l).length = l.length :=
  foldl_keeps List.length (fun _ _ => List.length_set) _ l

/-- The elements beside those updated stay. -/
theorem updateFrom_beside (f : Nat → Word → Word) {lo n k : Nat} (l : List Word) (beside : k < lo ∨ lo + n ≤ k) :
    (updateFrom f lo n l).getD k 0 = l.getD k 0 := by
  induction n with
  | zero => rfl
  | succ n ih =>
    have other : lo + n ≠ k := by omega
    rw [updateFrom_succ, ← ih (by omega)]
    simp [List.getD_eq_getElem?_getD, List.getElem?_set_ne other]

/-- Each element updated is updated once. -/
theorem updateFrom_at (f : Nat → Word → Word) {lo n j : Nat} (l : List Word) (inside : lo + n ≤ l.length) (below : j < n) :
    (updateFrom f lo n l).getD (lo + j) 0 = f j (l.getD (lo + j) 0) := by
  induction n with
  | zero => omega
  | succ n ih =>
    rw [updateFrom_succ]
    by_cases last : j = n
    · subst last
      have place : lo + j < (updateFrom f lo j l).length := by rw [updateFrom_length]; omega
      rw [← updateFrom_beside f (lo := lo) (n := j) l (.inr (Nat.le_refl _))]
      simp [List.getD_eq_getElem?_getD, List.getElem?_set_self place]
    · have other : lo + n ≠ lo + j := by omega
      rw [← ih (by omega) (by omega)]
      simp [List.getD_eq_getElem?_getD, List.getElem?_set_ne other]

/-- A later rank's values are added to the sums, element by element. -/
theorem keyCombine_later {x : KeyCtx} (vals : List Word) (later : x.next ≠ 0) :
    (keyCombine x vals).sums =
      updateFrom (fun j sum => rne32Code (Val.add (fp32 sum) (fp32 (vals.getD j 0)))) x.got (flitElems x) x.sums := by
  simp only [keyCombine, keyAdd, if_neg later, updateFrom, flitElems]

/-! ### Releases (R187) -/

theorem keyAnswer_mas (s : State) (p : Packet) (status : BitVec 2) (c : Nat) : (keyAnswer s p status c).mas = s.mas :=
  State.send_mas s _

@[simp] theorem State.keyInfo_dies (s : State) (die tag rank kind ctx : Nat) :
    (s.keyInfo die tag rank kind ctx).dies = s.dies := by
  unfold State.keyInfo; split <;> rfl
@[simp] theorem State.keyInfo_mas (s : State) (die tag rank kind ctx : Nat) :
    (s.keyInfo die tag rank kind ctx).mas = s.mas := by
  unfold State.keyInfo; split <;> rfl

@[simp] theorem keyAbort_mas (s : State) (die : Nat) (r : KeyReq) : (keyAbort s die r).mas = s.mas :=
  foldl_keeps State.mas (fun t p => keyAnswer_mas t p grantAbort 0) _ _

@[simp] theorem keyRelease_mas (s : State) (die c : Nat) : (keyRelease s die c).mas = s.mas := by
  unfold keyRelease
  dsimp only
  split <;> simp

/-- A context as its release leaves it. -/
def KeyCtx.released (x : KeyCtx) : KeyCtx := { x with used := false, granted := false, releasing := true }

/-- Beside registers and answers, a release aborts the waiters and marks the context. -/
theorem keyRelease_dies {s : State} {die c : Nat} (used : (s.kctx die c).used = true) :
    (keyRelease s die c).dies = ((keyAbort s die (s.kctx die c).req).setKctx die c (s.kctx die c).released).dies := by
  simp [keyRelease, used, KeyCtx.released]

/-- An open context that is released is no longer used and not to be taken. -/
theorem kctx_keyRelease {s : State} {die c : Nat} (used : (s.kctx die c).used = true) :
    (keyRelease s die c).kctx die c = (s.kctx die c).released :=
  (State.kctx_congr (State.key_congr (keyRelease_dies used) die) c).trans (State.kctx_setKctx_same _ die c _)

/-- The release of an open context sets BUSY. -/
theorem keyRelease_busy {s : State} {die c : Nat} (used : (s.kctx die c).used = true) :
    (keyRelease s die c).fld (.key die) 0x64 12 1 = 1 := by
  simp only [keyRelease, used, Bool.not_true, Bool.false_eq_true, if_false]
  exact State.fld_setFld_same _ _ _ _ _ _ (by decide)

theorem writeRelease_idle {s : State} {die : Nat} (c : Nat) (idle : s.fld (.key die) 0x64 12 1 = 0) :
    writeRelease s die c = keyRelease (s.setFld (.key die) 0x64 0 6 c) die c := by
  simp [writeRelease, keyReleaseCmd, idle]

theorem writeReleaseRect_idle {s : State} {die : Nat} (fence : Nat) (idle : s.fld (.key die) 0x64 12 1 = 0) :
    writeReleaseRect s die fence = keyReleaseRect (s.setFld (.key die) 0x64 8 4 fence) die fence := by
  simp [writeReleaseRect, keyReleaseCmd, idle]

@[simp] theorem writeRelease_mas (s : State) (die c : Nat) : (writeRelease s die c).mas = s.mas := by
  unfold writeRelease keyReleaseCmd
  split <;> simp

theorem exec_ctxRelease {s : State} {die c : Nat} (runs : DieRuns s die) (legal : c < 64) :
    exec (.ctxRelease die c) s = .next (writeRelease s die c) := atDieIf_runs runs (decide_eq_true legal) _

theorem exec_ctxReleaseRect {s : State} {die fence : Nat} (runs : DieRuns s die) (legal : fence < 16) :
    exec (.ctxReleaseRect die fence) s = .next (writeReleaseRect s die fence) := atDieIf_runs runs (decide_eq_true legal) _

/-! ### The end of a drain (R187) -/

theorem keyDrained_idle (s : State) (die : Nat) : (keyDrained s die).fld (.key die) 0x64 12 1 = 0 :=
  State.fld_setFld_same _ _ _ _ _ _ (by decide)

/-- Drained, every context may be taken again unless it is in use. -/
theorem kctx_keyDrained (s : State) (die c : Nat) :
    (keyDrained s die).kctx die c = { s.kctx die c with releasing := false } := by
  unfold keyDrained
  rw [State.kctx_congr (State.key_congr (State.setFld_dies _ _ _ _ _ _) die)]
  simp [State.kctx]

theorem writeDue_none {s : State} (noneDue : s.mas.keyHeld.all (fun x => !x.due) = true) : s.writeDue = s := by
  have nothing : s.mas.keyHeld.filter (fun x => x.due) = [] := by simpa [List.filter_eq_nil_iff] using noneDue
  rw [State.writeDue, nothing, List.foldl_nil]

/-- The releases that are due change no load. -/
theorem writeDue_loads (s : State) : s.writeDue.mas.loads = s.mas.loads := by
  refine foldl_keeps (fun t : State => t.mas.loads) (fun t x => ?_) _ s
  dsimp only
  split
  · rfl
  · rw [writeRelease_mas]

theorem loadsGoOn_none {s : State} {die : Nat}
    (noLoads : s.mas.loads.all (fun q => !(q.active && q.draining && q.die == die)) = true) : loadsGoOn s die = s := by
  have nothing : s.mas.loads.filter (fun q => q.active && q.draining && q.die == die) = [] := by
    rw [List.filter_eq_nil_iff]
    intro q mem waits
    have still := List.all_eq_true.1 noLoads q mem
    rw [waits] at still
    contradiction
  rw [loadsGoOn, nothing, List.foldl_nil]

theorem exec_releaseDrainEnd {s : State} {die : Nat} (runs : DieRuns s die) (busy : s.fld (.key die) 0x64 12 1 = 1) :
    exec (.releaseDrainEnd die) s = .next (loadsGoOn (keyDrained s die).writeDue die) :=
  (atDie_runs runs _).trans (if_pos (beq_iff_eq.2 busy))

/-- Settles O25: admission, combination and release command by command, then the sums of a context alone. -/
theorem keystone : Obligations.Keystone := by
  refine ⟨fun s die c p runs => ⟨?_, ?_, ?_, ?_, ?_, ?_⟩, fun x vals =>
    ⟨rfl, rfl, keyCombine_first vals, fun later inside => ?_⟩⟩
  · intro r inst arrives body rank closed first free
    rw [← State.key_take s p die] at closed first free
    rw [exec_kreq arrives body, keyRequested_free rank closed first free]
  · intro r rest oldest body
    rw [exec_keystoneAdmit runs]
    exact ⟨fun closed free => congrArg _ (keyOldest_free oldest body closed free),
      fun isOpen => congrArg _ (keyOldest_open oldest body isOpen)⟩
  · intro ep payload yx arrives body used granted y more
    rw [exec_keystonePartial arrives body]
    rw [← State.kctx_take s p] at used granted
    rw [keyData_partial used granted (by rw [State.kctx_take]; exact more), State.kctx_take]
    rfl
  · intro legal idle used
    have stillUsed : ((s.setFld (.key die) 0x64 0 6 c).kctx die c).used = true := used
    refine ⟨_, exec_ctxRelease runs legal, ?_⟩
    rw [writeRelease_idle c idle, kctx_keyRelease stillUsed]
    exact ⟨rfl, rfl, keyRelease_busy stillUsed⟩
  · intro legal idle
    rw [exec_ctxReleaseRect runs legal, writeReleaseRect_idle c idle]
  · intro busy u
    refine ⟨exec_releaseDrainEnd runs busy, fun noLoads => ?_, fun noneDue => writeDue_none noneDue,
      keyDrained_idle s die, fun m => ?_⟩
    · rw [exec_releaseDrainEnd runs busy, loadsGoOn_none (by rw [writeDue_loads]; exact noLoads)]
    · rw [kctx_keyDrained]
      exact ⟨rfl, rfl⟩
  · rw [keyCombine_later vals later]
    exact ⟨updateFrom_length _ _ _ _, fun j below => updateFrom_at _ x.sums inside below,
      fun k beside => updateFrom_beside _ x.sums beside⟩

end Sys2Proof.Machine
end

section
/-! PROOF. Plumb: what reaches a slot (R217, R219, R221), STALL (R356), snapshots and clears (R222), and a slot's configuration,
written and distributed (R225). -/

namespace Sys2Proof.Machine

/-! ### Arrivals at a slot (R219, R221) -/

/-- A sample raises no alarm where its slot has none enabled or has raised it already. -/
theorem exec_plumbSampleArrive {s : State} {a : Ash} {bins : PlumbSample} {rest : List PlumbSample} {x : PlumbSlot}
    (runs : AshRuns s a) (oldest : (s.ash a).plumbDone = bins :: rest)
    (sampled : slotSample (s.slot a.die (s.ash a).slot.slot) bins (s.ash a).plumbSkipped = x)
    (quiet : x.alarmCount = 0 ∨ x.alarm = true) :
    exec (.plumbSampleArrive a) s =
      .next ((s.setAsh a { s.ash a with plumbDone := rest, plumbSkipped := 0 }).setSlot a.die (s.ash a).slot.slot x) := by
  change execPlumbSampleArrive a s = _
  rw [execPlumbSampleArrive, atAsh_runs runs]
  simp only [oldest, sampled]
  refine if_neg ?_
  rintro ⟨enabled, clear, -⟩
  rcases quiet with off | raised
  · exact enabled off
  · rw [raised] at clear
    contradiction

/-- A count raises no FMT_SAT where it is none of the four saturation counts or its slot has the event disabled. -/
theorem exec_satCountArrive {s : State} {a : Ash} {c : SatCounter} {rest : List SatCounter} {x : PlumbSlot}
    (runs : AshRuns s a) (oldest : (s.ash a).satOut = c :: rest) (counted : s.slot a.die (s.ash a).slot.slot = x)
    (quiet : 20 ≤ satPlace c ∨ x.satEn = false) :
    exec (.satCountArrive a) s =
      .next ((s.setAsh a { s.ash a with satOut := rest }).setSlot a.die (s.ash a).slot.slot { x with
        live := bumpLive x.live (satPlace c) 1, satSum := if satPlace c < 20 then x.satSum + 1 else x.satSum }) := by
  change execSatCountArrive a s = _
  rw [execSatCountArrive, atAsh_runs runs]
  simp only [oldest, counted]
  refine if_neg ?_
  rintro ⟨saturation, enabled, -⟩
  rcases quiet with other | disabled
  · omega
  · rw [disabled] at enabled
    contradiction

/-! ### Registers of a page that raises an event (R673, R675) -/

theorem State.reg_congr {s t : State} (same : t.regs = s.regs) (p : Page) (off : Nat) : t.reg p off = s.reg p off := by
  rw [State.reg, State.reg, same]

theorem State.reg_setFld_off (s : State) (p : Page) {off o : Nat} (lo n v : Nat) (h : o ≠ off) :
    (s.setFld p off lo n v).reg p o = s.reg p o := s.reg_setReg_off p _ h

section
variable (s : State) (p : Page) (e : Ev) (addr : Nat) {off : Nat} (beyond : 0x28 < off)
include beyond

/-- ERR_COUNT is at 0x028, the last header register that an event touches; the registers beyond it stay. -/
theorem State.reg_countErr_beyond : (s.countErr p).reg p off = s.reg p off := by
  have count : (s.count16 p 0x28 0 1).reg p off = s.reg p off := State.reg_setFld_off _ _ _ _ _ (by omega)
  unfold State.countErr
  dsimp only
  split
  · rw [State.reg_setFld_off _ _ _ _ _ (by omega), count]
  · exact count

theorem State.reg_capture_beyond : (s.capture p e addr).reg p off = s.reg p off := by
  unfold State.capture
  split
  · rfl
  · rw [State.setPair, State.reg_setReg_off _ _ _ (by omega), State.reg_setReg_off _ _ _ (by omega),
      State.reg_setFld_off _ _ _ _ _ (by omega), State.reg_setFld_off _ _ _ _ _ (by omega),
      State.reg_setFld_off _ _ _ _ _ (by omega)]

theorem State.reg_record_beyond : (s.record p e addr).reg p off = s.reg p off := by
  rw [State.record, State.reg_congr (pciIrq_regs _ _ p)]
  split
  · rw [State.reg_countErr_beyond _ p beyond, State.reg_capture_beyond s p e addr beyond]
  · exact State.reg_capture_beyond s p e addr beyond

end

/-- Of the registers a report touches INT_STATUS.EVENT alone. -/
theorem State.reportAt_regs (s : State) (p : Page) (e : Ev) (coord : Dest) (addr : Nat) :
    (s.reportAt p e coord addr).regs = (s.setFld p 0x10 1 1 1).regs := by
  have interrupt := pciIrq_regs s (s.setFld p 0x10 1 1 1) p
  unfold State.reportAt
  dsimp only
  split
  · exact interrupt
  · split <;> exact interrupt

/-- An event raised stands in INT_STATUS.EVENT of its page. -/
theorem State.fld_raise_event (s : State) (p : Page) (e : Ev) (addr : Nat) : (s.raise p e addr).fld p 0x10 1 1 = 1 := by
  rw [State.fld, State.raise, State.report, State.reg_congr (State.reportAt_regs _ p e _ addr)]
  exact State.fld_setFld_same _ p 0x10 1 1 1 (by decide)

theorem State.reg_raise_beyond (s : State) (p : Page) (e : Ev) (addr : Nat) {off : Nat} (beyond : 0x28 < off) :
    (s.raise p e addr).reg p off = s.reg p off := by
  rw [State.raise, State.report, State.reg_congr (State.reportAt_regs _ p e _ addr),
    State.reg_setFld_off _ _ _ _ _ (by omega), State.reg_record_beyond s p e addr beyond]

/-! ### STALL (R356) -/

/-- What STALL_INFO takes of a blocked ashlar: its place, its class, and VALID. -/
def stallInfo (s : State) (a : Ash) : Word :=
  BitVec.ofNat 32 (a.col + a.row * 2 ^ 7 + bits (s.ash a).sdBlock 1 2 * 2 ^ 14 + 2 ^ 31)

/-- The state in which STALL is raised: the block is recorded at the ashlar and, where STALL_INFO holds none yet, there. -/
def stallRecorded (s : State) (a : Ash) : State :=
  let t := s.setAsh a { s.ash a with
    sdRaised := true
    sdCycles := BitVec.ofNat 32 (min 0xFFFFFFFF (stallLimit s a.die (bits (s.ash a).sdBlock 1 2) + 1)) }
  if t.fld (.mor a.die) 0x4C 31 1 = 1 then t else t.setReg (.mor a.die) 0x4C (stallInfo s a)

theorem exec_stall {s : State} {a : Ash} (runs : AshRuns s a) (blocked : bit (s.ash a).sdBlock 0 = true)
    (notYet : (s.ash a).sdRaised = false) :
    exec (.stall a) s = .next ((stallRecorded s a).raise (.mor a.die) evStall 0) := by
  change execStall a s = _
  rw [execStall, atAsh_runs runs]
  exact if_neg (by simp [blocked, notYet])

theorem stallRecorded_raised (s : State) (a : Ash) : ((stallRecorded s a).ash a).sdRaised = true := by
  unfold stallRecorded
  dsimp only
  split <;> exact congrArg Ashlar.sdRaised (State.ash_setAsh_same s a _)

/-- On the part the place and the class lie below VALID. -/
theorem stallInfo_valid {s : State} {a : Ash} (onPart : ashExists s a = true) : bits (stallInfo s a) 31 1 = 1 := by
  simp only [ashExists, pageExists, Bool.and_eq_true, decide_eq_true_eq] at onPart
  obtain ⟨⟨-, col⟩, row⟩ := onPart
  have cls : bits (s.ash a).sdBlock 1 2 < 4 := Nat.mod_lt _ (by decide)
  rw [bits, stallInfo, BitVec.toNat_ofNat]
  omega

theorem stallRecorded_valid {s : State} {a : Ash} (onPart : ashExists s a = true) :
    (stallRecorded s a).fld (.mor a.die) 0x4C 31 1 = 1 := by
  unfold stallRecorded
  dsimp only
  split
  case isTrue held => exact held
  case isFalse => rw [State.fld, State.reg_setReg_same, stallInfo_valid onPart]

/-! ### Slots of a die -/

@[simp] theorem State.slot_setSlot_same (s : State) (die k : Nat) (x : PlumbSlot) : (s.setSlot die k x).slot die k = x := by
  simp [State.slot, State.setSlot]

@[simp] theorem State.ash_setSlot (s : State) (die k : Nat) (x : PlumbSlot) (a : Ash) : (s.setSlot die k x).ash a = s.ash a :=
  rfl

theorem onSlot_runs {s : State} {die k : Nat} (runs : DieRuns s die) (legal : k < 33) (f : PlumbSlot → PlumbSlot) :
    onSlot s die k f = .next (s.setSlot die k (f (s.slot die k))) :=
  atDieIf_runs runs (decide_eq_true legal) _

/-- SLOT_CFG of the slot that SLOT_SEL names, while that slot is not busy. -/
theorem exec_slotConfigWrite_cfg {s : State} {die k : Nat} (w : Writer) (x : Word) (runs : DieRuns s die) (legal : k < 33)
    (selected : s.fld (.plb die) 0x40 0 6 = k) (idle : (s.slot die k).busy = false) :
    exec (.slotConfigWrite w die 0x48 x) s = .next (s.setSlot die k { s.slot die k with
      oldBay := (s.slot die k).bay, busy := true, plumbEn := bit x 0 && decide (k < 32)
      rateLog2 := BitVec.ofNat 5 (min 20 (max 8 (bits x 1 5))) }) := by
  change execSlotConfigWrite w die 0x48 x s = _
  rw [execSlotConfigWrite, atDie_runs runs, selected]
  simp [slotWrite, Nat.not_le.mpr legal, idle]

theorem exec_slotConfigDone {s : State} {die k : Nat} (runs : DieRuns s die) (legal : k < 33)
    (busy : (s.slot die k).busy = true) :
    exec (.slotConfigDone die k) s = .next ((distribute s die k (s.slot die k)).setSlot die k
      { s.slot die k with busy := false, oldBay := (s.slot die k).bay }) := by
  change execSlotConfigDone die k s = _
  rw [execSlotConfigDone, atDieIf_runs runs (decide_eq_true legal)]
  exact if_pos busy

/-! ### The course map (R23) -/

theorem logicalRow_congr {s t : State} (same : t.regs = s.regs) (d : Nat) : logicalRow t d = logicalRow s d := by
  have rows : retiredRows t d = retiredRows s d := by
    unfold retiredRows State.fld
    rw [State.reg_congr same]
  funext p
  rw [logicalRow, rows, logicalRow]

theorem physicalRow_congr {s t : State} (same : t.regs = s.regs) (d r : Nat) : physicalRow t d r = physicalRow s d r := by
  rw [physicalRow, logicalRow_congr same, physicalRow]

theorem logicalRow_of_physicalRow {s : State} {d r p : Nat} (place : physicalRow s d r = some p) :
    logicalRow s d p = some r :=
  beq_iff_eq.1 (List.find?_some (p := fun p => logicalRow s d p == some r) place)

/-- No two logical rows of a die lie in one physical row. -/
theorem physicalRow_injective {s : State} {d r q p : Nat} (one : physicalRow s d r = some p)
    (other : physicalRow s d q = some p) : r = q :=
  Option.some.inj ((logicalRow_of_physicalRow one).symm.trans (logicalRow_of_physicalRow other))

/-! ### A configuration distributed (R225) -/

/-- A state that a fold comes through has `P` at its end where the step of some element of the list gets there from `J`, and
no step leaves `J` or `P`. -/
theorem foldl_reaches {α β : Type} {step : α → β → α} {J P : α → Prop} {x : β} {l : List β} (mem : x ∈ l)
    (stays : ∀ v e, J v → J (step v e)) (gets : ∀ v, J v → P (step v x)) (keeps : ∀ v e, P v → P (step v e)) {v : α}
    (start : J v) : P (l.foldl step v) := by
  obtain ⟨before, after, rfl⟩ := List.append_of_mem mem
  rw [List.foldl_append, List.foldl_cons]
  have reached := gets _ (List.foldlRecOn before step start fun u h e _ => stays u e h)
  exact List.foldlRecOn after step reached fun u h e _ => keeps u e h

section
variable {die k col lrow row : Nat} {x : PlumbSlot}

/-- The copy of slot k's configuration that an ashlar of its bay holds. -/
def slotCopyOf (k : Nat) (x : PlumbSlot) : SlotCopy := ⟨k, x.plumbEn, x.rateLog2.toNat⟩

/-- A logical place of the die lies in a physical row, and its ashlar holds a copy of a slot's configuration. -/
structure HoldsCopy (die col lrow row : Nat) (c : SlotCopy) (s : State) : Prop where
  place : physicalRow s die lrow = some row
  copy : (s.ash ⟨die, col, row⟩).slot = c

theorem slotCopyTo_regs (s : State) (die k : Nat) (x : PlumbSlot) (c r : Nat) : (slotCopyTo s die k x c r).regs = s.regs := by
  unfold slotCopyTo
  split
  · rfl
  · split <;> rfl

theorem physicalRow_slotCopyTo {s : State} (c r : Nat) (place : physicalRow s die lrow = some row) :
    physicalRow (slotCopyTo s die k x c r) die lrow = some row :=
  (physicalRow_congr (slotCopyTo_regs s die k x c r) die lrow).trans place

/-- An ashlar of the new rectangle takes its copy. -/
theorem slotCopyTo_inside {s : State} (place : physicalRow s die lrow = some row) (inside : inRect x.bay col lrow = true) :
    HoldsCopy die col lrow row (slotCopyOf k x) (slotCopyTo s die k x col lrow) := by
  refine ⟨physicalRow_slotCopyTo col lrow place, ?_⟩
  simp [slotCopyTo, slotCopyOf, place, inside]

/-- Every ashlar but the one at the place named is left alone. -/
theorem slotCopyTo_beside {s : State} {c r : Nat} (place : physicalRow s die lrow = some row) (other : ¬(c = col ∧ r = lrow)) :
    (slotCopyTo s die k x c r).ash ⟨die, col, row⟩ = s.ash ⟨die, col, row⟩ := by
  unfold slotCopyTo
  split
  · rfl
  · split
    case h_1 => rfl
    case h_2 q at_q =>
      refine State.ash_onAsh_ne _ _ fun same => other ?_
      obtain ⟨-, rfl, rfl⟩ := Ash.mk.inj same
      exact ⟨rfl, physicalRow_injective at_q place⟩

theorem slotCopyTo_keeps {s : State} (c r : Nat) (inside : inRect x.bay col lrow = true)
    (holds : HoldsCopy die col lrow row (slotCopyOf k x) s) :
    HoldsCopy die col lrow row (slotCopyOf k x) (slotCopyTo s die k x c r) := by
  by_cases here : c = col ∧ r = lrow
  · obtain ⟨rfl, rfl⟩ := here
    exact slotCopyTo_inside holds.place inside
  · exact ⟨physicalRow_slotCopyTo c r holds.place, by rw [slotCopyTo_beside holds.place here, holds.copy]⟩

/-- Of the places in some rows and columns every ashlar of the slot's bay holds its copy once the configuration has gone to
all of them. -/
theorem slotCopies_inside {s : State} {rows cols : List Nat} (onCol : col ∈ cols) (onRow : lrow ∈ rows)
    (place : physicalRow s die lrow = some row) (inside : inRect x.bay col lrow = true) :
    HoldsCopy die col lrow row (slotCopyOf k x)
      (rows.foldl (fun t r => cols.foldl (fun u c => slotCopyTo u die k x c r) t) s) := by
  refine foldl_reaches (J := fun t => physicalRow t die lrow = some row) (P := HoldsCopy die col lrow row (slotCopyOf k x))
    onRow (fun t r at_row => ?_) (fun t at_row => ?_) (fun t r holds => ?_) place
  · exact List.foldlRecOn (motive := fun t => physicalRow t die lrow = some row) cols _ at_row
      fun u h c _ => physicalRow_slotCopyTo c r h
  · exact foldl_reaches (J := fun t => physicalRow t die lrow = some row)
      (P := HoldsCopy die col lrow row (slotCopyOf k x)) onCol (fun u c h => physicalRow_slotCopyTo c lrow h)
      (fun u h => slotCopyTo_inside h inside) (fun u c h => slotCopyTo_keeps c lrow inside h) at_row
  · exact List.foldlRecOn (motive := HoldsCopy die col lrow row (slotCopyOf k x)) cols _ holds
      fun u h c _ => slotCopyTo_keeps c r inside h

theorem distribute_inside {s : State} (onCol : col < 128) (onRow : lrow < 96) (place : physicalRow s die lrow = some row)
    (inside : inRect x.bay col lrow = true) : ((distribute s die k x).ash ⟨die, col, row⟩).slot = slotCopyOf k x := by
  have reached := slotCopies_inside (k := k) (List.mem_range.2 onCol) (List.mem_range.2 onRow) place inside
  exact reached.copy

end

/-- Settles O26, command by command; the distribution reaches each ashlar of a bay once, since no two logical rows lie in one
physical row. -/
theorem plumb : Obligations.Plumb := by
  refine ⟨fun s a runs => ⟨fun bins rest oldest => exec_plumbSampleArrive runs oldest rfl,
    fun c rest oldest => exec_satCountArrive runs oldest rfl, fun blocked notYet => ?_⟩, fun s die k w x runs legal =>
    ⟨onSlot_runs runs legal slotSnap, onSlot_runs runs legal slotClear, exec_slotConfigWrite_cfg w x runs legal,
      fun busy => ?_⟩⟩
  · refine ⟨_, exec_stall runs blocked notYet, ?_, ?_, State.fld_raise_event _ _ _ _⟩
    · rw [State.raise_ash, stallRecorded_raised]
    · rw [State.fld, State.reg_raise_beyond _ _ _ _ (by decide)]
      exact stallRecorded_valid runs.onPart
  · refine ⟨_, exec_slotConfigDone runs legal busy, ?_⟩
    rw [State.slot_setSlot_same]
    refine ⟨rfl, rfl, rfl, fun col lrow row onCol onRow place inside => ?_⟩
    rw [State.ash_setSlot, distribute_inside onCol onRow place inside, slotCopyOf]

end Sys2Proof.Machine
end

section
/-! PROOF. Packets at their ashlar: channel flits and CRET (R332 to R334), a tier's answers (R406), CONNECT and its reply (R329,
R330), and the refusal of a stale epoch (R347). -/

namespace Sys2Proof.Machine

/-! ### Arrival at an ashlar -/

theorem dieRows_le (part : Part) : part.dieRows ≤ 2 := by cases part <;> decide

/-- A destination that names an ashlar names no block: the grid ends at row 191, below the block rows (R307). -/
theorem isBlock_of_ashOf {s : State} {d : Dest} {a : Ash} (named : ashOf s d = some a) : isBlock d = false := by
  unfold ashOf at named
  dsimp only at named
  split at named
  case isTrue onGrid =>
    obtain ⟨-, row⟩ := onGrid
    have rows := dieRows_le s.part
    simp only [isBlock, decide_eq_false_iff_not]
    omega
  case isFalse => nomatch named

theorem Arrives.notBlock {s : State} {p : Packet} {a : Ash} (h : Arrives s p a) : isBlock p.dest = false :=
  isBlock_of_ashOf h.dest

theorem toAsh_arrives {s : State} {p : Packet} {a : Ash} (h : Arrives s p a) (go : Ash → State) :
    toAsh s p go = .next (go a) := by
  simp [toAsh, h.dest, h.route, h.open_]

/-- A clean packet that reaches its ashlar is taken off the Mortar and acts there. -/
theorem toAshClean_arrives {s : State} {p : Packet} {a : Ash} (h : Arrives s p a) (go : Ash → State → State) :
    toAshClean s p go = .next (go a (s.take p)) := by
  rw [toAshClean, toAsh_arrives h, h.clean]
  rfl

theorem State.countCrossings_ashlars (s : State) (p : Packet) : (s.countCrossings p).ashlars = s.ashlars := by
  unfold State.countCrossings
  refine (foldl_keeps (fun t : State => t.ashlars) (fun t c => ?_) _ _).trans (State.setDie_ashlars _ _ _)
  have counted := State.perfAdd_ashlars t (.lin c.1 c.2) 0x50 (flitsOf p.body)
  dsimp only
  split
  · exact (State.setDie_ashlars _ _ _).trans ((State.perfAdd_ashlars _ _ _ _).trans counted)
  · exact counted

theorem State.countUe_ashlars (s : State) (p : Packet) : (s.countUe p).ashlars = s.ashlars := by
  unfold State.countUe
  dsimp only
  split
  · rfl
  · split
    · rfl
    · split
      · exact State.count16_ashlars _ _ _ _ _
      · rfl

/-- A packet taken off the Mortar leaves every ashlar as it was. -/
@[simp] theorem State.take_ash (s : State) (p : Packet) (a : Ash) : (s.take p).ash a = s.ash a := by
  have same : (s.take p).ashlars = s.ashlars := (State.countUe_ashlars _ p).trans (State.countCrossings_ashlars s p)
  rw [State.ash, State.ash, same]

theorem State.take_net {s : State} {p : Packet} (clean : p.poisoned = false) : (s.take p).net = s.net.erase p := by
  simp [State.take, netWithout, clean]

/-! ### Endpoints and outbound entries -/

theorem Ashlar.ep_setEp_same (v : Ashlar) (n : Nat) (e : Endpoint) : (v.setEp n e).ep n = e := by
  simp [Ashlar.ep, Ashlar.setEp]

theorem Ashlar.ep_setEp_ne (v : Ashlar) {n k : Nat} (e : Endpoint) (other : k % 8 ≠ n % 8) : (v.setEp n e).ep k = v.ep k :=
  Vector.getElem_set_ne (epIx n).isLt (epIx k).isLt (Ne.symm other)

theorem Ashlar.chan_setChan_same (v : Ashlar) (n : Nat) (e : OutEntry) : (v.setChan n e).chan n = e := by
  simp [Ashlar.chan, Ashlar.setChan]

theorem Ashlar.chan_setChan_ne (v : Ashlar) {n k : Nat} (e : OutEntry) (other : k % 16 ≠ n % 16) :
    (v.setChan n e).chan k = v.chan k :=
  Vector.getElem_set_ne (outIx n).isLt (outIx k).isLt (Ne.symm other)

/-! ### Channel flits (R332, R334) -/

/-- The arrival peg's signal touches pegs alone (R334). -/
theorem signalPeg_only (v : Ashlar) (p : Nat) (inc : Half) (kind sub : BitVec 3) (src : Dest) :
    ∃ pegs, signalPeg v p inc kind sub src = { v with pegs := pegs } := by
  unfold signalPeg markPeg bumpPeg
  dsimp only
  split <;> exact ⟨_, rfl⟩

/-- An arrival counts at its endpoint and, where a peg is named, signals it. -/
theorem arrive_ash (s : State) (a : Ash) (n : Nat) : ∃ pegs, (arrive s a n).ash a =
    { (s.ash a).setEp n { (s.ash a).ep n with arrivals := ((s.ash a).ep n).arrivals + 1 } with pegs := pegs } := by
  rw [arrive, State.ash_onAsh_same]
  dsimp only
  split
  · exact signalPeg_only _ _ _ _ _ _
  · exact ⟨_, rfl⟩

/-- A clean flit at a valid tuple endpoint with room joins its buffer and arrives. -/
theorem flitArrives_room {s : State} {a : Ash} {p : Packet} {n : Nat} (payload : BitVec 128) (clean : p.poisoned = false)
    (valid : ((s.ash a).ep n).valid = true) (tuple : ((s.ash a).ep n).ring = false)
    (room : ((s.ash a).ep n).flits.length < 4) : flitArrives s a p n payload = arrive (s.onAsh a fun v => v.setEp n
      { (s.ash a).ep n with flits := ((s.ash a).ep n).flits ++ [payload], vcs := ((s.ash a).ep n).vcs ++ [p.vc] }) a n := by
  simp [flitArrives, clean, valid, tuple, Nat.not_le.2 room]

theorem exec_channelFlit {s : State} {p : Packet} {a : Ash} {ep : BitVec 3} {payload : BitVec 128} {yx : Bool}
    (h : Arrives s p a) (body : p.body = .chan ep payload yx) (thawed : (s.ash a).frozen = false) :
    exec (.channelFlit p) s = .next (flitArrives (timedSlips (s.take p) p) a p ep.toNat payload) := by
  change execChannelFlit p s = _
  rw [execChannelFlit, body]
  simp [h.notBlock, toAsh_arrives h, thawed]

/-- What a flit with room leaves at its ashlar: its endpoint with the flit and the count, the other endpoints and the Joiner
as they were. -/
theorem channelFlit_room {s : State} {p : Packet} {a : Ash} {ep : BitVec 3} (payload : BitVec 128) (clean : p.poisoned = false)
    (valid : ((s.ash a).ep ep.toNat).valid = true) (tuple : ((s.ash a).ep ep.toNat).ring = false)
    (room : ((s.ash a).ep ep.toNat).flits.length < 4) :
    let u := flitArrives (timedSlips (s.take p) p) a p ep.toNat payload
    ((u.ash a).ep ep.toNat).flits = ((s.ash a).ep ep.toNat).flits ++ [payload] ∧
      ((u.ash a).ep ep.toNat).arrivals = ((s.ash a).ep ep.toNat).arrivals + 1 ∧
      (∀ k, k < 8 → k ≠ ep.toNat → (u.ash a).ep k = (s.ash a).ep k) ∧ (u.ash a).joiner = (s.ash a).joiner ∧
      u.net = s.net.erase p := by
  obtain ⟨slips, slipped⟩ := timedSlips_ash (s.take p) p a
  rw [State.take_ash] at slipped
  have same : ((timedSlips (s.take p) p).ash a).ep ep.toNat = (s.ash a).ep ep.toNat := by rw [slipped]; rfl
  dsimp only
  rw [flitArrives_room payload clean (by rw [same, valid]) (by rw [same, tuple]) (by rw [same]; exact room), same]
  obtain ⟨pegs, arrived⟩ := arrive_ash ((timedSlips (s.take p) p).onAsh a fun v => v.setEp ep.toNat { (s.ash a).ep ep.toNat with
    flits := ((s.ash a).ep ep.toNat).flits ++ [payload], vcs := ((s.ash a).ep ep.toNat).vcs ++ [p.vc] }) a ep.toNat
  rw [arrived, State.ash_onAsh_same, slipped, Ashlar.ep_setEp_same]
  refine ⟨congrArg Endpoint.flits (Ashlar.ep_setEp_same _ _ _), congrArg Endpoint.arrivals (Ashlar.ep_setEp_same _ _ _),
    fun k below other => ?_, rfl, (timedSlips_net _ p).trans (State.take_net clean)⟩
  have apart : k % 8 ≠ ep.toNat % 8 := by have := ep.isLt; omega
  exact (Ashlar.ep_setEp_ne _ _ apart).trans (Ashlar.ep_setEp_ne _ _ apart)

/-! ### CRET (R333) -/

theorem exec_cret {s : State} {p : Packet} {a : Ash} {entry : BitVec 4} {n : Half} (h : Arrives s p a)
    (body : p.body = .cret entry n) : exec (.cret p) s = .next (cretAsh a entry n (s.take p)) := by
  change execCret p s = _
  rw [execCret, body]
  simp [h.notBlock, toAshClean_arrives h]

/-! ### A tier's answers (R406) -/

theorem exec_mresp {s : State} {p : Packet} {a : Ash} {tag : BitVec 15} {status : BitVec 2} {nw : BitVec 6} {off : BitVec 21} {fd : Word}
    {data : List DWord} (h : Arrives s p a) (body : p.body = .mresp tag status nw off fd data) (notPort : p.vc ≠ 3) :
    exec (.mresp p) s = .next (streamAnswer (s.take p) a p.src tag status fd data) := by
  change execMresp p s = _
  rw [execMresp, body]
  simp only [h.notBlock, toAshClean_arrives h, if_neg notPort, Bool.false_eq_true, if_false]

theorem exec_mack {s : State} {p : Packet} {a : Ash} {tag : BitVec 15} {status : BitVec 2} (h : Arrives s p a)
    (body : p.body = .mack tag status) : exec (.mack p) s = .next (streamAnswer (s.take p) a p.src tag status 0 []) := by
  change execMack p s = _
  rw [execMack, body]
  simp [h.notBlock, toAshClean_arrives h]

/-- Settles O21, packet by packet: each reaches its ashlar, and what it does there is read off the endpoint or the entry. -/
theorem packetArrivals : Obligations.PacketArrivals := by
  refine ⟨fun s p a h => ⟨fun ep x yx body thawed valid tuple room => ?_, fun entry n body => ?_⟩, fun s p a h =>
    ⟨fun tag status nw off fd data body notPort => exec_mresp h body notPort, fun tag status body => exec_mack h body⟩⟩
  · exact ⟨_, exec_channelFlit h body thawed, channelFlit_room x h.clean valid tuple room⟩
  · refine ⟨_, exec_cret h body, ?_⟩
    rw [cretAsh, State.ash_onAsh_same, State.take_ash, Ashlar.chan_setChan_same]
    refine ⟨rfl, fun k below other => Ashlar.chan_setChan_ne _ _ ?_, State.take_net h.clean⟩
    have := entry.isLt
    omega

/-! ### CONNECT (R329, R330) -/

theorem exec_connect {s : State} {p : Packet} {a : Ash} {disc : Bool} {kind : BitVec 2} {ep : BitVec 3} {win : BitVec 4}
    {tlen : BitVec 2} {entry : BitVec 4} {job : Half} (h : Arrives s p a) (body : p.body = .connect disc kind ep win tlen entry job) :
    exec (.connect p) s = .next (connectAsh a p disc kind ep win tlen entry job (s.take p)) := by
  change execConnect p s = _
  rw [execConnect, body]
  simp [h.notBlock, toAshClean_arrives h]

/-- An accepted CONNECT of a tuple channel: the peer set, the endpoint's free room in the answer. -/
theorem connectAsh_tuple {s : State} {a : Ash} {p : Packet} {ep : BitVec 3} {win : BitVec 4} {tlen : BitVec 2} {entry : BitVec 4}
    {job : Half} (accepted : connectStatus (s.ash a) 0 ep win tlen job = 0) :
    connectAsh a p false 0 ep win tlen entry job s =
      (s.onAsh a fun v => v.setEp ep.toNat { (s.ash a).ep ep.toNat with
        peer := p.src, pchan := entry, peerValid := true, closing := false }).send
        (answer p (.connReply 0 entry 0 0 0 0 (BitVec.ofNat 16 (4 - ((s.ash a).ep ep.toNat).flits.length)))) := by
  simp only [connectAsh, accepted, Bool.false_eq_true, if_false, ne_eq, not_true_eq_false, if_true]
  rfl

/-! ### The reply to a CONNECT (R330) -/

theorem exec_connReply {s : State} {p : Packet} {a : Ash} {status : BitVec 3} {entry win : BitVec 4} {epoch : Byte}
    {size wr : BitVec 13} {credit : Half} (h : Arrives s p a)
    (body : p.body = .connReply status entry win epoch size wr credit) :
    exec (.connReply p) s = .next (connReplyAsh a p status entry win epoch size wr credit (s.take p)) := by
  change execConnReply p s = _
  rw [execConnReply, body]
  simp [h.notBlock, toAshClean_arrives h]

/-- The end of a send instruction leaves the outbound entries as they are. -/
theorem sendDone_out (s : State) (a : Ash) (i : EngInstr) : ((sendDone s a i).ash a).out = (s.ash a).out := by
  rw [sendDone, onInstr, State.ash_onAsh_same, State.ash_onAsh_same]
  split
  · obtain ⟨windows, engines, ended⟩ := ranToEnd_only
      (updInstr (s.ash a) i.engine i.order fun j => { j with phase := .executed, wait := .none }) i
    rw [ended]
    rfl
  · rfl

/-- The reply that a CONN waits for writes the entry it names. -/
theorem connReplyAsh_accepted {s : State} {a : Ash} {p : Packet} {i : EngInstr} {entry win : BitVec 4} {epoch : Byte}
    {size wr : BitVec 13} {credit : Half} (running : sendRunning (s.ash a) = some i) (waits : i.wait = .connReply)
    (names : bits (iw i 6) 0 4 = entry.toNat) :
    ((connReplyAsh a p 0 entry win epoch size wr credit s).ash a).chan entry.toNat =
      replyEntry ((s.ash a).chan entry.toNat) p.src (BitVec.ofNat 3 (bits (iw i 6) 5 3)) win epoch size wr credit := by
  simp only [connReplyAsh, running, waits, names, and_self, if_true]
  rw [Ashlar.chan, sendDone_out, State.ash_onAsh_same]
  exact Ashlar.chan_setChan_same _ _ _

/-- What an accepted reply makes of an entry, by its kind. -/
theorem replyEntry_fields (e : OutEntry) (src : Dest) (ep : BitVec 3) (win : BitVec 4) (epoch : Byte) (size wr : BitVec 13)
    (credit : Half) : let f := replyEntry e src ep win epoch size wr credit
    f.conn = true ∧ f.stale = false ∧ f.dest = src ∧
      (e.kind = 0 → f.credit = credit ∧ f.win = e.win ∧ f.epoch = e.epoch ∧ f.size = e.size ∧ f.wr = e.wr) ∧
      (e.kind = 2 → f.win = win ∧ f.epoch = epoch ∧ f.size = size ∧ f.credit = e.credit ∧ f.wr = e.wr) ∧
      (e.kind ≠ 0 → e.kind ≠ 2 → f.win = win ∧ f.epoch = epoch ∧ f.size = size ∧ f.wr = wr ∧ f.credit = credit) := by
  unfold replyEntry
  dsimp only
  split
  case isTrue tuple => simp [tuple]
  case isFalse notTuple =>
    split
    case isTrue window => simp [window]
    case isFalse notWindow =>
      exact ⟨rfl, rfl, rfl, fun tuple => absurd tuple notTuple, fun window => absurd window notWindow,
        fun _ _ => ⟨rfl, rfl, rfl, rfl, rfl⟩⟩

/-! ### A refusal (R347) -/

theorem exec_nak {s : State} {p : Packet} {a : Ash} {code : BitVec 4} {of : Refused} (h : Arrives s p a)
    (body : p.body = .nak code of) : exec (.nak p) s = .next (nakAsh a p code of (s.take p)) := by
  change execNak p s = _
  rw [execNak, body]
  simp [h.notBlock, toAshClean_arrives h]

/-- Settles O23: the peer, the entry and the stale mark as each packet leaves them. -/
theorem packetConnections : Obligations.PacketConnections := by
  refine fun s p a h => ⟨fun ep win tlen entry job body accepted => ?_,
    fun i entry win epoch size wr credit body running waits names => ?_, fun n body => ?_⟩
  · refine ⟨_, exec_connect h body, ?_⟩
    rw [connectAsh_tuple (by rw [State.take_ash, accepted]), State.take_ash, State.send_ash, State.ash_onAsh_same,
      Ashlar.ep_setEp_same]
    exact ⟨rfl, rfl, rfl, rfl, State.mem_sent_send _ _⟩
  · refine ⟨_, exec_connReply h body, ?_⟩
    dsimp only
    rw [connReplyAsh_accepted (by rw [State.take_ash, running]) waits names, State.take_ash]
    exact replyEntry_fields _ _ _ _ _ _ _ _
  · refine ⟨_, exec_nak h body, ?_⟩
    simp only [nakAsh, if_true]
    rw [State.raise_ash, State.ash_onAsh_same, State.take_ash, Ashlar.chan_setChan_same]
    exact ⟨rfl, rfl, State.fld_raise_event _ _ _ _⟩

end Sys2Proof.Machine
end

section
/-! PROOF. Fences of a die (R354, R355) and accesses to its routers' registers (R360, R361, R363), with the row that an access ended
with ERR shows to have failed (R633). -/

namespace Sys2Proof.Machine

/-! ### Fences (R354, R355) -/

theorem exec_fenceWrite {s : State} {die n : Nat} (x : Word) (runs : DieRuns s die) (legal : n < 16) :
    exec (.fenceWrite die n x) s = .next (fenceWrite s die n x) := by
  change execFenceWrite die n x s = _
  rw [execFenceWrite, atDieIf_runs runs (by simp [legal])]

/-- A die whose routers have a fence's copy. -/
def fencedDie (d : Die) (n : Nat) (w : Word) : Die := { d with fences := d.fences.set (ix 16 n (by decide)) w }

/-- The state t with a fence of a die in force or lifted, and the ports that it shut open again. -/
def fenceApplied (t : State) (die : Nat) (d : Die) (n : Nat) (w : Word) : State :=
  ((t.setDie die (fencedDie d n w)).setFld (.mor die) 0x70 n 1 (bits w 31 1)).openPorts

/-- The fence register goes to every router; the packets that have passed the border by then are noted, in t. -/
theorem exec_fenceApply {s : State} {die n : Nat} (runs : DieRuns s die) (legal : n < 16) : ∃ t : State,
    exec (.fenceApply die n) s = .next (fenceApplied t die (s.die die) n (s.reg (.mor die) (0x80 + 4 * n))) := by
  change ∃ t : State, execFenceApply die n s = _
  rw [execFenceApply, atDieIf_runs runs (by simp [legal])]
  exact ⟨_, rfl⟩

theorem die_fenceApplied (t : State) (die : Nat) (d : Die) (n : Nat) (w : Word) :
    (fenceApplied t die d n w).die die = fencedDie d n w := State.die_setDie_same t die _

/-- The fence set reads as applied. -/
theorem getElem_setFence_same (fences : Vector Word 16) (n : Nat) (w : Word) :
    (fences.set (ix 16 n (by decide)) w)[ix 16 n (by decide)] = w :=
  Vector.getElem_set_self (ix 16 n (by decide)).isLt

theorem getElem_setFence_ne (fences : Vector Word 16) {n m : Nat} (w : Word) (legal : n < 16) (below : m < 16) (other : m ≠ n) :
    (fences.set (ix 16 n (by decide)) w)[ix 16 m (by decide)] = fences[ix 16 m (by decide)] :=
  Vector.getElem_set_ne (ix 16 n (by decide)).isLt (ix 16 m (by decide)).isLt (by simp only [ix]; omega)

/-- A signal at a fence in force is answered by the border's router with code 4 (R355). -/
theorem atFence_psig (s : State) {p : Packet} {peg : BitVec 6} {inc : Byte} {job : Half} (body : p.body = .psig peg inc job) :
    atFence s p = (s.take p).routerNak p 4 := by
  simp [atFence, fenceDrops, body]

theorem exec_psigPacket_fenced {s : State} {p : Packet} {a : Ash} {peg : BitVec 6} {inc : Byte} {job : Half}
    (body : p.body = .psig peg inc job) (dest : ashOf s p.dest = some a) (route : routeUp s p = true)
    (fenced : fencedOff s p = true) : exec (.psigPacket p) s = .next ((s.take p).routerNak p 4) := by
  change execPsigPacket p s = _
  rw [execPsigPacket, body]
  simp [isBlock_of_ashOf dest, toAshClean, toAsh, dest, route, fenced, atFence_psig s body]

/-! ### Router accesses (R360, R363) -/

/-- The state of a die whose router access is over: no access is under way. -/
def raccClosed (s : State) (die : Nat) : State := s.setDie die { s.die die with raccAt := none }

theorem fld_raccEnd_err (s : State) (die : Nat) (err : Bool) : (raccEnd s die err).fld (.mor die) 0x68 3 1 = b2n err := by
  rw [State.fld, raccEnd, State.reg_setReg_same]
  cases err <;> rfl

theorem fld_raccEnd_busy (s : State) (die : Nat) (err : Bool) : (raccEnd s die err).fld (.mor die) 0x68 2 1 = 0 := by
  rw [State.fld, raccEnd, State.reg_setReg_same]
  cases err <;> rfl

theorem reg_raccEnd_off (s : State) (die : Nat) (err : Bool) {off : Nat} (other : off ≠ 0x68) :
    (raccEnd s die err).reg (.mor die) off = s.reg (.mor die) off := State.reg_setReg_off _ _ _ other

theorem reg_raccEnd_page (s : State) (die : Nat) (err : Bool) {q : Page} (off : Nat) (other : q ≠ .mor die) :
    (raccEnd s die err).reg q off = s.reg q off := State.reg_setReg_page _ _ _ _ other

theorem exec_raccRead {s : State} {die : Nat} (runs : DieRuns s die) (noWrite : s.fld (.mor die) 0x68 1 2 ≠ 3) :
    exec (.raccRead die) s = .next (raccOver s (raccRead s die) die) := by
  change execRaccRead die s = _
  rw [execRaccRead, atDie_runs runs, if_neg noWrite]

theorem exec_raccWrite {s : State} {die : Nat} (runs : DieRuns s die)
    (noRead : s.fld (.mor die) 0x68 0 1 = 0 ∨ s.fld (.mor die) 0x68 2 1 = 0) :
    exec (.raccWrite die) s = .next (raccOver s (raccWrite s die) die) := by
  change execRaccWrite die s = _
  rw [execRaccWrite, atDie_runs runs, if_neg (by omega)]

/-- An access of a word of an outbound entry, read. -/
theorem raccRead_entry {s : State} {die k : Nat} {a : Ash} (target : raccTarget s die = some (a, k)) (entry : k < 0x40) :
    raccRead s die = raccEnd (s.setReg (.mor die) 0x64 (entryWord ((s.ash a).chan (k / 4)) (k % 4))) die false := by
  simp [raccRead, target, entry, show k ≠ 0x42 by omega]

/-- An access of a word of an outbound entry, written. -/
theorem raccWrite_entry {s : State} {die k : Nat} {a : Ash} (target : raccTarget s die = some (a, k)) (entry : k < 0x40) :
    raccWrite s die = raccEnd (s.onAsh a fun v =>
      v.setChan (k / 4) (setEntryWord (v.chan (k / 4)) (k % 4) (s.reg (.mor die) 0x64))) die false := by
  simp [raccWrite, target, entry]

theorem raccRead_none {s : State} {die : Nat} (target : raccTarget s die = none) : raccRead s die = raccEnd s die true := by
  simp [raccRead, target]

theorem raccWrite_none {s : State} {die : Nat} (target : raccTarget s die = none) : raccWrite s die = raccEnd s die true := by
  simp [raccWrite, target]

/-- An access that ends in time and without ERR is over, and no row has failed. -/
theorem raccOver_clean {s : State} {die : Nat} (t : State) (inTime : raccLate s die = false) :
    raccOver s (raccEnd t die false) die = raccClosed (raccEnd t die false) die := by
  simp [raccOver, fld_raccEnd_err, b2n, inTime, raccClosed]

/-- An access ended with ERR while the Mason is not ready, or beyond the grid, retires no row. -/
theorem raccOver_noRow {s : State} {die : Nat} (noRow : s.mas.ready = false ∨ 98 ≤ s.fld (.mor die) 0x60 7 7) :
    raccOver s (raccEnd s die true) die = raccClosed (raccEnd s die true) die := by
  have row : (raccClosed (raccEnd s die true) die).fld (.mor die) 0x60 7 7 = s.fld (.mor die) 0x60 7 7 :=
    congrArg (bits · 7 7) (reg_raccEnd_off s die true (by decide))
  unfold raccOver
  dsimp only
  split
  case isTrue failed =>
    rcases noRow with notReady | beyond
    · simp [notReady] at failed
    · exact if_pos (.inl (row ▸ beyond))
  case isFalse => rfl

theorem retiredRows_congr {s t : State} {d : Nat} (same : t.reg (.cfgDie d) 0x50 = s.reg (.cfgDie d) 0x50) :
    retiredRows t d = retiredRows s d := by
  unfold retiredRows State.fld
  rw [same]

theorem failCode_congr {s t : State} {a : Ash} (same : t.reg (.ash a) 0x1C = s.reg (.ash a) 0x1C) : failCode t a = failCode s a := by
  unfold failCode State.fld
  rw [same]

/-- An access ended with ERR at a row of the grid that stands shows the row to have failed. -/
theorem raccOver_retires {s : State} {die : Nat} (ready : s.mas.ready = true) (onGrid : s.fld (.mor die) 0x60 7 7 < 98)
    (stands : (retiredRows s die).contains (s.fld (.mor die) 0x60 7 7) = false) :
    let a : Ash := ⟨die, s.fld (.mor die) 0x60 0 7, s.fld (.mor die) 0x60 7 7⟩
    raccOver s (raccEnd s die true) die = retireRow (raccClosed (raccEnd s die true) die) die a.row (some (a, failCode s a)) := by
  have addr : ∀ lo, (raccClosed (raccEnd s die true) die).fld (.mor die) 0x60 lo 7 = s.fld (.mor die) 0x60 lo 7 := fun lo =>
    congrArg (bits · lo 7) (reg_raccEnd_off s die true (by decide))
  have rows : retiredRows (raccClosed (raccEnd s die true) die) die = retiredRows s die :=
    retiredRows_congr (reg_raccEnd_page s die true _ (by simp))
  have code : ∀ a, failCode (raccClosed (raccEnd s die true) die) a = failCode s a := fun a =>
    failCode_congr (reg_raccEnd_page s die true _ (by simp))
  have failed : raccOver s (raccEnd s die true) die = raccFailed (raccClosed (raccEnd s die true) die) die := by
    simp [raccOver, ready, fld_raccEnd_err, b2n, raccClosed]
  dsimp only
  rw [failed, raccFailed]
  dsimp only
  rw [addr, addr, rows, code, stands, if_neg (by simp [onGrid])]

/-- Settles O24: the fence's register and copies, the refusal at its border, and each end of a router access. -/
theorem fencesAndRouters : Obligations.FencesAndRouters := by
  refine ⟨fun s die n x runs legal => ⟨?_, ?_, fun p a peg inc job body dest route fenced => ?_⟩, fun s die runs => ⟨?_, ?_, ?_⟩⟩
  · refine ⟨_, exec_fenceWrite x runs legal, ?_, ?_, rfl⟩
    · rw [fenceWrite, State.reg_setFld_off _ _ _ _ _ (by omega), State.reg_setReg_same]
    · exact State.fld_setFld_same _ _ _ _ _ _ (by omega)
  · obtain ⟨t, applied⟩ := exec_fenceApply runs legal
    refine ⟨_, applied, ?_, (State.fld_setFld_same _ _ _ _ _ _ (by omega)).trans (Nat.mod_mod _ _), fun m below other => ?_⟩
    · rw [die_fenceApplied, fencedDie, getElem_setFence_same]
    · rw [die_fenceApplied, fencedDie, getElem_setFence_ne _ _ legal below other]
  · refine ⟨exec_psigPacket_fenced body dest route fenced, State.take_ash s p a, ?_⟩
    simp [State.routerNak, State.inject, refusedOf, body]
  · intro a k target entry inTime
    refine ⟨fun reads => ⟨_, exec_raccRead runs reads, ?_⟩, fun writes => ⟨_, exec_raccWrite runs writes, ?_⟩⟩
    · rw [raccRead_entry target entry, raccOver_clean _ inTime]
      exact ⟨(reg_raccEnd_off _ _ _ (by decide)).trans (State.reg_setReg_same _ _ _ _), fld_raccEnd_err _ _ _,
        fld_raccEnd_busy _ _ _, rfl⟩
    · rw [raccWrite_entry target entry, raccOver_clean _ inTime]
      have written := State.ash_onAsh_same s a fun v =>
        v.setChan (k / 4) (setEntryWord (v.chan (k / 4)) (k % 4) (s.reg (.mor die) 0x64))
      refine ⟨?_, fld_raccEnd_err _ _ _, fld_raccEnd_busy _ _ _, fun m below other => ?_⟩
      · exact (congrArg (Ashlar.chan · (k / 4)) written).trans (Ashlar.chan_setChan_same _ _ _)
      · exact (congrArg (Ashlar.chan · m) written).trans (Ashlar.chan_setChan_ne _ _ (by omega))
  · intro target noRow
    refine ⟨fun reads => ⟨_, exec_raccRead runs reads, ?_⟩, fun writes => ⟨_, exec_raccWrite runs writes, ?_⟩⟩
    · rw [raccRead_none target, raccOver_noRow noRow]
      exact ⟨fld_raccEnd_err _ _ _, reg_raccEnd_off _ _ _ (by decide), rfl⟩
    · rw [raccWrite_none target, raccOver_noRow noRow]
      exact ⟨fld_raccEnd_err _ _ _, rfl⟩
  · intro a u target ready onGrid stands t
    have retired := raccOver_retires ready onGrid stands
    exact ⟨fun reads => by rw [exec_raccRead runs reads, raccRead_none target]; exact congrArg _ retired,
      fun writes => by rw [exec_raccWrite runs writes, raccWrite_none target]; exact congrArg _ retired⟩

end Sys2Proof.Machine
end

section
/-! PROOF. What an event of the Mason's own leaves alone (R498, R573, R621, R622): every ashlar, every die, the jobs, and the registers
of every page but the Mason's and the pins'. -/

namespace Sys2Proof.Machine

/-! ### Registers of other pages -/

section
variable (s : State) {p q : Page} (other : q ≠ p) (off : Nat)
include other

theorem State.reg_setFld_page (o lo n v : Nat) : (s.setFld p o lo n v).reg q off = s.reg q off :=
  State.reg_setReg_page _ _ _ _ other

theorem State.reg_count16_page (o lo k : Nat) : (s.count16 p o lo k).reg q off = s.reg q off :=
  State.reg_setReg_page _ _ _ _ other

theorem State.reg_countErr_page : (s.countErr p).reg q off = s.reg q off := by
  unfold State.countErr
  dsimp only
  split
  · exact (State.reg_setFld_page _ other _ _ _ _ _).trans (State.reg_count16_page _ other _ _ _ _)
  · exact State.reg_count16_page _ other _ _ _ _

theorem State.reg_capture_page (e : Ev) (addr : Nat) : (s.capture p e addr).reg q off = s.reg q off := by
  unfold State.capture State.setPair
  split
  · rfl
  · simp only [State.reg_setReg_page _ _ _ _ other, State.reg_setFld_page _ other]

/-- An event recorded touches registers of its own page alone. -/
theorem State.reg_record_page (e : Ev) (addr : Nat) : (s.record p e addr).reg q off = s.reg q off := by
  rw [State.record, State.reg_congr (pciIrq_regs _ _ p)]
  split
  · rw [State.reg_countErr_page _ other, State.reg_capture_page _ other]
  · exact State.reg_capture_page _ other _ _ _

theorem State.reg_raise_page (e : Ev) (addr : Nat) : (s.raise p e addr).reg q off = s.reg q off := by
  rw [State.raise, State.report, State.reg_congr (State.reportAt_regs _ p e _ addr), State.reg_setFld_page _ other,
    State.reg_record_page _ other]

end

/-! ### Posting -/

/-- What posting an event leaves alone. -/
structure OnlyPosts (s t : State) : Prop where
  ashlars : t.ashlars = s.ashlars
  dies : t.dies = s.dies
  jobs : t.mas.jobs = s.mas.jobs
  reg : ∀ q off, q ≠ .mas → q ≠ .pin → t.reg q off = s.reg q off

theorem OnlyPosts.refl (s : State) : OnlyPosts s s := ⟨rfl, rfl, rfl, fun _ _ _ _ => rfl⟩

theorem OnlyPosts.trans {s t u : State} (h : OnlyPosts s t) (k : OnlyPosts t u) : OnlyPosts s u where
  ashlars := k.ashlars.trans h.ashlars
  dies := k.dies.trans h.dies
  jobs := k.jobs.trans h.jobs
  reg q off mas pin := (k.reg q off mas pin).trans (h.reg q off mas pin)

theorem OnlyPosts.job {s t : State} (h : OnlyPosts s t) (id : Half) : t.job id = s.job id := by
  rw [State.job, State.job, h.jobs]

theorem OnlyPosts.setFld_mas (s : State) (off lo n v : Nat) : OnlyPosts s (s.setFld .mas off lo n v) :=
  ⟨rfl, rfl, rfl, fun _ _ mas _ => State.reg_setFld_page s mas _ _ _ _ _⟩

theorem OnlyPosts.setFld_pin (s : State) (off lo n v : Nat) : OnlyPosts s (s.setFld .pin off lo n v) :=
  ⟨rfl, rfl, rfl, fun _ _ _ pin => State.reg_setFld_page s pin _ _ _ _ _⟩

theorem OnlyPosts.record_mas (s : State) (e : Ev) (addr : Nat) : OnlyPosts s (s.record .mas e addr) :=
  ⟨by simp, by simp, by simp, fun _ _ mas _ => State.reg_record_page s mas _ _ _⟩

theorem OnlyPosts.msi (s : State) (k v : Nat) : OnlyPosts s (s.msi k v) :=
  ⟨by simp, by simp, by simp, fun _ _ _ _ => State.reg_congr (State.msi_regs s k v) _ _⟩

theorem OnlyPosts.mas {s : State} {m : Mason} (jobs : m.jobs = s.mas.jobs) : OnlyPosts s { s with mas := m } :=
  ⟨rfl, rfl, jobs, fun _ _ _ _ => rfl⟩

theorem OnlyPosts.emit (s : State) (o : Output) : OnlyPosts s (s.emit o) := ⟨rfl, rfl, rfl, fun _ _ _ _ => rfl⟩

theorem OnlyPosts.writeRing (s : State) (o : Output) (v : Nat) : OnlyPosts s (s.writeRing o v) := by
  unfold State.writeRing
  split
  · exact (OnlyPosts.emit _ _).trans (.msi _ _ _)
  · exact .refl s

theorem OnlyPosts.alertFor (s : State) (code : Nat) : OnlyPosts s (alertFor s code) := by
  have pin (t : State) (lo : Nat) (c : Prop) [Decidable c] : OnlyPosts t (if c then t.setFld .pin 0x84 lo 1 1 else t) := by
    split
    · exact .setFld_pin _ _ _ _ _
    · exact .refl t
  exact ((pin _ _ _).trans (pin _ _ _)).trans (pin _ _ _)

theorem OnlyPosts.evPut (s : State) (code : Nat) (job : Half) (src : Nat) (coalesced : Bool) :
    OnlyPosts s (evPut s code job src coalesced) := by
  unfold Machine.evPut
  exact (OnlyPosts.mas (by rfl)).trans (.writeRing _ _ _)

theorem OnlyPosts.post (s : State) (code : Nat) (job : Half) (src : Nat) (coalesced : Bool) :
    OnlyPosts s (s.post code job src coalesced) := by
  refine (OnlyPosts.alertFor s code).trans ?_
  unfold State.post
  dsimp only
  split
  · exact .evPut _ _ _ _ _
  · exact (OnlyPosts.setFld_mas _ _ _ _ _).trans (.mas (by rfl))

theorem OnlyPosts.masEvent (s : State) (e : Ev) (job : Half) (src : Nat) : OnlyPosts s (s.masEvent e job src) :=
  ((OnlyPosts.record_mas s e 0).trans (.setFld_mas _ _ _ _ _)).trans (.post _ _ _ _ _)

theorem OnlyPosts.complete (s : State) (tag : Word) (status reason event result : Nat) :
    OnlyPosts s (s.complete tag status reason event result) := by
  unfold State.complete
  split
  · unfold cplPut
    exact (OnlyPosts.mas (by rfl)).trans (.writeRing _ _ _)
  · exact .mas rfl

end Sys2Proof.Machine
end

section
/-! PROOF. PLLs that lose lock (R665, R687) and the lintels (R352). -/

namespace Sys2Proof.Machine

theorem atModule_powered {s : State} (on : powered s = true) (go : State) : atModule s go = .next go := by
  rw [atModule, if_pos on]

theorem dies_le (part : Part) : part.dies ≤ 8 := by cases part <;> decide

/-! ### A bit of LOCK lost (R687) -/

theorem locked_iff {s : State} {b : Nat} : locked s b = true ↔ s.fld .clk 0x40 b 1 = 1 := beq_iff_eq

section
variable (s : State) {b : Nat}

theorem fld_unlock_lock (onWord : b < 32) : (unlock s b).fld .clk 0x40 b 1 = 0 := by
  rw [State.fld, unlock, State.reg_raise_beyond _ _ _ _ (by decide), State.reg_setFld_off _ _ _ _ _ (by decide)]
  exact State.fld_setFld_same s .clk 0x40 b 1 0 (by omega)

theorem fld_unlock_shown (onWord : b < 32) : (unlock s b).fld .clk 0x44 b 1 = 1 := by
  rw [State.fld, unlock, State.reg_raise_beyond _ _ _ _ (by decide)]
  exact State.fld_setFld_same _ .clk 0x44 b 1 1 (by omega)

theorem fld_unlock_event : (unlock s b).fld .clk 0x10 1 1 = 1 := State.fld_raise_event _ _ _ _

theorem reg_unlock_page {q : Page} (off : Nat) (other : q ≠ .clk) : (unlock s b).reg q off = s.reg q off := by
  rw [unlock, State.reg_raise_page _ other, State.reg_setFld_page _ other, State.reg_setFld_page _ other]

@[simp] theorem unlock_ashlars : (unlock s b).ashlars = s.ashlars := by simp [unlock]
@[simp] theorem unlock_dies : (unlock s b).dies = s.dies := by simp [unlock]
@[simp] theorem unlock_mas : (unlock s b).mas = s.mas := by simp [unlock]
@[simp] theorem unlock_time : (unlock s b).time = s.time := by simp [unlock]

end

/-! ### Lintels (R352) -/

/-- STATUS.UP of a lintel is set alike at both of its sides. -/
theorem fld_lintelUp {s : State} {d e : Nat} {side : Side} (up : Bool) (beside : neighbour s.part d side = some e) :
    (lintelUp s d side up).fld (.lin d side) 0x44 0 1 = b2n up ∧
      (lintelUp s d side up).fld (.lin e (opposite side)) 0x44 0 1 = b2n up := by
  have small : b2n up % 2 ^ 1 = b2n up := by cases up <;> rfl
  have written : lintelUp s d side up =
      (s.setFld (.lin d side) 0x44 0 1 (b2n up)).setFld (.lin e (opposite side)) 0x44 0 1 (b2n up) := by
    simp [lintelUp, beside]
  rw [written]
  refine ⟨?_, (State.fld_setFld_same _ _ _ _ _ _ (by decide)).trans small⟩
  by_cases one : Page.lin d side = .lin e (opposite side)
  · rw [one]
    exact (State.fld_setFld_same _ _ _ _ _ _ (by decide)).trans small
  · rw [State.fld, State.reg_setFld_page _ one]
    exact (State.fld_setFld_same _ _ _ _ _ _ (by decide)).trans small

/-- What a lintel's STATUS leaves alone: everything but registers of LIN pages. -/
theorem lintelUp_keeps {α : Type} (x : State → α) (lin : ∀ (t : State) d side v, x (t.setFld (.lin d side) 0x44 0 1 v) = x t)
    (s : State) (d : Nat) (side : Side) (up : Bool) : x (lintelUp s d side up) = x s := by
  unfold lintelUp
  split
  · rw [lin, lin]
  · rfl

theorem lintelsDown_keeps {α : Type} (x : State → α) (lin : ∀ (t : State) d side v, x (t.setFld (.lin d side) 0x44 0 1 v) = x t)
    (s : State) (d : Nat) : x (lintelsDown s d) = x s :=
  foldl_keeps x (fun t side => lintelUp_keeps x lin t d side false) allSides s

theorem atLintel_runs {s : State} {d : Nat} {side : Side} (on : powered s = true) (onPart : pageExists s.part (.lin d side) = true)
    (go : State) : atLintel s d side go = .next go := by
  rw [atLintel, if_pos onPart, atModule_powered on]

theorem exec_lintelUp {s : State} {d : Nat} {side : Side} (on : powered s = true)
    (onPart : pageExists s.part (.lin d side) = true) (runs : lintelRuns s d side = true) :
    exec (.lintelUp d side) s = .next (lintelUp s d side true) := by
  change execLintelUp d side s = _
  rw [execLintelUp, atLintel_runs on onPart, if_pos runs]

theorem exec_lintelDown {s : State} {d : Nat} {side : Side} (on : powered s = true)
    (onPart : pageExists s.part (.lin d side) = true) (stopped : lintelRuns s d side = false) :
    exec (.lintelDown d side) s = .next (lintelUp s d side false) := by
  change execLintelDown d side s = _
  rw [execLintelDown, atLintel_runs on onPart, if_neg (by simp [stopped])]

/-! ### The fabric clock -/

/-- The module with the fabric clock of a die lost and no bay to fault: UNLOCK shown, the lintels down, the die held. -/
def fclkStopped (s : State) (d : Nat) : State :=
  let t := lintelsDown (unlock s d) d
  t.setDie d { t.die d with run := .held }

theorem fclkStopped_jobs (s : State) (d : Nat) : (fclkStopped s d).mas.jobs = s.mas.jobs :=
  (lintelsDown_keeps (fun t : State => t.mas.jobs) (fun _ _ _ _ => rfl) _ d).trans (congrArg Mason.jobs (unlock_mas s))

theorem fclkStopped_ashlars (s : State) (d : Nat) : (fclkStopped s d).ashlars = s.ashlars :=
  (lintelsDown_keeps (fun t : State => t.ashlars) (fun _ _ _ _ => rfl) _ d).trans (unlock_ashlars s)

theorem reg_fclkStopped_clk (s : State) (d off : Nat) : (fclkStopped s d).reg .clk off = (unlock s d).reg .clk off :=
  lintelsDown_keeps (fun t : State => t.reg .clk off) (fun t _ _ _ => State.reg_setFld_page t (by simp) _ _ _ _ _) _ d

theorem jobsOfFrames_none {s : State} (noJobs : s.mas.jobs = []) (lost : Nat → Nat → Bool) : jobsOfFrames s lost = [] := by
  simp [jobsOfFrames, noJobs]

theorem faultDie_none {s : State} (noJobs : s.mas.jobs = []) (d code : Nat) : faultDie s d code = s := by
  simp [faultDie, placedMembers, noJobs]

/-- The loss of a fabric clock ends with the die degraded and that event posted; without jobs nothing else faults. -/
theorem exec_fclkPllUnlock {s : State} {d : Nat} (on : powered s = true) (onPart : d < s.part.dies)
    (lock : s.fld .clk 0x40 d 1 = 1) : ∃ t src, (s.mas.jobs = [] → t = fclkStopped s d) ∧
      exec (.fclkPllUnlock d) s = .next ((t.setFld (.cfgDie d) 0x50 16 1 1).masEvent evDieDegraded 0xFFFF src) := by
  change ∃ t src, _ ∧ execFclkPllUnlock d s = _
  rw [execFclkPllUnlock, if_pos onPart, atModule_powered on, fclkUnlock, if_neg (by simp [locked_iff.2 lock])]
  refine ⟨_, _, fun noJobs => ?_, rfl⟩
  have still : (fclkStopped s d).mas.jobs = [] := (fclkStopped_jobs s d).trans noJobs
  exact (congrArg (List.foldl _ _) (jobsOfFrames_none still _)).trans (faultDie_none still _ _)

/-! ### Memory clocks -/

/-- The module with the memory clock of a controller lost and no job's frames there. -/
def memStopped (s : State) (d : Nat) (c : Ctl) : State :=
  let t := unlock s (8 + d)
  (t.setDie d { t.die d with stopped := c :: (s.die d).stopped }).raise (ctlPage d c) evMemUe 0

theorem ctlPage_ne_clk (d : Nat) (c : Ctl) : Page.clk ≠ ctlPage d c := by cases c <;> simp [ctlPage]

theorem exec_memclkPllUnlock {s : State} {d : Nat} {c : Ctl} (on : powered s = true) (onPart : d < s.part.dies)
    (lock : s.fld .clk 0x40 (8 + d) 1 = 1) (runs : (s.die d).stopped.contains c = false) (noJobs : s.mas.jobs = []) :
    exec (.memclkPllUnlock d c) s = .next (memStopped s d c) := by
  change execMemclkPllUnlock d c s = _
  have still : (memStopped s d c).mas.jobs = [] := by simp [memStopped, noJobs]
  have absent : c ∉ (s.die d).stopped := by simpa using runs
  rw [execMemclkPllUnlock, if_pos onPart, atModule_powered on, memUnlock, if_neg (by simp [absent, locked_iff.2 lock])]
  exact congrArg Host.Outcome.next (congrArg (List.foldl _ _) (jobsOfFrames_none still _))

theorem die_memStopped (s : State) (d : Nat) (c : Ctl) :
    (memStopped s d c).die d = { s.die d with stopped := c :: (s.die d).stopped } := by
  have dies : (unlock s (8 + d)).die d = s.die d := by simp only [State.die, unlock_dies]
  have set := State.die_setDie_same (unlock s (8 + d)) d { (unlock s (8 + d)).die d with stopped := c :: (s.die d).stopped }
  rw [dies] at set
  rw [← set, memStopped]
  dsimp only
  rw [State.die, State.raise_dies, dies]
  rfl

/-! ### The module's own clocks -/

theorem exec_mclkPllUnlock {s : State} (on : powered s = true) (lock : s.fld .clk 0x40 16 1 = 1) :
    exec .mclkPllUnlock s = .next ((unlock s 16).onMas fun m => { m with ready := false }) := by
  change execMclkPllUnlock s = _
  rw [execMclkPllUnlock, atModule_powered on, if_pos (locked_iff.2 lock)]

theorem exec_mclkRelock {s : State} (on : powered s = true) (lost : s.fld .clk 0x40 16 1 = 0) (clocked : s.reg .clk 0x40 ≠ 0) :
    exec .mclkRelock s = .next (restartMason (s.setFld .clk 0x40 16 1 1) 3) := by
  change execMclkRelock s = _
  rw [execMclkRelock, atModule_powered on, if_neg (not_or.2 ⟨by simp [locked, lost], clocked⟩)]

theorem exec_tclkPllUnlock {s : State} (on : powered s = true) (lock : s.fld .clk 0x40 17 1 = 1) : exec .tclkPllUnlock s =
    .next ((unlock { s with ppsFirst := false, ppsGood := 0 } 17).setFld .tim 0x60 0 2 2) := by
  change execTclkPllUnlock s = _
  rw [execTclkPllUnlock, atModule_powered on, if_pos (locked_iff.2 lock)]

theorem exec_tclkRelock {s : State} (on : powered s = true) (lost : s.fld .clk 0x40 17 1 = 0) :
    exec .tclkRelock s = .next (s.setFld .clk 0x40 17 1 1) := by
  change execTclkRelock s = _
  rw [execTclkRelock, atModule_powered on, if_neg (by simp [locked, lost])]

theorem exec_pclkPllUnlock {s : State} {k : Nat} (on : powered s = true) (legal : k < 2) (lock : s.fld .clk 0x40 (18 + k) 1 = 1)
    (up : linkUp s k = true) : exec (.pclkPllUnlock k) s = .next (pciDown (unlock s (18 + k)) k true) := by
  have upStill : linkUp (unlock s (18 + k)) k = true := by
    rw [linkUp, State.fld, reg_unlock_page s _ (by simp)]
    exact up
  change execPclkPllUnlock k s = _
  rw [execPclkPllUnlock, atPci, if_pos legal, if_pos on, if_pos (locked_iff.2 lock)]
  exact congrArg _ (if_pos upStill)

/-- HOLDOVER is bit 1 of TIM.STATUS, which the loss of tclk sets as it clears PPS_VALID, bit 0. -/
theorem holdover_shown (s : State) : (s.setFld .tim 0x60 0 2 2).fld .tim 0x60 1 1 = 1 := by
  rw [State.fld, State.setFld, State.reg_setReg_same, bits, toNat_setBits _ _ _ _ (by decide)]
  omega

/-- Settles O55, clock by clock, and the lintel's two commands. -/
theorem clocksAndLintels : Obligations.ClocksAndLintels := by
  refine fun s die on => ⟨fun onPart lock => ?_, fun c onPart lock runs noJobs => ?_, fun lock => ?_,
    fun lost clocked => exec_mclkRelock on lost clocked, fun lock => ?_, fun lost => ?_,
    fun k legal lock up => exec_pclkPllUnlock on legal lock up, fun side e beside onPart =>
    ⟨fun runs => ?_, fun stopped => ?_⟩⟩
  · obtain ⟨t, src, stopped, done⟩ := exec_fclkPllUnlock on onPart lock
    have posted := OnlyPosts.masEvent (t.setFld (.cfgDie die) 0x50 16 1 1) evDieDegraded 0xFFFF src
    have onWord : die < 32 := by have := dies_le s.part; omega
    have clk (off : Nat) (noJobs : s.mas.jobs = []) : ((t.setFld (.cfgDie die) 0x50 16 1 1).masEvent evDieDegraded 0xFFFF src).reg
        .clk off = (unlock s die).reg .clk off := by
      rw [posted.reg .clk off (by simp) (by simp), State.reg_setFld_page _ (by simp), stopped noJobs, reg_fclkStopped_clk]
    refine ⟨_, done, ?_, fun noJobs => ⟨?_, ?_, ?_, ?_⟩⟩
    · rw [State.fld, posted.reg _ _ (by simp) (by simp)]
      exact State.fld_setFld_same _ _ _ _ _ _ (by decide)
    · rw [State.die, posted.dies, stopped noJobs]
      exact congrArg Die.run (State.die_setDie_same _ _ _)
    · rw [State.fld, clk _ noJobs]
      exact fld_unlock_shown s onWord
    · rw [State.fld, clk _ noJobs]
      exact fld_unlock_lock s onWord
    · rw [posted.ashlars, stopped noJobs]
      exact fclkStopped_ashlars s die
  · have onWord : 8 + die < 32 := by have := dies_le s.part; omega
    refine ⟨_, exec_memclkPllUnlock on onPart lock runs noJobs, ?_, ?_, State.fld_raise_event _ _ _ _, ?_⟩
    · rw [die_memStopped]
    · rw [State.fld, memStopped, State.reg_raise_page _ (ctlPage_ne_clk die c)]
      exact fld_unlock_lock s onWord
    · rw [die_memStopped]
  · exact ⟨_, exec_mclkPllUnlock on lock, rfl, fld_unlock_shown s (by decide), fld_unlock_event s, unlock_ashlars s⟩
  · refine ⟨_, exec_tclkPllUnlock on lock, ?_, unlock_time _, ?_⟩
    · exact holdover_shown _
    · rw [State.fld, State.reg_setFld_page _ (by simp)]
      exact fld_unlock_shown _ (by decide)
  · exact ⟨_, exec_tclkRelock on lost, State.fld_setFld_same _ _ _ _ _ _ (by decide), rfl,
      congrArg (bits · 1 1) (State.reg_setFld_page s (by simp) _ _ _ _ _)⟩
  · exact ⟨_, exec_lintelUp on onPart runs, (fld_lintelUp true beside).1, (fld_lintelUp true beside).2,
      lintelUp_keeps (fun t : State => t.dies) (fun _ _ _ _ => rfl) s die side true⟩
  · exact ⟨_, exec_lintelDown on onPart stopped, (fld_lintelUp false beside).1, (fld_lintelUp false beside).2,
      lintelUp_keeps (fun t : State => t.dies) (fun _ _ _ _ => rfl) s die side false⟩

end Sys2Proof.Machine
end

section
/-! PROOF. What the Mason does with what reaches it: its mailbox (R493, R498), the class of an ashlar's event (R623, R633), faulted
members and jobs (R390, R624), and the probe for deadlock (R357). -/

namespace Sys2Proof.Machine

/-! ### Jobs, bays and members as they are changed -/

theorem State.job_congr {s t : State} (same : t.mas.jobs = s.mas.jobs) (id : Half) : t.job id = s.job id := by
  rw [State.job, State.job, same]

/-- A change of the Mason beside its jobs. -/
theorem State.jobs_onMas (s : State) {f : Mason → Mason} (beside : ∀ m, (f m).jobs = m.jobs) :
    (s.onMas f).mas.jobs = s.mas.jobs := beside s.mas

theorem State.member_congr {s t : State} (same : t.mas.jobs = s.mas.jobs) (id : Half) (b m : Nat) :
    t.member id b m = s.member id b m := by
  rw [State.member, State.member, State.bay, State.bay, State.job_congr same]

theorem State.id_of_job {s : State} {id : Half} {j : Job} (job : s.job id = some j) : j.id = id := by
  simpa using List.find?_some job

/-- A change of a job that leaves its number alone changes what that number finds, and nothing else. -/
theorem State.job_onJob (s : State) (id k : Half) {f : Job → Job} (number : ∀ j, (f j).id = j.id) :
    (s.onJob id f).job k = (s.job k).map fun j => if j.id = id then f j else j := by
  have same : ((fun j : Job => j.id == k) ∘ fun j => if j.id = id then f j else j) = fun j => j.id == k := by
    funext j
    dsimp only [Function.comp]
    split
    · rw [number]
    · rfl
  rw [State.job, State.onJob, State.onMas, List.find?_map, same, State.job]

theorem State.job_onJob_same {s : State} {id : Half} {j : Job} {f : Job → Job} (job : s.job id = some j)
    (number : ∀ j, (f j).id = j.id) : (s.onJob id f).job id = some (f j) := by
  rw [State.job_onJob s id id number, job]
  simp [State.id_of_job job]

theorem State.isSome_job_onMember (s : State) (id k : Half) (b m : Nat) (f : Member → Member) :
    ((s.onMember id b m f).job k).isSome = (s.job k).isSome := by
  rw [State.onMember, State.onBay, State.job_onJob s id k (f := fun j => j.onBay b fun x => x.onMember m f) fun _ => rfl,
    Option.isSome_map]

/-- A member reads as it was last changed. -/
theorem State.member_onMember_same (s : State) (id : Half) (b m : Nat) (f : Member → Member) :
    (s.onMember id b m f).member id b m = (s.member id b m).map f := by
  unfold State.member State.bay
  cases job : s.job id with
  | none => simp [State.onMember, State.onBay, State.job_onJob s id id (f := fun j => j.onBay b _) fun _ => rfl, job]
  | some j =>
    rw [State.onMember, State.onBay, State.job_onJob_same job (f := fun j => j.onBay b fun x => x.onMember m f) fun _ => rfl]
    cases bay : j.bays[b]? with
    | none => simp [Job.onBay, bay]
    | some x => cases member : x.members[m]? <;> simp [Job.onBay, Bay.onMember, bay, member]

/-! ### Commands of the Mason that keep the jobs -/

@[simp] theorem setLive_mas (s : State) (b : Bay) (m : Nat) (live : Bool) : (setLive s b m live).mas = s.mas := by
  unfold setLive
  split <;> rfl

@[simp] theorem openPorts_mas (s : State) : s.openPorts.mas = s.mas := rfl

@[simp] theorem setFence_mas (s : State) (die n : Nat) (w : Word) : (setFence s die n w).mas = s.mas := by
  simp [setFence, fenceWrite]

theorem isSome_job_fenceMember (s : State) (id k : Half) (b m : Nat) (lift : Bool) :
    ((fenceMember s id b m lift).job k).isSome = (s.job k).isSome := by
  unfold fenceMember
  cases s.bay id b with
  | none => rfl
  | some x =>
    have live (d n : Nat) (w : Word) : (setFence (setLive s x m false) d n w).mas.jobs = s.mas.jobs := by
      rw [setFence_mas, setLive_mas]
    dsimp only
    cases x.members[m]? with
    | none => rfl
    | some y =>
      dsimp only
      generalize (if y.fence < 16 then y.fence else freeFence s y.die) = n
      have fenced := (State.isSome_job_onMember _ id k b m fun z => { z with fence := n }).trans
        (congrArg Option.isSome (State.job_congr (live y.die n (x.rect y)) k))
      split
      · rfl
      · split
        · exact (congrArg Option.isSome (State.job_congr (congrArg Mason.jobs (State.setFld_mas _ _ _ _ _ _)) k)).trans fenced
        · exact fenced

@[simp] theorem freezeAll_mas (s : State) (l : List Ash) : (freezeAll s l).mas = s.mas :=
  foldl_keeps (fun t : State => t.mas) (step := fun t a => freezeOn t a) (fun _ _ => rfl) l s

/-! ### A dump keeps the jobs (R639 to R641) -/

theorem State.noteUe_mas (s : State) (die tier f w : Nat) (src : TierSrc) : (s.noteUe die tier f w src).mas = s.mas := by
  unfold State.noteUe
  dsimp only
  split <;> rfl

theorem State.tierWords_mas (die tier f : Nat) (src : TierSrc) (n : Nat) (s : State) (w : Nat) :
    (s.tierWords die tier f w src n).2.2.mas = s.mas := by
  induction n generalizing s w with
  | zero => rfl
  | succ n ih =>
    unfold State.tierWords
    dsimp only
    split
    · exact ih _ _
    · exact ih _ _
    · exact (ih _ _).trans (State.noteUe_mas _ _ _ _ _ _)

theorem State.tierRead_mas (s : State) (die tier f w n : Nat) (src : TierSrc) :
    (s.tierRead die tier f w n src).2.mas = s.mas := by
  unfold State.tierRead
  dsimp only
  split
  · exact State.tierWords_mas _ _ _ _ _ _ _
  · exact (State.raise_mas _ _ _ _).trans (State.tierWords_mas _ _ _ _ _ _ _)

theorem State.tierPlace_mas (s : State) (die tier f w x keep : Nat) (src : TierSrc) :
    (s.tierPlace die tier f w x keep src).mas = s.mas := by
  have read := State.tierRead_mas s die tier f w 1 src
  unfold State.tierPlace
  split
  · rfl
  · revert read
    cases s.tierRead die tier f w 1 src with
    | mk words t => cases words <;> exact id

theorem State.tierWrite_mas (s : State) (die tier f w : Nat) (data keep : List DWord) :
    (s.tierWrite die tier f w data keep).mas = s.mas := by
  have placed := foldl_keeps (fun t : State => t.mas) (step := fun (u : State) (q : DWord × Nat) =>
    u.tierPlace die tier f (w + q.2) q.1.toNat (keep.getD q.2 0).toNat .request)
    (fun t q => State.tierPlace_mas t _ _ _ _ _ _ _) data.zipIdx s
  unfold State.tierWrite
  dsimp only
  split <;> exact placed

theorem dumpWord_mas (s : State) (w v : Nat) : (dumpWord s w v).mas = s.mas := by
  unfold dumpWord
  split
  · exact State.tierWrite_mas _ _ _ _ _ _ _
  · rfl

theorem dumpRecord_mas (s : State) (at' : Nat) (r : Record) : (dumpRecord s at' r).mas = s.mas :=
  foldl_keeps (fun t : State => t.mas) (fun _ _ => dumpWord_mas _ _ _) r s

theorem correctedCount_mas (s : State) (n : Nat) : (correctedCount s n).2.mas = s.mas := by
  unfold correctedCount
  split <;> rfl

theorem lintelEmpty_mas (s : State) (die : Nat) (side : Side) : (lintelEmpty s die side).2.mas = s.mas := by
  unfold lintelEmpty
  dsimp only
  split
  · rfl
  · split <;> rfl

theorem latencyWord_mas (s : State) (die : Nat) (side : Side) : (latencyWord s die side).2.mas = s.mas := by
  unfold latencyWord
  dsimp only
  split <;> rfl

theorem revealed_mas (s : State) (p : Page) (off : Nat) : (revealed s p off).mas = s.mas := by
  unfold revealed
  split
  · split
    · exact (State.count16_mas _ _ _ _ _).trans (correctedCount_mas _ _)
    · rfl
  · dsimp only
    split
    · exact lintelEmpty_mas _ _ _
    · split
      · exact latencyWord_mas _ _ _
      · split
        · exact (State.count16_mas _ _ _ _ _).trans (correctedCount_mas _ _)
        · rfl
  · rfl

theorem clearRc_mas (s : State) (p : Page) (off : Nat) : (clearRc s p off).mas = s.mas :=
  foldl_keeps (fun t : State => t.mas) (fun _ _ => by split <;> rfl) _ s

theorem ashAfterRead_mas (s : State) (a : Ash) (off : Nat) : (ashAfterRead s a off).mas = s.mas := by
  unfold ashAfterRead
  split
  · rfl
  · split
    · rfl
    · split
      · exact State.record_mas _ _ _ _
      · rfl

theorem afterRead_mas (s : State) (p : Page) (off : Nat) : (afterRead s p off).mas = s.mas := by
  unfold afterRead
  split
  · split <;> exact clearRc_mas _ _ _
  · exact (ashAfterRead_mas _ _ _).trans (clearRc_mas _ _ _)
  · exact clearRc_mas _ _ _

theorem freqRead_mas (s : State) : (freqRead s).2.mas = s.mas := by
  unfold freqRead
  dsimp only
  split <;> rfl

/-- A register read leaves the Mason as it is. -/
theorem readReg_mas (s : State) (p : Page) (off : Nat) : (readReg s p off).2.mas = s.mas := by
  have shown : (if pageExists s.part p then revealed s p off else s).mas = s.mas := by
    split
    · exact revealed_mas _ _ _
    · rfl
  unfold readReg
  dsimp only
  generalize (if pageExists s.part p then revealed s p off else s) = t at shown ⊢
  split
  · exact shown
  · split
    · exact (State.record_mas _ _ _ _).trans shown
    · split
      · exact (freqRead_mas _).trans shown
      · split <;> exact (afterRead_mas _ _ _).trans shown

theorem dumpPage_mas (s : State) (p : Page) : (dumpPage s p).2.mas = s.mas :=
  foldl_keeps (fun r : List Word × State => r.2.mas) (fun _ _ => readReg_mas _ _ _) _ _

/-- A dump set changes no job. -/
theorem dumpSet_jobs (s : State) (code : Nat) (id : Half) (b m : Nat) (l : List Ash) :
    (dumpSet s code id b m l).mas.jobs = s.mas.jobs := by
  rw [dumpSet]
  cases bay : s.bay id b with
  | none => rfl
  | some x =>
    dsimp only
    cases member : x.members[m]? with
    | none => rfl
    | some y =>
      dsimp only
      rw [(OnlyPosts.masEvent _ _ _ _).jobs]
      refine (State.jobs_onMas _ fun _ => by rfl).trans ?_
      rw [dumpWord_mas, dumpRecord_mas]
      refine congrArg Mason.jobs ((foldl_keeps (fun t : State => t.mas) (fun t q => ?_) _ _).trans ?_)
      · rw [dumpRecord_mas, dumpPage_mas]
      refine (foldl_keeps (fun t : State => t.mas) (fun t q => ?_) _ _).trans (dumpRecord_mas _ _ _)
      rw [dumpRecord_mas, dumpRecord_mas]

/-! ### A faulted job of class T (R390, R624) -/

/-- The command that a job's end answers waits no more. -/
theorem job_answerWait (s : State) (id : Half) (status event result : Nat) :
    (answerWait s id status event result).job id = (s.job id).map fun j => { j with wait := none } := by
  unfold answerWait
  cases job : s.job id with
  | none => exact job
  | some j =>
    dsimp only
    split
    case h_1 idle => simp [job, ← idle]
    case h_2 w _ => exact ((OnlyPosts.complete _ _ _ _ _ _).job id).trans (State.job_onJob_same job fun _ => rfl)

/-- A job as a fault leaves it. -/
def Job.fault (j : Job) (code : Nat) : Job := { j with state := .faulted, saves := [], cause := BitVec.ofNat 16 code }

/-- A job that has not faulted and is not pre-empted comes to stand FAULTED with the code that faulted it, behind its fences,
frozen and dumped. -/
theorem job_faultJob {s : State} {id : Half} {j : Job} (code : Nat) (job : s.job id = some j) (stands : j.state ≠ .faulted)
    (stays : j.state ≠ .preempting) : ∃ x : Job, (faultJob s id code).job id = some { x.fault code with wait := none } := by
  have draining : (j.state == .preempting && j.step != 6) = false := by simp [stays]
  unfold faultJob
  simp only [job, draining, stands, Bool.false_eq_true, false_and, or_false, if_false]
  rw [job_answerWait]
  have present : ∀ t : State, (t.job id).isSome = true → ∃ x : Job, ((t.onJob id fun x : Job => x.fault code).job id).map
      (fun j : Job => { j with wait := none }) = some { x.fault code with wait := none } := fun t there => by
    obtain ⟨x, found⟩ := Option.isSome_iff_exists.1 there
    exact ⟨x, by rw [State.job_onJob_same found (f := fun x => x.fault code) fun _ => rfl]; rfl⟩
  refine present _ ?_
  refine (foldl_keeps (fun t : State => (t.job id).isSome) (fun t k => ?_) _ _).trans ?_
  · split
    · split
      · rfl
      · exact congrArg _ (State.job_congr (dumpSet_jobs _ _ _ _ _ _) id)
    · rfl
  · refine (congrArg _ (State.job_congr (congrArg Mason.jobs (freezeAll_mas _ _)) id)).trans ?_
    refine (foldl_keeps (fun t : State => (t.job id).isSome) (step := fun t (k : Nat × Nat) => fenceMember t id k.1 k.2 false)
      (fun t k => isSome_job_fenceMember t id id k.1 k.2 false) _ _).trans ?_
    rw [job]
    rfl

/-! ### A faulted member of class S (R610, R624) -/

theorem sendTemplate_mas (s : State) (d t : Nat) (words : List Word) (seq : Word) (version : Option Half) :
    (sendTemplate s d t words seq version).1.mas = s.mas := by
  unfold sendTemplate enqueueFrame
  dsimp only
  split
  · rfl
  · split
    · exact State.raise_mas _ _ _ _
    · split
      · exact State.raise_mas _ _ _ _
      · rfl

theorem settleSilent_mas (s : State) (d k : Nat) : (settleSilent s d k).mas = s.mas := by
  unfold settleSilent sendUnavail
  dsimp only
  split
  · split
    · split <;> exact sendTemplate_mas _ _ _ _ _ _
    · rfl
  · rfl

theorem settleMode_mas (s : State) (id : Half) (b : Nat) : (settleMode s id b).mas = s.mas := by
  unfold settleMode writeGroup grpModeWrite
  split
  · rfl
  · split
    · rfl
    · exact settleSilent_mas _ _ _

/-- A serving member taken out of service stands FAULTED with the code that faulted it. -/
theorem member_faultServing {s : State} {id : Half} {b m : Nat} {y : Member} (code : Nat) (member : s.member id b m = some y) :
    (faultServing s id b m code).member id b m = some (y.fault s code) := by
  cases bay : s.bay id b with
  | none => simp [State.member, bay] at member
  | some x =>
    have jobs : (settleMode ((setLive s x m false).onMember id b m fun y => y.fault s code) id b).mas.jobs =
        ((setLive s x m false).onMember id b m fun y => y.fault s code).mas.jobs := congrArg Mason.jobs (settleMode_mas _ _ _)
    have settled : (settleMode ((setLive s x m false).onMember id b m fun y => y.fault s code) id b).member id b m =
        some (y.fault s code) := by
      rw [State.member_congr jobs, State.member_onMember_same,
        State.member_congr (congrArg Mason.jobs (setLive_mas s x m false)), member]
      rfl
    simp only [faultServing, bay]
    split
    · split
      · rw [State.member_congr (OnlyPosts.masEvent _ _ _ _).jobs, settled]
      · exact settled
    · exact settled

/-! ### A faulted member, by its job's class (R623) -/

theorem faultMember_classT {s : State} {id : Half} {b m : Nat} {j : Job} {y : Member} (code : Nat) (job : s.job id = some j)
    (member : s.member id b m = some y) (clsT : j.clsT = true) (placed : y.placed = true) (loaded : y.state ≠ .loading) :
    faultMember s id b m code = faultJob s id code := by
  simp [faultMember, job, member, clsT, placed, loaded]

theorem faultMember_serving {s : State} {id : Half} {b m : Nat} {j : Job} {y : Member} (code : Nat) (job : s.job id = some j)
    (member : s.member id b m = some y) (clsS : j.clsT = false) (serves : y.state = .serving) :
    faultMember s id b m code = faultServing s id b m code := by
  simp [faultMember, job, member, clsS, serves]

/-! ### Events of an ashlar (R493, R623, R633) -/

/-- An event of class BAY faults its ashlar's member. -/
theorem ashFaults_bay (s : State) (a : Ash) {code : Nat} (bay : code / 4096 = 3) : ashFaults s a code = true := by
  simp [ashFaults, bay]

theorem noteWord_none {a : Ash} {r : Report} (s : State) (noWord : badPlace a r = none) : noteWord s a r = (false, s) := by
  simp [noteWord, noWord]

theorem noteLink_other {a : Ash} {code : Nat} (s : State) (other : code ≠ evCode (.ash a) evLinkUe) :
    noteLink s a code = (false, s) := if_pos other

/-- An event of class BAY that shows no failed row faults the member that holds its ashlar. -/
theorem ashEvent_bay {s : State} {a : Ash} {r : Report} (bay : r.word.toNat / 4096 = 3) (word : (noteWord s a r).1 = false)
    (link : (noteLink (noteWord s a r).2 a r.word.toNat).1 = false) :
    ashEvent s a r = (faultAsh (noteLink (noteWord s a r).2 a r.word.toNat).2 a r.word.toNat, a) := by
  simp [ashEvent, word, link, ashFaults_bay s a bay]

/-- One that shows its row to have failed has the row retired first, and the ashlar's bay faulted with it. -/
theorem ashEvent_row {s : State} {a : Ash} {r : Report} (bay : r.word.toNat / 4096 = 3)
    (failed : (noteWord s a r).1 = true ∨ (noteLink (noteWord s a r).2 a r.word.toNat).1 = true) :
    let t := retireRow (noteLink (noteWord s a r).2 a r.word.toNat).2 a.die a.row (some (a, r.word.toNat))
    ashEvent s a r = (t, movedAsh s t a) := by
  simp [ashEvent, failed, ashFaults_bay s a bay]

/-- An event report of an ashlar is posted for its job, then acted on, with what its page holds. -/
theorem takeReport_ash (s : State) {a : Ash} {r : Report} (page : r.page = .ash a) (event : r.event = true) :
    let u := (s.onMas fun m => { m with raisedAt := r.time }).post r.word.toNat r.job (pageSrc s (.ash a)) false
    takeReport s r = actHeld (ashEvent u a r).1 (ashEvent u a r).2 := by
  simp [takeReport, handleEvent, eventJob, dissentMuted, page, event]

theorem actHeld_none {s : State} (a : Ash) (empty : s.heldEvents = []) : actHeld s a = s := by
  have emptied : ({ s with heldEvents := [] } : State) = s := by rw [← empty]
  simp [actHeld, heldOf, empty, emptied]

/-- One event held in an ashlar's page. -/
theorem actHeld_one {s : State} {a : Ash} {r : Report} (one : s.heldEvents = [r]) (page : r.page = .ash a) :
    actHeld s a = (ashEvent ({ s with heldEvents := [] }.onMas fun m => { m with raisedAt := r.time }) a r).1 := by
  simp [actHeld, heldOf, one, page]

/-! ### The mailbox (R493) -/

theorem exec_mailboxEntry {s : State} {die : Nat} (onPart : die < s.part.dies) (on : powered s = true)
    (ready : s.mas.ready = true) (inTime : raccLate s die = false) :
    exec (.mailboxEntry die) s = .next (mailboxEntry s die) := by
  change execMailboxEntry die s = _
  simp [execMailboxEntry, onPart, atModule_powered on, ready, raccWatch, inTime]

/-! ### The probe for deadlock (R357) -/

theorem exec_deadlockProbe {s : State} {a : Ash} (runs : AshRuns s a) (ready : s.mas.ready = true) :
    exec (.deadlockProbe a) s = .next (deadlockProbe s a) := by
  change execDeadlockProbe a s = _
  rw [execDeadlockProbe, atAsh_runs runs, if_pos ready]

theorem deadlockProbe_same {s : State} {a : Ash} (same : sameCycle (keptProbe s a).2 (probeCycle s a) = true)
    (waited : 10000 ≤ (s.time - (keptProbe s a).1).toNat) : deadlockProbe s a = declareDeadlock
      (s.onMas fun m => { m with probe := otherProbes s a, raisedAt := s.time }) ((probeCycle s a).map fun x => x.1) := by
  simp only [deadlockProbe, same, if_true, if_neg (Nat.not_lt.2 waited)]

/-- The probes kept after one that finds another cycle than the last: its own, where it finds one, beside the others'. -/
def probesAfter (s : State) (a : Ash) : List (Ash × DWord × List (Ash × List Half)) :=
  if (probeCycle s a).isEmpty then otherProbes s a else otherProbes s a ++ [(a, s.time, probeCycle s a)]

theorem deadlockProbe_other {s : State} {a : Ash} (other : sameCycle (keptProbe s a).2 (probeCycle s a) = false) :
    deadlockProbe s a = s.onMas fun m => { m with probe := probesAfter s a } := by
  simp only [deadlockProbe, other, Bool.false_eq_true, if_false]
  rfl

theorem keptProbe_onMas (s : State) (l : List (Ash × DWord × List (Ash × List Half))) (b : Ash) :
    keptProbe (s.onMas fun m => { m with probe := l }) b = ((l.find? fun x => x.1 == b).map fun x => x.2).getD (0, []) := rfl

/-- No probe of an ashlar stands among the others'. -/
theorem find_otherProbes_same (s : State) (a : Ash) : (otherProbes s a).find? (fun x => x.1 == a) = none := by
  simp [otherProbes, List.find?_eq_none]

theorem find_otherProbes_ne (s : State) {a b : Ash} (other : b ≠ a) :
    (otherProbes s a).find? (fun x => x.1 == b) = s.mas.probe.find? fun x => x.1 == b := by
  rw [otherProbes, List.find?_filter]
  congr 1
  funext x
  by_cases mine : x.1 = b <;> simp [mine, other]

theorem find_probesAfter_same {s : State} {a : Ash} (found : probeCycle s a ≠ []) :
    (probesAfter s a).find? (fun x => x.1 == a) = some (a, s.time, probeCycle s a) := by
  simp [probesAfter, found, List.find?_append, find_otherProbes_same]

theorem find_probesAfter_ne {s : State} {a b : Ash} (other : b ≠ a) :
    (probesAfter s a).find? (fun x => x.1 == b) = s.mas.probe.find? fun x => x.1 == b := by
  unfold probesAfter
  split
  · exact find_otherProbes_ne s other
  · simp [List.find?_append, find_otherProbes_ne s other, Ne.symm other]

/-- Settles O43: the mailbox, the event, what a page holds, the fault of each class, and the two outcomes of a probe. -/
theorem masonEvents : Obligations.MasonEvents := by
  refine fun s die => ⟨fun onPart on ready inTime => ?_, ?_, fun a empty => actHeld_none a empty, ?_, ?_, ?_⟩
  · rw [exec_mailboxEntry onPart on ready inTime]
    exact ⟨fun r l row inbox => by rw [mailboxEntry, row, inbox], fun a l row => by rw [mailboxEntry, row]⟩
  · intro a w coord job at' n bay r u x y t
    have taken := takeReport_ash s (a := a) (r := r) rfl rfl
    refine ⟨fun word link => ?_, fun noWord other => ?_, fun failed => ?_⟩
    · rw [taken, ashEvent_bay bay word link]
    · have noted : x = (false, u) := noteWord_none u noWord
      have linked : y = (false, u) := by
        rw [show y = noteLink x.2 a w.toNat from rfl, noted]
        exact noteLink_other u other
      rw [noted, linked]
      exact ⟨rfl, rfl, rfl⟩
    · rw [taken, ashEvent_row bay failed]
  · intro a r one page bay noWord other
    rw [actHeld_one one page, ashEvent_bay bay (by rw [noteWord_none _ noWord]) (by
      rw [noteWord_none _ noWord, noteLink_other _ other]), noteWord_none _ noWord, noteLink_other _ other]
  · intro id bi m code j y job member
    refine ⟨fun clsT placed loaded stands stays => ?_, fun clsS serves => ?_⟩
    · obtain ⟨x, faulted⟩ := job_faultJob code job stands stays
      rw [faultMember_classT code job member clsT placed loaded, faulted]
      rfl
    · rw [faultMember_serving code job member clsS serves, member_faultServing code member]
      rfl
  · intro a runs ready c kept
    rw [exec_deadlockProbe runs ready]
    refine ⟨fun same waited => by rw [deadlockProbe_same same waited], fun other => ⟨_, rfl, fun found => ?_, fun b apart => ?_⟩⟩
    · rw [deadlockProbe_other other, keptProbe_onMas, find_probesAfter_same found]
      rfl
    · rw [deadlockProbe_other other, keptProbe_onMas, find_probesAfter_ne apart]
      rfl

end Sys2Proof.Machine
end

section
/-! PROOF. The commands of one job (R395, R467, R485, R487, R496), the stream slots (R489 to R491) and a publish (R457 to R461): a
command taken acts on the job it names, and what each part of its work leaves of the jobs. -/

namespace Sys2Proof.Machine

/-! ### A command taken -/

/-- A command that the Mason takes acts on the state with its entry fetched. -/
theorem hostCommand_taken {s : State} {c : HostCmd} {op : Nat} (taken : Taken s c op) (known : 0 < op ∧ op ≤ 0x0D)
    (go : State → State) : hostCommand s c op go = .next (go (fetchOne s)) := by
  obtain ⟨fetches, opcode, clean, -⟩ := taken
  have inTable : ¬(op = 0 ∨ 0x0D < op) := by omega
  simp [hostCommand, fetches, opcode, clean, inTable]

theorem job_fetchOne (s : State) (id : Half) : (fetchOne s).job id = s.job id := rfl

/-- A command of a job that has no other open acts on that job. -/
theorem jobCommand_taken {s : State} {c : HostCmd} {op : Nat} {j : Job} (job : s.job c.job = some j)
    (idle : jobBusy s c.job = false) (taken : Taken s c op) (known : 0 < op ∧ op ≤ 0x0D) (go : Job → State → State) :
    jobCommand s c op go = .next (go j (fetchOne s)) := by
  simp [jobCommand, idle, taken.awake, hostCommand_taken taken known, job_fetchOne, job]

/-! ### A job as it is found and changed -/

theorem State.isSome_job_congr {s t : State} (same : t.mas.jobs = s.mas.jobs) (id : Half) :
    (t.job id).isSome = (s.job id).isSome := congrArg Option.isSome (State.job_congr same id)

/-- A job that is found stands in the state it is put in. -/
theorem State.state_onJob {s : State} {id : Half} {f : Job → Job} {v : JobState} (there : (s.job id).isSome = true)
    (number : ∀ j, (f j).id = j.id) (stands : ∀ j, (f j).state = v) :
    ((s.onJob id f).job id).map (fun j => j.state) = some v := by
  obtain ⟨j, job⟩ := Option.isSome_iff_exists.1 there
  rw [State.job_onJob_same job number, Option.map_some, stands]

/-- The completion of a command leaves the state of a job. -/
theorem State.state_complete (s : State) (id : Half) (tag : Word) (status reason event result : Nat) :
    ((s.complete tag status reason event result).job id).map (fun j => j.state) = (s.job id).map fun j => j.state := by
  rw [(OnlyPosts.complete s tag status reason event result).job]

theorem State.complete_loads (s : State) (tag : Word) (status reason event result : Nat) :
    (s.complete tag status reason event result).mas.loads = s.mas.loads := by
  unfold State.complete cplPut State.writeRing
  dsimp only
  split
  · split <;> simp
  · rfl

/-! ### START_JOB (R496) -/

theorem startJoiners_mas (s : State) (id : Half) (b m : Nat) (autorun : Bool) : (startJoiners s id b m autorun).mas = s.mas := by
  unfold startJoiners
  split
  · exact foldl_keeps (fun t : State => t.mas) (fun t a => State.onJ_mas t a _) _ s
  · rfl

theorem isSome_job_serveMember (s : State) (id k : Half) (b m : Nat) (autorun : Bool) :
    ((serveMember s id b m autorun).job k).isSome = (s.job k).isSome := by
  have served : (((startJoiners s id b m autorun).memberState id b m .serving).job k).isSome = (s.job k).isSome :=
    (State.isSome_job_onMember _ id k b m _).trans
      (State.isSome_job_congr (congrArg Mason.jobs (startJoiners_mas s id b m autorun)) k)
  unfold serveMember
  dsimp only
  split
  · split
    · exact served
    · refine (State.isSome_job_congr (congrArg Mason.jobs ?_) k).trans served
      rw [settleMode_mas, setLive_mas]
  · exact served

theorem state_serveJob {s : State} {id : Half} (there : (s.job id).isSome = true) (autorun : Bool) :
    ((serveJob s id autorun).job id).map (fun j => j.state) = some .running := by
  obtain ⟨j, job⟩ := Option.isSome_iff_exists.1 there
  rw [serveJob, job]
  refine State.state_onJob ?_ (fun _ => rfl) fun _ => rfl
  exact (foldl_keeps (fun t : State => (t.job id).isSome) (fun t (k : Nat × Nat) =>
    isSome_job_serveMember t id id k.1 k.2 autorun) _ s).trans there

/-! ### STOP_JOB (R482, R485, R496) -/

/-- The course map alone says where a logical row lies (R23). -/
theorem physicalRow_congr_course {s t : State} {d : Nat} (same : t.reg (.cfgDie d) 0x50 = s.reg (.cfgDie d) 0x50) (r : Nat) :
    physicalRow t d r = physicalRow s d r := by
  have rows : retiredRows t d = retiredRows s d := by rw [retiredRows, retiredRows, State.fld, State.fld, State.fld, State.fld,
    State.fld, State.fld, State.fld, State.fld, same]
  simp only [physicalRow, logicalRow, rows]

/-- A job holds the same ashlars in every state with the same course maps. -/
theorem Job.ashlars_congr {s t : State} (same : ∀ d, t.reg (.cfgDie d) 0x50 = s.reg (.cfgDie d) 0x50) (j : Job) :
    j.ashlars t = j.ashlars s := by
  have rect (d x y w h : Nat) : rectAsh t d x y w h = rectAsh s d x y w h := by
    simp only [rectAsh, physicalRow_congr_course (same d)]
  simp only [Job.ashlars, Bay.ashlars, rect]

theorem ashlars_fetchOne (s : State) (j : Job) : j.ashlars (fetchOne s) = j.ashlars s :=
  j.ashlars_congr fun d => State.reg_setReg_page s (q := .cfgDie d) _ _ _ (by simp)

/-- Step 1 of a pre-emption (R482): AUTORUN cleared in every ashlar named. -/
def clearAutorun (s : State) (l : List Ash) : State := l.foldl (fun t a => t.onJ a fun x => { x with autorun := false }) s

theorem clearAutorun_mas (s : State) (l : List Ash) : (clearAutorun s l).mas = s.mas :=
  foldl_keeps (fun t : State => t.mas) (fun t a => State.onJ_mas t a _) l s

theorem autorun_clearAutorun (s : State) {l : List Ash} {a : Ash} (mem : a ∈ l) :
    ((clearAutorun s l).ash a).joiner.autorun = false := by
  have cleared (t : State) : ((t.onJ a fun x => { x with autorun := false }).ash a).joiner.autorun = false := by
    rw [State.onJ, State.ash_onAsh_same]
    rfl
  refine foldl_reaches (J := fun _ => True) (P := fun t : State => (t.ash a).joiner.autorun = false) mem (fun _ _ _ => trivial)
    (fun t _ => cleared t) (fun t b off => ?_) trivial
  by_cases here : a = b
  · rw [← here]
    exact cleared t
  · rw [State.onJ, State.ash_onAsh_ne _ _ here]
    exact off

section
variable {s : State} {id : Half} {j : Job} (job : s.job id = some j) (running : j.state = .running) (clsT : j.clsT = true)
include job running clsT

/-- The pre-emption of a running class T job begins. -/
theorem startPreempt_running : startPreempt s id =
    (clearAutorun s (j.ashlars s)).onJob id fun x => { x with state := .preempting, step := 1 } := by
  simp [startPreempt, job, running, clsT, clearAutorun]

theorem job_startPreempt_running : (startPreempt s id).job id = some { j with state := .preempting, step := 1 } := by
  rw [startPreempt_running job running clsT]
  exact State.job_onJob_same ((State.job_congr (congrArg Mason.jobs (clearAutorun_mas s _)) id).trans job) fun _ => rfl

theorem autorun_startPreempt_running {a : Ash} (mem : a ∈ j.ashlars s) :
    ((startPreempt s id).ash a).joiner.autorun = false := by
  rw [startPreempt_running job running clsT]
  exact autorun_clearAutorun s mem

end

/-- A running class T job that is stopped is kept and pre-empted, the command waiting for the end of that. -/
theorem stopCmd_running {s : State} {j : Job} (tag : Word) (running : j.state = .running) (clsT : j.clsT = true) :
    stopCmd tag j s = (startPreempt (s.onJob j.id fun x => { x with kept := true }) j.id).onJob j.id
      fun x => { x with wait := some (tag, 3) } := by
  simp [stopCmd, running, clsT]

section
variable {s : State} {j : Job} (tag : Word) (job : s.job j.id = some j) (running : j.state = .running) (clsT : j.clsT = true)
include job running clsT

theorem state_stopCmd_classT : ((stopCmd tag j s).job j.id).map (fun x => x.state) = some .preempting := by
  have kept := State.job_onJob_same (f := fun x => { x with kept := true }) job fun _ => rfl
  rw [stopCmd_running tag running clsT,
    State.job_onJob_same (f := fun x => { x with wait := some (tag, 3) }) (job_startPreempt_running kept running clsT)
      fun _ => rfl]
  rfl

theorem autorun_stopCmd_classT {a : Ash} (mem : a ∈ j.ashlars s) : ((stopCmd tag j s).ash a).joiner.autorun = false := by
  have kept := State.job_onJob_same (f := fun x => { x with kept := true }) job fun _ => rfl
  rw [stopCmd_running tag running clsT]
  exact autorun_startPreempt_running kept running clsT mem

end

theorem writeGroup_mas (s : State) (b : Bay) (serving : List Nat) : (writeGroup s b serving).mas = s.mas := by
  unfold writeGroup grpModeWrite
  split
  · rfl
  · exact settleSilent_mas _ _ _

theorem isSome_job_stopBay (s : State) (id k : Half) (bi : Nat) : ((stopBay s id bi).job k).isSome = (s.job k).isSome := by
  have silenced (t : State) (b : Bay) (c : Prop) [Decidable c] :
      ((if c then writeGroup t b [] else t).job k).isSome = (t.job k).isSome := by
    split
    · exact State.isSome_job_congr (congrArg Mason.jobs (writeGroup_mas t b [])) k
    · rfl
  unfold stopBay
  split
  · rfl
  · refine (silenced _ _ _).trans (foldl_keeps (fun t : State => (t.job k).isSome) (fun t m => ?_) _ s)
    split
    · rw [State.isSome_job_onMember, isSome_job_fenceMember]
    · rfl

/-- A running class S job is stopped bay by bay. -/
theorem state_stopCmd_classS {s : State} {j : Job} (tag : Word) (job : s.job j.id = some j) (running : j.state = .running)
    (clsS : j.clsT = false) : ((stopCmd tag j s).job j.id).map (fun x => x.state) = some .stopped := by
  simp only [stopCmd, running, clsS, reduceCtorEq, Bool.false_eq_true, if_false, if_true]
  rw [State.state_complete]
  refine State.state_onJob ?_ (fun _ => rfl) fun _ => rfl
  rw [foldl_keeps (fun t : State => (t.job j.id).isSome) (step := fun t b => stopBay t j.id b)
    (fun t b => isSome_job_stopBay t j.id j.id b) _ s, job]
  rfl

/-! ### RESUME_JOB (R487, R496) -/

theorem isSome_job_unfenceMember (s : State) (id k : Half) (b m : Nat) :
    ((unfenceMember s id b m).job k).isSome = (s.job k).isSome := by
  unfold unfenceMember
  split
  · rfl
  · split
    · rfl
    · refine (State.isSome_job_onMember _ id k b m _).trans (State.isSome_job_congr ?_ k)
      rw [State.setFld_mas, setFence_mas]

theorem isSome_job_resumeBay (s : State) (id k : Half) (bi : Nat) : ((resumeBay s id bi).job k).isSome = (s.job k).isSome := by
  have settled (t : State) (c : Prop) [Decidable c] :
      ((if c then t else settleMode t id bi).job k).isSome = (t.job k).isSome := by
    split
    · rfl
    · exact State.isSome_job_congr (congrArg Mason.jobs (settleMode_mas t id bi)) k
  unfold resumeBay
  split
  · rfl
  · refine (settled _ _).trans (foldl_keeps (fun t : State => (t.job k).isSome) (fun t m => ?_) _ s)
    rw [State.memberState, State.isSome_job_onMember,
      State.isSome_job_congr (congrArg Mason.jobs (setLive_mas _ _ _ _)), isSome_job_unfenceMember]

/-- A stopped class S job is resumed bay by bay. -/
theorem state_resumeCmd_classS {s : State} {j : Job} (tag : Word) (job : s.job j.id = some j) (stopped : j.state = .stopped)
    (clsS : j.clsT = false) : ((resumeCmd tag j s).job j.id).map (fun x => x.state) = some .running := by
  simp only [resumeCmd, stopped, clsS, reduceCtorEq, Bool.false_eq_true, false_and, if_false, if_true]
  rw [State.state_complete]
  refine State.state_onJob ?_ (fun _ => rfl) fun _ => rfl
  rw [foldl_keeps (fun t : State => (t.job j.id).isSome) (step := fun t b => resumeBay t j.id b)
    (fun t b => isSome_job_resumeBay t j.id j.id b) _ s, job]
  rfl

/-- A kept class T job that is resumed goes back to the run queue, the command waiting until it runs. -/
theorem resumeCmd_kept (s : State) {j : Job} (tag : Word) (clsT : j.clsT = true) (kept : j.kept = true)
    (preempted : j.state = .preempted) :
    resumeCmd tag j s = s.onJob j.id fun x => { x with kept := false, wait := some (tag, 4) } := by
  simp [resumeCmd, clsT, kept, preempted]

/-! ### UNLOAD_JOB (R496) -/

/-- Whatever its bays, frames and engines leave, a job is freed by the Mason forgetting it and its loads. -/
theorem freeJob_forgets {s : State} {id : Half} {j : Job} (job : s.job id = some j) : ∃ t : State, freeJob s id =
    t.onMas fun m => { m with jobs := m.jobs.filter fun x => x.id != id, loads := m.loads.filter fun q => q.job != id } := by
  rw [freeJob, job]
  exact ⟨_, rfl⟩

theorem job_freeJob {s : State} {id : Half} {j : Job} (job : s.job id = some j) : (freeJob s id).job id = none := by
  obtain ⟨t, forgets⟩ := freeJob_forgets job
  simp [forgets, State.job, State.onMas]

theorem loads_freeJob {s : State} {id : Half} {j : Job} (job : s.job id = some j) :
    ∀ q ∈ (freeJob s id).mas.loads, q.job ≠ id := by
  obtain ⟨t, forgets⟩ := freeJob_forgets job
  simp [forgets, State.onMas]

/-! ### SIGNAL (R395) -/

/-- n added to a peg of one member of a bay, at a place relative to its origin, where the member stands. -/
def signalMember (x y peg n : Nat) (s : State) (m : Member) : State :=
  match physicalRow s m.die (m.y + y) with
  | some row => if m.placed then addToPeg s ⟨m.die, m.x + x, row⟩ peg n else s
  | none => s

section
variable (s : State) {c : HostCmd} {j : Job} {b : Bay} (bay : j.bays[argNat c.args 0 1]? = some b)
include bay

theorem signalCmd_inside (col : argNat c.args 1 1 < b.img.w) (row : argNat c.args 2 1 < b.img.h) (peg : argNat c.args 3 1 < 48)
    (placed : b.members.any (fun m => m.placed) = true) : signalCmd c j s =
      (b.members.foldl (signalMember (argNat c.args 1 1) (argNat c.args 2 1) (argNat c.args 3 1) (argNat c.args 4 2))
        s).complete c.tag 0 0 0 0 := by
  have inside : ¬(b.img.w ≤ argNat c.args 1 1 ∨ b.img.h ≤ argNat c.args 2 1 ∨ 48 ≤ argNat c.args 3 1) := by omega
  simp only [signalCmd, bay, if_neg inside, placed, Bool.not_true, Bool.false_eq_true, if_false]
  rfl

theorem signalCmd_outside (outside : b.img.w ≤ argNat c.args 1 1 ∨ b.img.h ≤ argNat c.args 2 1 ∨ 48 ≤ argNat c.args 3 1) :
    signalCmd c j s = s.complete c.tag 2 0 0 0 := by
  simp only [signalCmd, bay, if_pos outside]

end

/-! ### Stream slots (R489 to R491) -/

/-- SLOT_ADD of a new key to a bay of class S with a free slot, where the port's table takes it. -/
theorem slotAddCmd_fits {s : State} {c : HostCmd} {j : Job} {b : Bay} (clsS : j.clsT = false)
    (bay : j.bays[slotBay c]? = some b) (port : b.portDie s = some (slotPort c))
    (fresh : (s.die (slotPort c)).ing.find (slotKey c) = none) :
    let n := b.slots.findIdx fun x => x == .free
    let r := (s.die (slotPort c)).ing.insert (slotKey c) (BitVec.ofNat 16 n) (BitVec.ofNat 3 b.img.group)
    n < b.slots.length → r.1 = 0 → slotAddCmd c j s =
      (setSlot ((initSlot s b n).onIng (slotPort c) fun _ => r.2) j.id (slotBay c) n
        (.live (slotPort c) (slotKey c))).complete c.tag 0 0 0 n := by
  intro n r free put
  have itsPort : b.img.port = slotPort c := by
    unfold Bay.portDie at port
    split at port
    · exact Option.some.inj port
    · cases port
  have may : ¬(b.img.port ≠ slotPort c ∨ (b.portDie s).isNone = true ∨ j.clsT = true) := by simp [itsPort, port, clsS]
  have room : ¬b.slots.length ≤ n := Nat.not_le.2 free
  simp only [slotAddCmd, bay, if_neg may, fresh, Option.isSome_none, Bool.false_eq_true, if_false]
  rw [if_neg room, if_neg fun refuses => refuses put]

/-- SLOT_ADD to a settled bay does not wait. -/
theorem exec_slotAdd {s : State} {c : HostCmd} {j : Job} {b : Bay} (taken : Taken s c 7) (job : s.job c.job = some j)
    (idle : jobBusy s c.job = false) (bay : j.bays[slotBay c]? = some b) (settled : b.unsettled = false) :
    exec (.slotAdd c) s = .next (slotAddCmd c j (fetchOne s)) := by
  have found : s.bay c.job (slotBay c) = some b := by rw [State.bay, job]; exact bay
  change execSlotAdd c s = _
  rw [execSlotAdd, if_neg (by simp [found, settled])]
  exact jobCommand_taken job idle taken (by decide) _

/-- SLOT_REMOVE of a settled bay's key: the entry goes and the slot drains from the sequence number that the port has reached. -/
theorem exec_slotRemove {s : State} {c : HostCmd} {b : Bay} {id : Half} {bi n : Nat} (taken : Taken s c 8)
    (live : liveSlot s (slotPort c) (slotKey c) = some (id, bi, b, n)) (settled : b.unsettled = false) :
    exec (.slotRemove c) s = .next ((setSlot ((fetchOne s).onIng (slotPort c) fun _ =>
      ((s.die (slotPort c)).ing.delete (slotKey c)).2) id bi n (.drain (s.die (slotPort c)).ing.seq)).complete c.tag 0 0 0 0) := by
  change execSlotRemove c s = _
  rw [execSlotRemove, if_neg (by simp [live, settled]), whileAwake, if_pos taken.awake,
    hostCommand_taken taken (by decide), live]
  rfl

theorem slotDrainDone_drain {s : State} {id : Half} {bi n d : Nat} {b : Bay} {seq : Word} (bay : s.bay id bi = some b)
    (port : b.portDie s = some d) (drains : b.slots[n]? = some (.drain seq)) : slotDrainDone s id bi n =
      if drainedBefore s d (b.img.group % 8) seq = true then setSlot s id bi n .free else s := by
  simp only [slotDrainDone, bay, drains, port]

/-! ### PUBLISH (R457 to R461) -/

section
variable {s : State} {c : HostCmd} {train id : Half} {bi : Nat} (itsTrain : BitVec.ofNat 16 (argNat c.args 0 2) = train)
  (itsJob : BitVec.ofNat 16 (argNat c.args 2 2) = id) (itsBay : argNat c.args 4 1 = bi)

include itsTrain itsJob in
/-- A PUBLISH does not wait where none is under way and neither of its jobs has a command open. -/
theorem exec_publish (tensors : List DeriveTensor) (taken : Taken s c 9) (noPublish : s.mas.publish = none)
    (trainIdle : jobBusy s train = false) (idle : jobBusy s id = false) :
    exec (.publish c tensors) s = .next (publishCmd c tensors (fetchOne s)) := by
  change execPublish c tensors s = _
  rw [execPublish, if_neg (by simp [noPublish, itsTrain, itsJob, trainIdle, idle, taken.awake]), hostCommand_taken taken (by decide)]

variable {j : Job} {b : Bay} {tensors : List DeriveTensor} {u : State} (trains : (s.job train).isSome = true)
  (job : s.job id = some j) (bay : j.bays[bi]? = some b) (clsS : j.clsT = false) (serve : b.allServe = true)
include itsTrain itsJob itsBay trains job bay clsS serve

/-- A PUBLISH to a class S bay that all its members serve: the rows derived of the training job's tensors are staged, and the
members taken for install. -/
theorem publishCmd_derived {rows : List DerivedRow} (derived : deriveAll train (b.version + 1) tensors s = (some rows, u)) :
    publishCmd c tensors s = publishGo (takePublish (stageCopy u id bi rows) c.tag train id bi (installOrder b)) id bi := by
  obtain ⟨x, found⟩ := Option.isSome_iff_exists.1 trains
  simp only [publishCmd, itsTrain, itsJob, itsBay, found, job, bay, clsS, serve, derived, Bool.not_true, Bool.false_eq_true,
    or_self, if_false]

/-- One that names a tensor which cannot be derived is refused. -/
theorem publishCmd_underived (underived : deriveAll train (b.version + 1) tensors s = (none, u)) :
    publishCmd c tensors s = refused u c.tag := by
  obtain ⟨x, found⟩ := Option.isSome_iff_exists.1 trains
  simp only [publishCmd, itsTrain, itsJob, itsBay, found, job, bay, clsS, serve, underived, Bool.not_true, Bool.false_eq_true,
    or_self, if_false]

end

section
variable {s : State} {p : Publish} {b : Bay} (underWay : s.mas.publish = some p) (bay : s.bay p.job p.bay = some b)
include underWay bay

theorem publishGo_next {m : Nat} (next : installNext b p.left = some m) :
    publishGo s p.job p.bay = installMember s p.job p.bay m (releasing b p.left m) := by
  simp only [publishGo, underWay, bay, next, ne_eq, not_true_eq_false, or_self, if_false]

theorem publishGo_end (done : installNext b p.left = none) : publishGo s p.job p.bay = endPublish s p b := by
  simp only [publishGo, underWay, bay, done, ne_eq, not_true_eq_false, or_self, if_false]

end

/-! ### The commands of one job -/

section
variable {s : State} {c : HostCmd} {j : Job} (job : s.job c.job = some j) (idle : jobBusy s c.job = false)
include job idle

theorem exec_startJob (taken : Taken s c 2) : exec (.startJob c) s = .next (startCmd c.tag j (fetchOne s)) :=
  jobCommand_taken job idle taken (by decide) _

theorem exec_stopJob (taken : Taken s c 3) : exec (.stopJob c) s = .next (stopCmd c.tag j (fetchOne s)) :=
  jobCommand_taken job idle taken (by decide) _

theorem exec_resumeJob (taken : Taken s c 4) : exec (.resumeJob c) s = .next (resumeCmd c.tag j (fetchOne s)) :=
  jobCommand_taken job idle taken (by decide) _

theorem exec_unloadJob (taken : Taken s c 5) :
    exec (.unloadJob c) s = .next ((freeJob (fetchOne s) j.id).complete c.tag 0 0 0 0) :=
  jobCommand_taken job idle taken (by decide) _

theorem exec_setPriority (taken : Taken s c 6) : exec (.setPriority c) s = .next (priorityCmd c j (fetchOne s)) :=
  jobCommand_taken job idle taken (by decide) _

theorem exec_signal (taken : Taken s c 0x0B) : exec (.signal c) s = .next (signalCmd c j (fetchOne s)) :=
  jobCommand_taken job idle taken (by decide) _

end

/-- Settles O41: each command of one job by the state the job is in, then the slots and the publish. -/
theorem jobs : Obligations.Jobs := by
  refine ⟨fun s c j job idle => ?_, fun s c j b => ?_⟩
  · intro t done becomes
    have number : j.id = c.job := State.id_of_job job
    have fetched : t.job j.id = some j := (job_fetchOne s j.id).trans (number ▸ job)
    refine ⟨fun taken => ⟨fun waiting => ?_, fun loaded => ?_⟩, fun taken => ⟨fun clsT running => ?_, fun clsS running => ?_⟩,
      fun taken => ⟨fun clsT kept preempted => ?_, fun clsS stopped => ?_⟩, fun taken => ?_, fun taken clsT inRange => ?_,
      fun taken => ?_, fun taken b bay => ⟨fun col row peg placed => ?_, fun outside => ?_⟩⟩
    · rw [exec_startJob job idle taken, startCmd, waiting]
    · refine ⟨_, exec_startJob job idle taken, ?_⟩
      rw [startCmd, loaded, ← number]
      exact (State.state_complete _ _ _ _ _ _ _).trans (state_serveJob (by rw [fetched]; rfl) false)
    · refine ⟨⟨_, exec_stopJob job idle taken, ?_⟩, _, exec_stopJob job idle taken, fun a mem => ?_⟩
      · rw [← number]
        exact state_stopCmd_classT c.tag fetched running clsT
      · exact autorun_stopCmd_classT c.tag fetched running clsT (by rwa [ashlars_fetchOne])
    · refine ⟨_, exec_stopJob job idle taken, ?_⟩
      rw [← number]
      exact state_stopCmd_classS c.tag fetched running clsS
    · rw [exec_resumeJob job idle taken, resumeCmd_kept _ _ clsT kept preempted]
    · refine ⟨_, exec_resumeJob job idle taken, ?_⟩
      rw [← number]
      exact state_resumeCmd_classS c.tag fetched stopped clsS
    · refine ⟨_, exec_unloadJob job idle taken, ?_, ?_⟩
      · rw [(OnlyPosts.complete _ _ _ _ _ _).job, ← number]
        exact job_freeJob fetched
      · rw [State.complete_loads, ← number]
        exact loads_freeJob fetched
    · rw [exec_setPriority job idle taken, priorityCmd, if_neg (Nat.not_lt.2 inRange)]
      simp [clsT, done, t]
    · exact jobCommand_taken job idle taken (by decide) _
    · rw [exec_signal job idle taken, signalCmd_inside _ bay col row peg placed]
      rfl
    · rw [exec_signal job idle taken, signalCmd_outside _ bay outside]
  · intro t d key n r
    refine ⟨fun taken job idle clsS bay settled port fresh free put => ?_, fun id bi m taken live settled => ?_,
      fun id bi m d seq bay port drains => ?_, fun tensors rows u => ?_, fun u id bi x p underWay isJob isBay bay => ?_⟩
    · rw [exec_slotAdd taken job idle bay settled]
      exact congrArg _ (slotAddCmd_fits (s := fetchOne s) clsS bay port fresh free put)
    · exact exec_slotRemove taken live settled
    · change (_ → Host.Outcome.next (slotDrainDone s id bi m) = _) ∧ (_ → Host.Outcome.next (slotDrainDone s id bi m) = _)
      rw [slotDrainDone_drain bay port drains]
      exact ⟨fun drained => by rw [if_pos drained], fun waits => by rw [if_neg (by simp [waits])]⟩
    · intro train id bi taken noPublish trainIdle idle trains job bay clsS serve
      rw [exec_publish rfl rfl tensors taken noPublish trainIdle idle]
      exact ⟨fun derived => congrArg _ (publishCmd_derived (s := t) rfl rfl rfl trains job bay clsS serve derived),
        fun underived => congrArg _ (publishCmd_underived (s := t) rfl rfl rfl trains job bay clsS serve underived)⟩
    · subst isJob isBay
      exact ⟨fun m => publishGo_next underWay bay, publishGo_end underWay bay⟩

end Sys2Proof.Machine
end

section
/-! PROOF. Reads, writes and lookups of memory (R404 to R407): the statement fails as it stands, and the state that refutes it, a
tier's memory outside canonical form (R409). -/

namespace Sys2Proof.Machine

/-- A write that reaches its controller is accepted there. -/
theorem exec_mwrite {s : State} {p : Packet} {die : Nat} {c : Ctl} (arrives : ArrivesTier s p die c) {r : TierReq} {unit : Bool}
    {data keep : List DWord} (body : p.body = .mwrite r unit data keep) : exec (.mwrite p) s = .next (tierAccept s die c p) := by
  change execMwrite p s = _
  simp [execMwrite, arrives.target, body, toTier, arrives.route, arrives.clean]

/-- A write of one word, 0, to word 0 of frame 0 of T1 on die 0. -/
def zeroWrite : Packet := ⟨1, ctlDest 0 .stack0, 0, false, .mwrite ⟨0, 0, 0, mkFd 1 0 0 0⟩ false [0] []⟩

/-- A die whose T1 lists two bytes at address 0. -/
def tierTwiceListed : State :=
  dieZeroRuns.setDie 0 { dieZeroRuns.die 0 with tiers := (dieZeroRuns.die 0).tiers.set (0 : Fin 3) [(0, 1), (0, 2)] }

/-- Refutes O27: the statement takes every state, and where a tier's memory is not in canonical form (`memWf`) the byte 0 written
takes the first of two bytes listed at its address away, so that the second reads back and not the word written. -/
theorem not_tierRequests : ¬ Obligations.TierRequests := by
  intro claimed
  have arrives : ArrivesTier tierTwiceListed zeroWrite 0 .stack0 := ⟨by decide +kernel, by decide +kernel, by decide +kernel⟩
  obtain ⟨-, -, -, -, -, -, -, -, writes, -⟩ := claimed tierTwiceListed zeroWrite 0 .stack0
  obtain ⟨u, written, -, stored, -⟩ := writes arrives (by decide +kernel) _ _ rfl rfl (by decide +kernel)
  obtain rfl := Host.Outcome.next.inj ((exec_mwrite arrives rfl).symm.trans written)
  have second : ((tierAccept tierTwiceListed 0 .stack0 zeroWrite).tierRaw 0 1 0 0).1 = 2 := by decide +kernel
  have first := congrArg Prod.fst (stored 0 0 rfl)
  exact absurd (second.symm.trans first) (by decide)

end Sys2Proof.Machine
end

section
/-! PROOF. The service of a T3 socket (R426 to R429, R432): what a change of state leaves in the socket, and what ends the
migrations toward it leaves of every socket (R422). -/

namespace Sys2Proof.Machine

/-! ### A socket that changes state -/

/-- An event of a socket that is watched acts on it. -/
theorem onSocket_watched {s : State} {die : Nat} (watched : Watched s die) (f : State → State) :
    onSocket s die f = .next (f s) := by
  simp [onSocket, watched.onPart, watched.power, watched.notHeld]

/-- A change of a socket's state changes the socket alone of its die. -/
theorem State.die_setSvc (s : State) (die : Nat) (f : Socket → Socket) :
    (s.setSvc die f).die die = { s.die die with socket := f (s.die die).socket } := by
  unfold State.setSvc
  dsimp only
  split
  · exact State.die_setDie_same _ _ _
  · rw [State.die, State.raise_dies]
    exact State.die_setDie_same _ _ _

@[simp] theorem State.socket_setSvc (s : State) (die : Nat) (f : Socket → Socket) :
    ((s.setSvc die f).die die).socket = f (s.die die).socket := by rw [State.die_setSvc]

/-! ### What leaves every socket as it is -/

theorem State.socket_setDie {s : State} {d : Nat} {v : Die} (same : v.socket = (s.die d).socket) (e : Nat) :
    ((s.setDie d v).die e).socket = (s.die e).socket := by
  by_cases h : e % 8 = d % 8
  · have place : dieIdx e = dieIdx d := Fin.ext h
    simpa [State.die, State.setDie, place] using same
  · rw [State.die_setDie_ne s v h]

theorem socket_cmdDone (s : State) (d result e : Nat) : ((cmdDone s d result).die e).socket = (s.die e).socket :=
  State.socket_setDie (by rfl) e

theorem socket_releaseFrame (s : State) (fd : Word) (e : Nat) : ((releaseFrame s fd).die e).socket = (s.die e).socket :=
  State.socket_setDie (by rfl) e

theorem State.socket_onFrame (s : State) (d tier f : Nat) (g : Frame → Frame) (e : Nat) :
    ((s.onFrame d tier f g).die e).socket = (s.die e).socket := State.socket_setDie (by rfl) e

/-- A migration given up changes no socket. -/
theorem socket_abortMove (s : State) (d : Nat) (m : Migration) (e : Nat) :
    ((abortMove s d m).die e).socket = (s.die e).socket := by
  have released := (State.socket_onFrame (releaseFrame s m.dst) (fdDie m.src) (fdTier m.src) (fdFrame m.src)
    (fun f => { f with migrating := false, dirty := [] }) e).trans (socket_releaseFrame s m.dst e)
  unfold abortMove
  dsimp only
  split
  · exact (socket_cmdDone _ _ _ _).trans ((State.socket_setDie (by rfl) e).trans released)
  · exact (State.socket_setDie (by rfl) e).trans released

theorem socket_abortToward (s : State) (die e : Nat) : ((abortToward s die).die e).socket = (s.die e).socket :=
  foldl_keeps (fun t : State => (t.die e).socket)
    (fun t _ => foldl_keeps (fun u : State => (u.die e).socket) (fun u m => socket_abortMove u _ m e) _ t) _ s

/-! ### The commands of a socket -/

theorem exec_dimmReadmit {s : State} {die : Nat} (runs : DieRuns s die) :
    exec (.dimmReadmit die) s = .next (socketReadmit s die) := atDie_runs runs _

theorem exec_dimmEvacuate {s : State} {die : Nat} (runs : DieRuns s die) :
    exec (.dimmEvacuate die) s = .next (socketEvacuate s die) := atDie_runs runs _

theorem exec_dimmCancel {s : State} {die : Nat} (runs : DieRuns s die) :
    exec (.dimmCancel die) s = .next (socketCancel s die) := atDie_runs runs _

/-- A socket whose last frame is gone is empty; with frames left it is evacuating still (R426). -/
theorem svc_settleSocket {s : State} {die : Nat} (leaves : (s.die die).socket.svc = .evacuating) :
    ((settleSocket s die).die die).socket.svc = .evacuating ∨ ((settleSocket s die).die die).socket.svc = .empty := by
  unfold settleSocket
  split
  · exact .inr (by simp)
  · exact .inl leaves

section
variable {s : State} {die : Nat} (watched : Watched s die)
include watched

theorem exec_dimmPresent (d : Dimm) (absent : (s.die die).socket.svc = .absent) :
    exec (.dimmPresent die d) s = .next (s.setSvc die fun k =>
      { k with svc := .present, presence := true, dimm := some d, spdRead := false, reason := 0 }) :=
  (onSocket_watched watched _).trans (by rw [if_pos absent])

theorem exec_dimmSafe (empty : (s.die die).socket.svc = .empty) :
    exec (.dimmSafe die) s = .next (s.setSvc die fun k => { k with svc := .safe, power := false, indicator := true }) :=
  (onSocket_watched watched _).trans (by rw [if_pos empty])

theorem exec_dimmRemoved (safe : (s.die die).socket.svc = .safe) :
    exec (.dimmRemoved die) s = .next (s.setSvc die socketEmptied) :=
  (onSocket_watched watched _).trans (by simp [safe])

/-- A DIMM that R397 admits is cleared once its training is done, and rejected where it failed. -/
theorem exec_dimmTrainingDone {d : Dimm} (training : (s.die die).socket.svc = .training)
    (dimm : (s.die die).socket.dimm = some d) (ecc : d.ecc = true) (cap : d.cap ≠ 0) (rate : 5600 ≤ d.rate.toNat) (ok : Bool) :
    exec (.dimmTrainingDone die ok) s =
      .next (if ok then s.setSvc die fun k => { k with svc := .init } else socketReject s die 6) := by
  change execDimmTrainingDone die ok s = _
  rw [execDimmTrainingDone, onSocket_watched watched]
  have admitted : ¬(d.cap = 0 ∨ d.rate.toNat < 5600) := fun refused => refused.elim cap (Nat.not_lt.2 rate)
  simp only [training, dimm, ecc, if_neg admitted]
  cases ok <;> rfl

/-- The words of a socket's DIMM cleared (R428). -/
def tierThreeCleared (s : State) (die : Nat) : State :=
  s.setDie die { s.die die with tiers := (s.die die).tiers.set (2 : Fin 3) [] }

theorem exec_dimmInitDone (init : (s.die die).socket.svc = .init) :
    exec (.dimmInitDone die true) s =
      .next ((tierThreeCleared s die).setSvc die fun k => { k with svc := .online, gone := false }) :=
  by
  change execDimmInitDone die true s = _
  rw [execDimmInitDone, onSocket_watched watched, if_neg (by simp [init])]
  rfl

theorem exec_dimmLost (online : (s.die die).socket.svc = .online) :
    exec (.dimmLost die) s = .next ((abortToward (s.setSvc die fun k =>
      { k with svc := .lost, presence := false, power := false, gone := true }) die).raise (.dmc die) evDimmLost 0) := by
  change execDimmLost die s = _
  rw [execDimmLost, onSocket_watched watched]
  simp [online]

end

/-- Where a tier's memory lists nothing every word reads 0, its check bits too. -/
theorem State.tierRaw_of_nil {s : State} {die tier : Nat} (clear : (s.die die).tiers[tierIx tier] = []) (f w : Nat) :
    s.tierRaw die tier f w = (0, 0) := by
  simp [State.tierRaw, clear, mreadN, mread]

/-- Settles O29: each command of a socket by the state the socket is in. -/
theorem socketService : Obligations.SocketService := by
  intro s die d watched
  refine ⟨fun absent => ⟨_, exec_dimmPresent watched d absent, by simp, by simp⟩, fun runs present => ?_,
    fun training dimm ecc cap rate => ?_, fun init => ⟨_, exec_dimmInitDone watched init, by simp, fun f w => ?_⟩,
    fun runs online => ⟨_, exec_dimmEvacuate runs, ?_⟩, fun runs evacuating => ⟨_, exec_dimmCancel runs, ?_⟩,
    fun empty => ⟨_, exec_dimmSafe watched empty, by simp, by simp, by simp⟩,
    fun safe => ⟨_, exec_dimmRemoved watched safe, by simp [socketEmptied], by simp [socketEmptied]⟩,
    fun online => ⟨_, exec_dimmLost watched online, ?_, ?_, State.fld_raise_event _ _ _ _⟩⟩
  · refine ⟨_, exec_dimmReadmit runs, ?_⟩
    simp [socketReadmit, if_pos present]
  · have trained := exec_dimmTrainingDone watched training dimm ecc cap rate
    exact ⟨⟨_, trained true, by simp⟩, _, trained false, by simp [socketReject]⟩
  · refine State.tierRaw_of_nil ?_ f w
    rw [State.die_setSvc]
    simp [tierThreeCleared, tierIx]
  · rw [socketEvacuate, if_pos online]
    exact svc_settleSocket (by rw [socket_abortToward, State.socket_setSvc])
  · simp [socketCancel, if_pos evacuating]
  · rw [State.die, State.raise_dies, ← State.die, socket_abortToward, State.socket_setSvc]
  · rw [State.die, State.raise_dies, ← State.die, socket_abortToward, State.socket_setSvc]

end Sys2Proof.Machine
end

section
/-! PROOF. The Planes (R445 to R452, R463): triggers, dispatch, work items and descriptor writes at one Plane, whose state no
packet on its way changes. -/

namespace Sys2Proof.Machine

/-! ### A Plane as it is read and set -/

@[simp] theorem State.plane_setPlane_same (s : State) (die : Nat) (c : Ctl) (pl : Plane) :
    (s.setPlane die c pl).plane die c = pl := by
  simp [State.plane, State.setPlane]

theorem State.plane_congr {s t : State} (same : t.dies = s.dies) (die : Nat) (c : Ctl) : t.plane die c = s.plane die c := by
  simp only [State.plane, State.die, same]

@[simp] theorem State.plane_raise (s : State) (p : Page) (e : Ev) (addr die : Nat) (c : Ctl) :
    (s.raise p e addr).plane die c = s.plane die c := State.plane_congr (State.raise_dies s p e addr) die c

@[simp] theorem State.plane_send (s : State) (p : Packet) (die : Nat) (c : Ctl) :
    (s.send p).plane die c = s.plane die c := State.plane_congr (State.send_dies s p) die c

/-- A change of a die beside its Planes leaves every Plane as it was. -/
theorem State.plane_setDie {s : State} {d : Nat} {v : Die} (same : v.planes = (s.die d).planes) (e : Nat) (c : Ctl) :
    (s.setDie d v).plane e c = s.plane e c := by
  by_cases h : e % 8 = d % 8
  · have place : dieIdx e = dieIdx d := Fin.ext h
    have planes : v.planes = s.dies[dieIdx d].planes := same
    simp [State.plane, State.die, State.setDie, place, planes]
  · rw [State.plane, State.die_setDie_ne s v h, State.plane]

theorem State.plane_onEdge (s : State) (d : Nat) (side : Side) (n e : Nat) (c : Ctl) :
    (s.onEdge d side n).plane e c = s.plane e c := State.plane_setDie (by rfl) e c

theorem State.plane_countCrossings (s : State) (p : Packet) (e : Nat) (c : Ctl) :
    (s.countCrossings p).plane e c = s.plane e c := by
  unfold State.countCrossings
  refine (foldl_keeps (fun t : State => t.plane e c) (fun t x => ?_) _ _).trans (State.plane_setDie (by rfl) e c)
  have counted := State.plane_congr (State.perfAdd_dies t (.lin x.1 x.2) 0x50 (flitsOf p.body)) e c
  dsimp only
  split
  · exact (State.plane_onEdge _ _ _ _ e c).trans ((State.plane_congr (State.perfAdd_dies _ _ _ _) e c).trans counted)
  · exact counted

/-- A packet taken off the Mortar leaves every Plane as it was. -/
@[simp] theorem State.plane_take (s : State) (p : Packet) (e : Nat) (c : Ctl) : (s.take p).plane e c = s.plane e c :=
  (State.plane_congr (State.countUe_dies (s.countCrossings p) p) e c).trans (State.plane_countCrossings s p e c)

/-! ### Descriptors -/

@[simp] theorem Plane.desc_setDesc_same (pl : Plane) (d : Nat) (x : PlaneDesc) : (pl.setDesc d x).desc d = x :=
  Vector.getElem_set_self (ix 64 d (by decide)).isLt

theorem Plane.desc_setDesc_ne (pl : Plane) {d e : Nat} (x : PlaneDesc) (legal : d < 64) (below : e < 64) (other : e ≠ d) :
    (pl.setDesc d x).desc e = pl.desc e :=
  Vector.getElem_set_ne (ix 64 d (by decide)).isLt (ix 64 e (by decide)).isLt (by simp only [ix]; omega)

/-- A descriptor that joins the queue reads as before. -/
@[simp] theorem Plane.desc_enqueue (pl : Plane) (d e : Nat) : (pl.enqueue d).desc e = pl.desc e := by
  unfold Plane.enqueue
  dsimp only
  split <;> rfl

/-- DESCk of a descriptor with its fields written. -/
def PlaneDesc.putWord (x : PlaneDesc) (k : Nat) (v : Word) : PlaneDesc :=
  { x with regs := x.regs.set (ix 10 k (by decide)) (v &&& BitVec.ofNat 32 (descMask k)) }

theorem PlaneDesc.word_putWord_same (x : PlaneDesc) (k : Nat) (v : Word) :
    (x.putWord k v).word k = v &&& BitVec.ofNat 32 (descMask k) :=
  Vector.getElem_set_self (ix 10 k (by decide)).isLt

/-! ### Packets at a Plane (R447, R448) -/

/-- A clean packet that reaches its controller is taken off the Mortar and acts at its Plane. -/
theorem toCtl_arrives {s : State} {p : Packet} {die : Nat} {c : Ctl} (arrives : ArrivesTier s p die c)
    (go : Nat → Ctl → State → State) : toCtl s p go = .next (go die c (s.take p)) := by
  obtain ⟨target, route, clean⟩ := arrives
  obtain ⟨onPart, named⟩ : blockExists s.part p.dest = true ∧ ctlOfDest p.dest = some (die, c) := by
    simpa [tierTarget] using target
  simp [toCtl, named, onPart, route, clean]

section
variable {s : State} {p : Packet} {die : Nat} {c : Ctl} (arrives : ArrivesTier s p die c)
include arrives

theorem exec_planeTrigger {peg : BitVec 6} {inc : Byte} {job : Half} (body : p.body = .psig peg inc job) :
    exec (.planeTrigger p) s = .next (planeTrigger p peg inc job die c (s.take p)) := by
  change execPlaneTrigger p s = _
  simp only [execPlaneTrigger, body, toCtl_arrives arrives]

theorem exec_planeItemAnswer {tag : BitVec 15} {status : BitVec 2} {nw : BitVec 6} {off : BitVec 21} {fd : Word}
    {data : List DWord} (body : p.body = .mresp tag status nw off fd data) :
    exec (.planeItemAnswer p) s = .next (itemAnswer (s.take p) die c tag status off.toNat) := by
  change execPlaneItemAnswer p s = _
  simp only [execPlaneItemAnswer, body, toCtl_arrives arrives]

end

section
variable (p : Packet) {peg : BitVec 6} (inc : Byte) {job : Half} {s : State} {die : Nat} {c : Ctl}

/-- A trigger of a valid descriptor's job adds INC to its count, and the descriptor may join the queue. -/
theorem planeTrigger_counted (valid : ((s.plane die c).desc peg.toNat).valid = true)
    (named : ((s.plane die c).desc peg.toNat).job = job) :
    planeTrigger p peg inc job die c s =
      let x := (s.plane die c).desc peg.toNat
      s.setPlane die c (((s.plane die c).setDesc peg.toNat { x with tcount := x.tcount + inc.zeroExtend 16 }).enqueue
        peg.toNat) := by
  simp [planeTrigger, valid, named]

theorem planeTrigger_refused (refused : ((s.plane die c).desc peg.toNat).valid = false ∨
    ((s.plane die c).desc peg.toNat).job ≠ job) : planeTrigger p peg inc job die c s = s.nak p 5 := by
  rw [planeTrigger]
  exact if_pos (by simpa using refused)

end

/-! ### Work items (R449, R450) -/

/-- A controller whose input queue is empty has nothing to serve. -/
theorem tierServe_of_empty {s : State} {die : Nat} {c : Ctl} (empty : (s.tierQueue die c).reqs = []) :
    tierServe s die c = s := by
  simp [tierServe, empty, tierRun]

theorem State.tierQueue_setPlane (s : State) (die : Nat) (c : Ctl) (pl : Plane) :
    (s.setPlane die c pl).tierQueue die c = s.tierQueue die c := by
  simp [State.tierQueue, State.setPlane]

theorem State.tierQueue_raise (s : State) (p : Page) (e : Ev) (addr die : Nat) (c : Ctl) :
    (s.raise p e addr).tierQueue die c = s.tierQueue die c := by
  simp only [State.tierQueue, State.die, State.raise_dies]

/-- The head item of a Plane refused: MEM_ACCESS raised, the item gone from the Plane and answered with STATUS 3. -/
def itemRefused (s : State) (die : Nat) (c : Ctl) (q : Packet) (r : TierReq) (rest : List Packet) : State :=
  ((s.raise (ctlPage die c) evMemAccess 0).setPlane die c { s.plane die c with items := rest }).send
    (replyTo q (.mresp r.tag 3 r.nw r.off 0 []))

/-- An item whose offset is no line is refused. -/
theorem planeWorkItem_offLine {s : State} {die : Nat} {c : Ctl} {q : Packet} {r : TierReq} {rest : List Packet}
    (head : (s.plane die c).items = q :: rest) (body : q.body = .plane r) (offLine : r.off.toNat % 512 ≠ 0)
    (empty : (s.tierQueue die c).reqs = []) : planeWorkItem s die c = itemRefused s die c q r rest := by
  have idle : (((s.raise (ctlPage die c) evMemAccess 0).setPlane die c
      { s.plane die c with items := rest }).tierQueue die c).reqs = [] := by
    rw [State.tierQueue_setPlane, State.tierQueue_raise, empty]
  simp only [planeWorkItem, head, body, if_pos offLine, State.turnAway, State.plane_raise, tierServe_of_empty idle,
    BitVec.ofNat_toNat, BitVec.setWidth_eq]
  rfl

/-! ### Descriptor writes (R452, R463) -/

/-- A legal write to an idle descriptor takes its fields, and the descriptor may join the queue. -/
theorem plnDescWrite_taken {s : State} {die : Nat} {c : Ctl} {off d k : Nat} {v : Word}
    (selected : s.fld (.pln die c) 0x40 0 6 = d) (register : (off - 0x44) / 4 = k) (idle : (s.plane die c).busy d = false)
    (legal : descBad (((s.plane die c).desc d).putWord k v) = false) :
    plnDescWrite s die c off v =
      s.setPlane die c (((s.plane die c).setDesc d (((s.plane die c).desc d).putWord k v)).enqueue d) := by
  subst selected register
  rw [PlaneDesc.putWord] at legal
  simp [plnDescWrite, putDesc, idle, legal, PlaneDesc.putWord]

/-! ### Commands of a Plane's die -/

section
variable {s : State} {die : Nat} (runs : DieRuns s die) (c : Ctl)
include runs

theorem exec_planeDispatch : exec (.planeDispatch die c) s = .next (planeDispatch s die c) := atDie_runs runs _

theorem exec_planeWorkItem : exec (.planeWorkItem die c) s = .next (planeWorkItem s die c) := atDie_runs runs _

theorem exec_plnDescWrite {off : Nat} (v : Word) (low : 0x44 ≤ off) (high : off ≤ 0x68) (aligned : off % 4 = 0) :
    exec (.plnDescWrite die c off v) s = .next (plnDescWrite s die c off v) :=
  (atDie_runs runs _).trans (if_pos ⟨low, high, aligned⟩)

end

/-- Settles O30: each command of a Plane by the descriptor, the item or the register that it names. -/
theorem planes : Obligations.Planes := by
  intro s die c p
  refine ⟨fun arrives peg inc job body => ⟨fun valid named => ?counted, fun refused => ?refused⟩,
    fun arrives tag status nw off fd data body => exec_planeItemAnswer arrives body,
    fun runs => ⟨fun _ => exec_planeDispatch runs c, fun q rest r head body =>
      ⟨exec_planeWorkItem runs c, fun offLine empty => ?offLine⟩,
      fun off v low high aligned idle legal => ?written⟩⟩
  case counted =>
    refine ⟨_, exec_planeTrigger arrives body, ?_⟩
    rw [planeTrigger_counted p inc (by rwa [State.plane_take]) (by rwa [State.plane_take])]
    simp
  case refused =>
    rw [exec_planeTrigger arrives body, planeTrigger_refused p inc (by rwa [State.plane_take])]
  case offLine =>
    refine ⟨_, exec_planeWorkItem runs c, ?_⟩
    rw [planeWorkItem_offLine head body offLine empty, itemRefused]
    refine ⟨by simp, State.mem_sent_send _ _, ?_⟩
    rw [State.fld, State.reg_congr (State.send_regs _ _)]
    exact State.fld_raise_event s (ctlPage die c) evMemAccess 0
  case written =>
    refine ⟨_, exec_plnDescWrite runs c v low high aligned, ?_⟩
    rw [plnDescWrite_taken rfl rfl idle legal, State.plane_setPlane_same]
    simp only [Plane.desc_enqueue, Plane.desc_setDesc_same]
    have selected : s.fld (.pln die c) 0x40 0 6 < 64 := Nat.mod_lt _ (by decide)
    exact ⟨PlaneDesc.word_putWord_same _ _ _, rfl, fun m below other => Plane.desc_setDesc_ne _ _ selected below other⟩

end Sys2Proof.Machine
end
